-- ==== Sys2Proof/Word.lean ====
section
/-! DEFINITION. The word types of the model: registers and table words are 32 bits, memory is bytes. -/

namespace Sys2Proof

/-- A register or a table word (Register Pages and Access Rules). -/
abbrev Word := BitVec 32

/-- A byte of a frame, a packet or the HBM. -/
abbrev Byte := BitVec 8

end Sys2Proof
end

