-- ==== Sys2Proof/Syntax.lean ====
section
/-! DEFINITION. The commands of the ILS9600: one constructor of `Instr` per row of spec/opcode_table.json, in the
table's order, and the data a command brings from outside. The table gives the rows no operands; each operand is what
the row's rule speaks of. `left` is always the number of D06 cycles from the acceptance to the next frame boundary. Six rows name
what the block has found (an SS run, a trace, a DCC frame, the bytes that moved a pointer, a control packet, a signature) and
have their effect where the block holds just that. -/

namespace Sys2Proof

/-- A TRIB index (R19, R21). -/
abbrev TribIdx := Fin 137216
abbrev Port := Fin 96
abbrev Bank := Fin 6
abbrev GaugeNo := Fin 24
abbrev Source := Fin 256
abbrev UnitNo := Fin 32
abbrev QueueNo := Fin 16
abbrev GroupNo := Fin 4096
abbrev PairNo := Fin 16384
abbrev SlotNo := Fin 256
abbrev MspNo := Fin 48
abbrev PageSlot := Fin 128
abbrev VecNo := Fin 64

/-- A Path, a Tributary, or VC-3 `sub` (1–3) of an AU-3 position (R19); `sub` is 0 for every other object. -/
structure ObjRef where
  idx : TribIdx
  sub : Fin 4
  deriving DecidableEq, Repr

/-- The defects of Table 5-10, in rank order. -/
inductive Defect where
  | los | lof | oof | otuLom | smTim | oduAis | oduOci | oduLck | opuPlm | cLof | cOof | msAis | rsTim | msExc | msDeg
  | auAis | auLop | hpUneq | hpTim | hpPlm | hpExc | hpDeg
  | tuAis | tuLop | tuLom | lpUneq | lpTim | lpPlm | lpExc | lpDeg
  deriving DecidableEq, Repr

/-- The remote indications of Table 5-11. -/
inductive Remote where
  | msRdi | smBdi | pmBdi | hpRdi | lpRdi | lpRfi
  deriving DecidableEq, Repr

/-- The object a defect, a window or an indication belongs to. -/
inductive Target where
  | port (p : Port)
  | obj (o : ObjRef)
  deriving DecidableEq, Repr

/-- The trail traces of section 5.3. -/
inductive Trace where
  | j0 (p : Port)
  | sm (p : Port)
  | path (o : ObjRef)
  deriving DecidableEq, Repr

/-- A host access of a form Table 2-12 does not serve as it stands. -/
structure OddAccess where
  /-- true = BAR2, false = BAR0. -/
  bar2 : Bool
  addr : BitVec 24
  bytes : Nat
  write : Bool
  deriving DecidableEq, Repr

/-- A flipped stored bit, found by the next sweep (R43, R44): the register, the bit and, for a CT register, the copy. -/
structure Upset where
  addr : BitVec 19
  bit : Fin 32
  copy : Fin 3
  deriving DecidableEq, Repr

/-- What an aperture access asks for: a read of `n` words, or a write of words (R59). -/
inductive ApertureOp where
  | read (n : Nat)
  | write (ws : List Word)
  deriving DecidableEq, Repr

/-- The 48 bits of the received stream at a bit position, counted within one line frame, where a pattern check is made
(R104). They are the bits on the pins, before any inversion. -/
structure PatCheck where
  pos : Nat
  bits : BitVec 48
  deriving DecidableEq, Repr

/-- One received line frame of a framer: the bits at its candidates' positions in received bit order, and the whole frame
from its first byte as it is on the pins, scrambled. -/
structure LineIn where
  checks : List PatCheck
  bytes : List Byte
  deriving DecidableEq, Repr

/-- What one object received in the frame that ends, after pointer interpretation: the bytes of its VC in order, path
overhead included, and at which of them a VC, or a VC multiframe of a TU-11, TU-12 or TU-2, begins. -/
structure ObjIn where
  obj : ObjRef
  bytes : List Byte
  starts : List Nat
  deriving DecidableEq, Repr

/-- The inputs of one frame boundary: what the ports' receive sides delivered in the frame that ends, the longest run in µs
without a transition on a lane in it (R157), the scheduler work that did not complete (R271), and the conditions of analogue
parts. -/
structure FrameIn where
  objs : List ObjIn
  zeroRun : List (Port × Nat)
  lateWr : List ObjRef
  lateRd : List ObjRef
  /-- Host cells served in the frame that ends (RSV_OR_LOAD). -/
  orCells : Nat
  /-- 64-bit words of the HBM that a read found with a single-bit error in the frame that ends (R265, R267). -/
  corrected : Nat
  /-- The cell that the scrub has reached (R268). -/
  scrubAt : BitVec 29
  /-- The lanes on which a clock can be recovered, with the line's offset in ppm from the nominal rate (R77). -/
  cdr : List (Port × Int)
  /-- Fill of the lanes' elastic stores, in words (BK_ES). -/
  esFill : List (Port × Byte)
  /-- The edges seen on the TREF pins: how long ago each was, in q (Table 10-1). -/
  tref : List (Fin 4 × List Nat)
  deriving DecidableEq, Repr

/-- The inputs of one Levee tick: the comparators of the lanes (one bit per lane), the sources whose rail pair is not
the normal 0b01, the highest die temperature, the bank temperatures and the banks whose supplies are out of range. -/
structure TickIn where
  raw : BitVec 96
  rails : List (Source × BitVec 2)
  dieTemp : Int
  bankTemp : List (Bank × Int)
  bankBad : List Bank
  deriving DecidableEq, Repr

/-- What a rate attempt saw: the 48 bits at three places of the received stream, each with its bit number, and the SS values
of the eight line frames that follow (R90–R93). -/
structure Attempt where
  hits : List (Nat × BitVec 48)
  ss : List (Fin 4)
  deriving DecidableEq, Repr

/-- A received VCAT/LCAS control packet (Table 7-4). -/
structure CtrlPkt where
  /-- The frame in which it ended. -/
  frame : Nat
  sq : Byte
  ctrl : Fin 16
  crcOk : Bool
  /-- Eight MST bits, true = OK, and the member number of the first. -/
  mst : List Bool
  mstAt : Nat
  rsAck : Bool
  deriving DecidableEq, Repr

/-- A pointer word received for an object, H1 and H2 or V1 and V2, and whether it came on the port of an MSP pair that is not selected
(R189, R299). -/
structure PtrIn where
  other : Bool
  word : BitVec 16
  deriving DecidableEq, Repr

/-- A Gauge whose input is looked at, and the edges then seen on its pin: how long ago each was, in q (Table 10-1). -/
structure InputSeen where
  gauge : GaugeNo
  ages : List Nat
  deriving DecidableEq, Repr

/-- A received heartbeat (Table 9-9). -/
structure Heartbeat where
  role : Fin 8
  flags : Byte
  frame : BitVec 64
  yieldAt : Word
  xmapH : BitVec 128
  pmapH : BitVec 128
  deriving DecidableEq, Repr

/-- A mirror record (R309). -/
structure MirrorRec where
  target : Nat
  cmd : Fin 8
  wtr : Nat
  deriving DecidableEq, Repr

/-- A BAR4 access in PCIe mode (R385). -/
structure Bar4 where
  addr : BitVec 31
  bytes : Nat
  data : Option (List Byte)
  deriving DecidableEq, Repr

/-- A DOE request object (R386). -/
inductive DoeObj where
  | discovery (index : Byte)
  | cdat
  | attest (nonce : BitVec 256)
  deriving DecidableEq, Repr

/-- The kinds of ECC error that end a read (R266). -/
inductive EccKind where
  | ue | md
  deriving DecidableEq, Repr

/-- A TAP instruction (R432): the two that sealed mode offers, the mandatory ones, and Ronorok's private ones. -/
inductive TapInstr where
  | idcode | bypass | boundary
  | priv (reachesTst : Bool)
  deriving DecidableEq, Repr

/-- The steps of HBM initialisation (R241). -/
inductive InitStep where
  | trained | ret | openRes | traffic
  /-- A part of the traffic store has been written: the percentage done. -/
  | part (percent : Fin 100)
  deriving DecidableEq, Repr

/-- The commands. -/
inductive Instr where
  | registerWrite (a : BitVec 20) (v : Word) (left : Nat)
  | unassignedSlotAccess (a : BitVec 20) (write : Bool)
  | privilegedPageAccess (a : BitVec 20) (write : Bool)
  | accessWidthError (x : OddAccess)
  | evClearingRead (a : BitVec 20)
  | pgIgnAddrRead (slot : PageSlot)
  | hldRead (a : BitVec 20) (wide : Bool)
  | aliasRead (a : BitVec 24)
  | aliasWrite (a : BitVec 24) (v : Word) (left : Nat)
  | pgCtrlEnWrite (slot : PageSlot) (v : Word)
  | enableScanEnd (slot : PageSlot)
  | softRst (slot : PageSlot) (v : Word)
  | softRstDone (slot : PageSlot)
  | configSweep (ups : List Upset)
  | grdTgtWrite (slot : PageSlot) (v : Word)
  | grdValWrite (slot : PageSlot) (v : Word)
  | grdCplWrite (slot : PageSlot) (v : Word)
  | grdSequenceExpire
  | snapAll (left : Nat)
  | snapArm
  | snapCancel (left : Nat)
  | snapshot
  | snapGenIncrement
  | snapRequestWithdraw
  | apertureAccess (off : BitVec 19) (op : ApertureOp)
  | frameBoundary (fi : FrameIn)
  | leveeTick (ti : TickIn)
  | energyUp (p : Port)
  | energyDown (p : Port)
  | bankWake (b : Bank)
  | bankUp (b : Bank)
  | bankSleep (b : Bank)
  | rateEstimateEnd (p : Port) (transitions : Nat)
  | rateAttemptSuccess (p : Port) (a : Attempt)
  | rateAttemptFail (p : Port)
  | sweepRetry (p : Port)
  | forcedFormatLock (p : Port)
  | resense (p : Port)
  | clientSet (p : Port) (ss : List (Fin 4))
  | lineFrame (p : Port) (client : Bool) (li : LineIn)
  | detection (p : Port) (client : Bool) (k : PatCheck)
  | candidateConfirm (p : Port) (client : Bool)
  | oof (p : Port) (client : Bool)
  | falseLock (p : Port) (client : Bool)
  | huntCycleEnd (p : Port) (client : Bool)
  | lofDeclare (p : Port) (client : Bool)
  | lofClear (p : Port) (client : Bool)
  | mfasAlign (p : Port)
  | mfasOom (p : Port)
  | otuLomDeclare (p : Port)
  | otuLomClear (p : Port)
  | h4MfAlign (o : ObjRef)
  | h4MfOom (o : ObjRef)
  | tuLomDeclare (o : ObjRef)
  | tuLomClear (o : ObjRef)
  | e1BasicAlign (i : TribIdx)
  | e1BasicLoss (i : TribIdx)
  | e1Crc4Align (i : TribIdx)
  | noCrc4 (i : TribIdx)
  | e1Crc4Loss (i : TribIdx)
  | ttiAccept (t : Trace) (bytes : List Byte)
  | ssmAccept (p : Port)
  | k1k2Accept (p : Port)
  | signalLabelAccept (o : ObjRef)
  | defectDeclare (t : Target) (d : Defect)
  | defectClear (t : Target) (d : Defect)
  | excWindowEnd (t : Target)
  | remoteIndicationChange (t : Target) (r : Remote)
  | pmSecondEnd
  | harvest
  | harvestLate (written : Nat)
  | dccRxFrame (p : Port) (ms : Bool) (f : List Byte × Bool)
  | dccTxFrame (p : Port) (ms : Bool)
  | pointerReceive (o : ObjRef) (w : PtrIn)
  | pointerStateChange (o : ObjRef)
  | pointerGenerate (o : ObjRef) (moved : Int)
  | prbsSyncGain (k : Fin 64)
  | prbsSyncLoss (k : Fin 64)
  | prbsSingle (k : Fin 64)
  | vcatControlPacket (g : GroupNo) (sl : SlotNo) (k : CtrlPkt)
  | vcMfAlign (g : GroupNo) (sl : SlotNo) (gained : Bool)
  | vcLom (g : GroupNo) (sl : SlotNo)
  | memberLoaClear (g : GroupNo) (sl : SlotNo)
  | groupLoa (g : GroupNo)
  | sqAccept (g : GroupNo) (sl : SlotNo)
  | payloadSetChange (g : GroupNo)
  | mstFail (g : GroupNo) (sl : SlotNo)
  | mstOk (g : GroupNo) (sl : SlotNo)
  | rsAckToggle (g : GroupNo)
  | memberRecordWrite (g : GroupNo)
  | rsvInitStep (st : InitStep)
  | initFail
  | hdmRead (line : BitVec 24)
  | hdmWrite (line : BitVec 24) (data : List Byte)
  | bar4Access (x : Bar4)
  | eccUncorrectable (k : EccKind) (cell : BitVec 29) (synd : Byte) (retryOk : Bool)
  | scrubPass (fixed : Nat)
  | tableParityError (t : Fin 9) (i : BitVec 18)
  | hbmHot (temp : Byte)
  | mapCommitGo (v : Word) (tgt : BitVec 64)
  | commitCheckEnd
  | commitTake
  | postCommitCopyEnd
  | mapCommitCancel (left : Nat)
  | selfRefreshEntry
  | selfRefreshExit
  | vcFrameSignature (pr : PairNo) (prot : Bool) (sig pos at_ : Nat)
  | markerMatch (pr : PairNo) (prot : Bool)
  | markerMiss (pr : PairNo) (prot : Bool)
  | sfHoldoffEnd (pr : PairNo) (prot : Bool) (sd : Bool)
  | wtrEnd (pr : PairNo)
  | xcmdClear (t : BitVec 14) (msp : Bool) (left : Nat)
  | xcmdLo (t : BitVec 14) (msp : Bool) (left : Nat)
  | xcmdFsP (t : BitVec 14) (msp : Bool) (left : Nat)
  | xcmdFsW (t : BitVec 14) (msp : Bool) (left : Nat)
  | xcmdMsP (t : BitVec 14) (msp : Bool) (left : Nat)
  | xcmdMsW (t : BitVec 14) (msp : Bool) (left : Nat)
  | psbf (k : MspNo)
  | chMm (k : MspNo)
  | heartbeatReceive (msg : List Byte)
  | partnerLost
  | arbitrateTimeout
  | dualResolve
  | mirrorSend
  | mirrorReceive (rs : List MirrorRec)
  | yield
  | yieldTake
  | frameNumberTake
  | gaugeSrst (g : GaugeNo)
  | gaugeSyncAll
  | gaugeInputEvent (g : GaugeNo) (phase : Nat)
  | gaugeOutputSample (g : GaugeNo)
  | inputLost (g : InputSeen)
  | inputBack (g : InputSeen)
  | gaCoefDataAccess (page1 : Bool) (w : Option Word)
  | gaugeSwap (g : GaugeNo) (dst : Bool)
  | loopLock
  | loopLockLoss
  | refHoldoffEnd
  | refWtrEnd (si : Fin 8)
  | timCmdForce (si : Fin 8) (left : Nat)
  | timCmdManual (si : Fin 8) (left : Nat)
  | timCmdLockout (si : Fin 8) (set : Bool) (left : Nat)
  | timCmdClear (left : Nat)
  | timEnable
  | timDisable
  | packetDrop (q : QueueNo) (src : Nat)
  | headClaim
  | pop (rofs : Fin 8)
  | popDone
  | wqRselWrite (q : QueueNo)
  | flush (q : QueueNo)
  | packetOpen (hdr : Word)
  | writeWindowWrite (off : Fin 128) (v : Word)
  | packetCommit
  | packetAbort
  | wqPeakRead (q : QueueNo)
  | watermarkCrossing (q : QueueNo)
  | cuStart (u : UnitNo)
  | cuDinWrite (v : Word)
  | cuFinish (u : UnitNo) (tail : Fin 4)
  | cuSuspend (u : UnitNo)
  | cuAbort (u : UnitNo)
  | cuResult (u : UnitNo)
  | cuPoisoned (u : UnitNo)
  | perstAssert
  | perstDeassert
  | linkDown
  | linkUp (cxl : Bool) (speed : Fin 8) (width : Fin 16)
  | doeRequest (x : DoeObj)
  | msixMessage (v : VecNo)
  | vectorRearm (hi : Bool) (bits : Word)
  | msixGapEnd (v : VecNo)
  | doorbell (v : Word)
  | commandFetch (slot : Option (List Byte))
  | completionWrite
  | cplHeadWrite (v : Word)
  | deadlineExpire (tag : BitVec 16)
  | nop (tag : BitVec 16)
  | abort (tag : BitVec 16)
  | resync (tag : BitVec 16)
  | attest (tag : BitVec 16)
  | fwLoad (tag : BitVec 16)
  | capsule (tag : BitVec 16)
  | mapCommit (tag : BitVec 16)
  | mapCancel (tag : BitVec 16) (left : Nat)
  | protCmd (tag : BitVec 16) (left : Nat)
  | guardWrite (tag : BitVec 16)
  | check (tag : BitVec 16)
  | chipReset (tag : BitVec 16)
  | resyncDoorbell
  | ledgerWrite
  | fwVerifyEnd (fuseOk : Bool)
  | keyFuseCmd (v : Word) (fuseOk : Bool)
  | capsuleRecordsWritten
  | ownershipSeal (fuseOk : Bool)
  | mapHashCompute
  | wardenSleep
  | wardenWake (cause : Fin 8)
  | wardenFail (cause : Fin 8)
  | restartHoldEnd
  | restartVerifyEnd
  | restartTimeout
  | wardenRestart
  | watchdogKick
  | watchdogExpire
  | watchdogHalfWake
  | wakeTimer
  | jtagInstruction (i : TapInstr)
  | railFault (k : Source)
  | quietEnd (k : Source)
  | graceExpire (k : Source)
  | faultAck (page1 : Bool) (word : Fin 4) (bits : Word)
  | ffRearm
  | faultInject (page1 : Bool) (v : Word)
  | injectionEnd (page1 : Bool)
  | pwrgoodRise
  | fuseSenseDone (ok : Bool)
  | powerOnReset
  | devChiprst
  | chipResetEntry
  | chipResetEnd
  | devBlkrstHif
  | devBlkrstTim
  | devBlkrstAux
  | devBlkrstMat
  | bkRstIsland (b : Bank)
  | islandReset (i : Fin 13)
  | blockReturn (slot : PageSlot)
  | staleClear (slot : PageSlot)
  | l1Entry
  | l1Exit
  | islandOff (i : Fin 13)
  | islandOn (i : Fin 13)
  | supplyTrip (k : Fin 8)
  | supplyClear (k : Fin 8)
  | tempTrip (temp : Int)
  | devTempPeakRead
  | esSlip (p : Port)
  | bankPllUnlock (b : Bank) (pll : Fin 3)
  | bwPeakRead
  | latchingRead (a : BitVec 20)
  | cdrLoss (p : Port)
  | mateLaneUp (lane : Bool)
  | mateLaneDown (lane : Bool)
  | hdmDecoderCommit
  deriving DecidableEq, Repr

end Sys2Proof
end

