-- ==== Sys2Proof/WellFormed.lean ====
section
/-! DEFINITION. Which commands can be sent: the shapes that a command's operands have on the hardware. `exec` is total and gives
every command a next state; these checks say which of them stand for something that happens outside. -/

namespace Sys2Proof

/-- An address aligned to `n` bytes (R57). -/
def wordAt (n a : Nat) : Bool := a % n = 0

/-- The three VC-3 of a Path are named 1 to 3; any other object has no part (R19). -/
def ObjRef.wf (o : ObjRef) : Bool := o.sub.val = 0 || decide (o.idx.val < 6144)
def Target.wf : Target → Bool
  | .port _ => true
  | .obj o => o.wf
def Trace.wf : Trace → Bool
  | .j0 _ => true
  | .sm _ => true
  | .path o => o.wf

/-- An aperture access moves 1 to 16 words (Table 2-12, R59). -/
def ApertureOp.wf : ApertureOp → Bool
  | .read n => decide (1 ≤ n ∧ n ≤ 16)
  | .write ws => decide (1 ≤ ws.length ∧ ws.length ≤ 16)

/-- An access of a form that Table 2-12 does not serve: not an aligned word; not, in BAR0, an aligned pair; not, in the
aperture, 12 to 64 bytes within a block. -/
def OddAccess.wf (x : OddAccess) : Bool :=
  let a := x.addr.toNat
  let n := x.bytes
  decide (1 ≤ n ∧ n ≤ 64) && !(n = 4 && a % 4 = 0) &&
    (x.bar2 || (decide (a < 0x100000) && !(n = 8 && a % 8 = 0) &&
      !(decide (0x80000 ≤ a) && a % 4 = 0 && decide (12 ≤ n) && n % 4 = 0 && decide (a % 64 + n ≤ 64))))

/-- A BAR4 write brings the bytes it names (R385). -/
def Bar4.wf (x : Bar4) : Bool := decide (1 ≤ x.bytes) && (match x.data with | some bs => bs.length = x.bytes | none => true)

/-- One report of each object, its VCs beginning at bytes that it names in order; one offset and one run of each lane. -/
def FrameIn.wf (fi : FrameIn) : Bool :=
  decide ((fi.objs.map (·.obj)).Nodup) && (fi.objs.all fun q => q.obj.wf && q.starts.all (decide <| · < q.bytes.length) && q.starts.Pairwise (· < ·)) &&
    decide ((fi.cdr.map (·.1)).Nodup) && decide ((fi.zeroRun.map (·.1)).Nodup) && decide ((fi.tref.map (·.1)).Nodup)

/-- One rail reading of each source, one temperature of each bank. -/
def TickIn.wf (ti : TickIn) : Bool := decide ((ti.rails.map (·.1)).Nodup) && decide ((ti.bankTemp.map (·.1)).Nodup)

/-- Whether a command can be sent. -/
def Instr.wf : Instr → Bool
  | .registerWrite a _ _ => wordAt 4 a.toNat
  | .unassignedSlotAccess a _ => wordAt 4 a.toNat
  | .privilegedPageAccess a _ => wordAt 4 a.toNat
  | .accessWidthError x => x.wf
  | .evClearingRead a => wordAt 4 a.toNat
  | .pgIgnAddrRead .. => true
  | .hldRead a wide => wordAt (if wide then 8 else 4) a.toNat
  | .aliasRead .. => true
  | .aliasWrite .. => true
  | .pgCtrlEnWrite .. => true
  | .enableScanEnd .. => true
  | .softRst .. => true
  | .softRstDone .. => true
  | .configSweep .. => true
  | .grdTgtWrite .. => true
  | .grdValWrite .. => true
  | .grdCplWrite .. => true
  | .grdSequenceExpire => true
  | .snapAll .. => true
  | .snapArm => true
  | .snapCancel .. => true
  | .snapshot => true
  | .snapGenIncrement => true
  | .snapRequestWithdraw => true
  | .apertureAccess _ op => op.wf
  | .frameBoundary fi => fi.wf
  | .leveeTick ti => ti.wf
  | .energyUp .. => true
  | .energyDown .. => true
  | .bankWake .. => true
  | .bankUp .. => true
  | .bankSleep .. => true
  | .rateEstimateEnd .. => true
  | .rateAttemptSuccess _ a => a.ss.length = 8 && a.hits.length = 3
  | .rateAttemptFail .. => true
  | .sweepRetry .. => true
  | .forcedFormatLock .. => true
  | .resense .. => true
  | .clientSet .. => true
  | .lineFrame .. => true
  | .detection .. => true
  | .candidateConfirm .. => true
  | .oof .. => true
  | .falseLock .. => true
  | .huntCycleEnd .. => true
  | .lofDeclare .. => true
  | .lofClear .. => true
  | .mfasAlign .. => true
  | .mfasOom .. => true
  | .otuLomDeclare .. => true
  | .otuLomClear .. => true
  | .h4MfAlign o => o.wf
  | .h4MfOom o => o.wf
  | .tuLomDeclare o => o.wf
  | .tuLomClear o => o.wf
  | .e1BasicAlign .. => true
  | .e1BasicLoss .. => true
  | .e1Crc4Align .. => true
  | .noCrc4 .. => true
  | .e1Crc4Loss .. => true
  | .ttiAccept t _ => t.wf
  | .ssmAccept .. => true
  | .k1k2Accept .. => true
  | .signalLabelAccept o => o.wf
  | .defectDeclare t _ => t.wf
  | .defectClear t _ => t.wf
  | .excWindowEnd t => t.wf
  | .remoteIndicationChange t _ => t.wf
  | .pmSecondEnd => true
  | .harvest => true
  | .harvestLate .. => true
  | .dccRxFrame .. => true
  | .dccTxFrame .. => true
  | .pointerReceive o _ => o.wf
  | .pointerStateChange o => o.wf
  | .pointerGenerate o _ => o.wf
  | .prbsSyncGain .. => true
  | .prbsSyncLoss .. => true
  | .prbsSingle .. => true
  | .vcatControlPacket .. => true
  | .vcMfAlign .. => true
  | .vcLom .. => true
  | .memberLoaClear .. => true
  | .groupLoa .. => true
  | .sqAccept .. => true
  | .payloadSetChange .. => true
  | .mstFail .. => true
  | .mstOk .. => true
  | .rsAckToggle .. => true
  | .memberRecordWrite .. => true
  | .rsvInitStep .. => true
  | .initFail => true
  | .hdmRead .. => true
  | .hdmWrite _ bs => bs.length = 64
  | .bar4Access x => x.wf
  | .eccUncorrectable .. => true
  | .scrubPass .. => true
  | .tableParityError .. => true
  | .hbmHot .. => true
  | .mapCommitGo .. => true
  | .commitCheckEnd => true
  | .commitTake => true
  | .postCommitCopyEnd => true
  | .mapCommitCancel .. => true
  | .selfRefreshEntry => true
  | .selfRefreshExit => true
  | .vcFrameSignature .. => true
  | .markerMatch .. => true
  | .markerMiss .. => true
  | .sfHoldoffEnd .. => true
  | .wtrEnd .. => true
  | .xcmdClear .. => true
  | .xcmdLo .. => true
  | .xcmdFsP .. => true
  | .xcmdFsW .. => true
  | .xcmdMsP .. => true
  | .xcmdMsW .. => true
  | .psbf .. => true
  | .chMm .. => true
  | .heartbeatReceive msg => decide (msg.length = 64)
  | .partnerLost => true
  | .arbitrateTimeout => true
  | .dualResolve => true
  | .mirrorSend => true
  | .mirrorReceive .. => true
  | .yield => true
  | .yieldTake => true
  | .frameNumberTake => true
  | .gaugeSrst .. => true
  | .gaugeSyncAll => true
  | .gaugeInputEvent .. => true
  | .gaugeOutputSample .. => true
  | .inputLost .. => true
  | .inputBack .. => true
  | .gaCoefDataAccess .. => true
  | .gaugeSwap .. => true
  | .loopLock => true
  | .loopLockLoss => true
  | .refHoldoffEnd => true
  | .refWtrEnd .. => true
  | .timCmdForce .. => true
  | .timCmdManual .. => true
  | .timCmdLockout .. => true
  | .timCmdClear .. => true
  | .timEnable => true
  | .timDisable => true
  | .packetDrop .. => true
  | .headClaim => true
  | .pop .. => true
  | .popDone => true
  | .wqRselWrite .. => true
  | .flush .. => true
  | .packetOpen .. => true
  | .writeWindowWrite .. => true
  | .packetCommit => true
  | .packetAbort => true
  | .wqPeakRead .. => true
  | .watermarkCrossing .. => true
  | .cuStart .. => true
  | .cuDinWrite .. => true
  | .cuFinish .. => true
  | .cuSuspend .. => true
  | .cuAbort .. => true
  | .cuResult .. => true
  | .cuPoisoned .. => true
  | .perstAssert => true
  | .perstDeassert => true
  | .linkDown => true
  | .linkUp .. => true
  | .doeRequest .. => true
  | .msixMessage .. => true
  | .vectorRearm .. => true
  | .msixGapEnd .. => true
  | .doorbell .. => true
  | .commandFetch slot => match slot with | some bs => bs.length = 64 | none => true
  | .completionWrite => true
  | .cplHeadWrite .. => true
  | .deadlineExpire .. => true
  | .nop .. => true
  | .abort .. => true
  | .resync .. => true
  | .attest .. => true
  | .fwLoad .. => true
  | .capsule .. => true
  | .mapCommit .. => true
  | .mapCancel .. => true
  | .protCmd .. => true
  | .guardWrite .. => true
  | .check .. => true
  | .chipReset .. => true
  | .resyncDoorbell => true
  | .ledgerWrite => true
  | .fwVerifyEnd .. => true
  | .keyFuseCmd .. => true
  | .capsuleRecordsWritten => true
  | .ownershipSeal .. => true
  | .mapHashCompute => true
  | .wardenSleep => true
  | .wardenWake .. => true
  | .wardenFail .. => true
  | .restartHoldEnd => true
  | .restartVerifyEnd => true
  | .restartTimeout => true
  | .wardenRestart => true
  | .watchdogKick => true
  | .watchdogExpire => true
  | .watchdogHalfWake => true
  | .wakeTimer => true
  | .jtagInstruction .. => true
  | .railFault .. => true
  | .quietEnd .. => true
  | .graceExpire .. => true
  | .faultAck .. => true
  | .ffRearm => true
  | .faultInject .. => true
  | .injectionEnd .. => true
  | .pwrgoodRise => true
  | .fuseSenseDone .. => true
  | .powerOnReset => true
  | .devChiprst => true
  | .chipResetEntry => true
  | .chipResetEnd => true
  | .devBlkrstHif => true
  | .devBlkrstTim => true
  | .devBlkrstAux => true
  | .devBlkrstMat => true
  | .bkRstIsland .. => true
  | .islandReset .. => true
  | .blockReturn .. => true
  | .staleClear .. => true
  | .l1Entry => true
  | .l1Exit => true
  | .islandOff .. => true
  | .islandOn .. => true
  | .supplyTrip .. => true
  | .supplyClear .. => true
  | .tempTrip .. => true
  | .devTempPeakRead => true
  | .esSlip .. => true
  | .bankPllUnlock .. => true
  | .bwPeakRead => true
  | .latchingRead a => wordAt 4 a.toNat
  | .cdrLoss .. => true
  | .mateLaneUp .. => true
  | .mateLaneDown .. => true
  | .hdmDecoderCommit => true

end Sys2Proof
end

