-- ==== Sys2Proof/Machine/Line.lean ====
section
/-! DEFINITION. The line signal as bytes: bit order, the two scramblers, parity, the Reed-Solomon code, the line frames of
Table 4-2 and their overhead places, the OPU mapping, HDLC, the test patterns and CRCs. Pure functions on bytes; what G.707,
G.709, G.706 and ISO/IEC 13239 define and the spec names is written from those standards. -/

namespace Sys2Proof.Machine

/-! ## Bits -/

/-- The bits of a byte, and of bytes, most significant first, as they are sent. -/
def bitsOf (b : Byte) : List Bool := (List.range 8).map fun k => b.getLsbD (7 - k)
def toBits (bs : List Byte) : List Bool := bs.flatMap bitsOf

/-- The number whose binary digits are the given bits, first the most significant. -/
def bitsNat (bs : List Bool) : Nat := bs.foldl (fun n b => 2 * n + (if b then 1 else 0)) 0

/-- Whole bytes of a bit sequence; bits left over are dropped. -/
def toBytes : List Bool → List Byte
  | a :: b :: c :: d :: e :: f :: g :: h :: t => BitVec.ofNat 8 (bitsNat [a, b, c, d, e, f, g, h]) :: toBytes t
  | _ => []

/-- Every bit inverted (R78). -/
def invert (on : Bool) (bs : List Byte) : List Byte := if on then bs.map (fun b => ~~~b) else bs

/-- The sum of a list of numbers. -/
def sumL (l : List Nat) : Nat := l.foldl (· + ·) 0

/-- The number of ones of the low bits of a number. -/
def ones (n v : Nat) : Nat := ((List.range n).filter fun k => v / 2 ^ k % 2 = 1).length

/-- Differing bits of two bytes. -/
def bitDiff (a b : Byte) : Nat := ones 8 (a ^^^ b).toNat

/-! ## Line frames (Table 4-2) -/

/-- The framing pattern: the last three A1 and first three A2 bytes, or the FAS (R103). -/
def framePattern : BitVec 48 := 0xF6F6F6282828

/-- N of a rate code (Table 3-1). -/
def rateN (r : Nat) : Nat := match r with | 1 => 1 | 2 => 4 | 3 => 16 | 4 => 64 | 5 => 16 | 6 => 64 | _ => 0

/-- Whether a rate code is an OTU rate. -/
def isOtu (r : Nat) : Bool := r = 5 || r = 6

/-- Bytes of an STM-N frame and of an OTU frame; the line frame of a rate code, with 0 for no rate (R103). -/
def stmLen (n : Nat) : Nat := 2430 * n
def otuLen : Nat := 16320
def lineLen (r : Nat) : Nat := if isOtu r then otuLen else match r with | 1 => 2430 | 2 => 9720 | 3 => 38880 | 4 => 155520 | _ => 0

/-- The byte of an STM-N frame at which its pattern begins; an OTU frame begins with its FAS (R103). -/
def patAt (n : Nat) : Nat := 3 * n - 3

/-- A pattern check or a detection is correct when all 48 bits match, after inversion (R104). -/
def patGood (inv : Bool) (bits : BitVec 48) : Bool := (if inv then ~~~bits else bits) = framePattern

/-! ## Scramblers (R118, R119) -/

/-- A byte of scrambler output with the state after it; `tap` gives the feedback bit, the top bit is sent. -/
def scrByte {w : Nat} (tap : BitVec w → Bool) (s : BitVec w) : Byte × BitVec w :=
  (List.range 8).foldl (fun q _ =>
    ((q.1 <<< 1) ||| (if q.2.getLsbD (w - 1) then 1 else 0), (q.2 <<< 1) ||| (if tap q.2 then 1 else 0))) (0, s)

/-- Bytes added to a scrambler's output; adding it twice restores them. -/
def scr {w : Nat} (tap : BitVec w → Bool) : BitVec w → List Byte → List Byte
  | _, [] => []
  | s, b :: t => let q := scrByte tap s; (b ^^^ q.1) :: scr tap q.2 t

/-- The scrambler of G.707, 1 + x^6 + x^7, reset to all ones after the first 9N bytes of an STM-N frame (R118). -/
def tap7 (s : BitVec 7) : Bool := s.getLsbD 6 != s.getLsbD 5
def scrambleStm (n : Nat) (bs : List Byte) : List Byte := bs.take (9 * n) ++ scr tap7 0x7F (bs.drop (9 * n))

/-- The OTU scrambler, 1 + x + x^3 + x^12 + x^16, reset to 0xFFFF at the MFAS byte (R119). -/
def tap16 (s : BitVec 16) : Bool := (s.getLsbD 15 != s.getLsbD 11) != (s.getLsbD 2 != s.getLsbD 0)
def scrambleOtu (bs : List Byte) : List Byte := bs.take 6 ++ scr tap16 0xFFFF (bs.drop 6)

/-! ## Parity -/

/-- BIP-8 of bytes, and BIP-2 from it: odd-numbered and even-numbered bits. -/
def bip8 (bs : List Byte) : Byte := bs.foldl (· ^^^ ·) 0
def bip2 (x : Byte) : Nat :=
  (if ones 8 (x &&& 0xAA).toNat % 2 = 1 then 2 else 0) + (if ones 8 (x &&& 0x55).toNat % 2 = 1 then 1 else 0)

/-- Row and column of a byte of an STM-N frame. -/
def stmRow (n i : Nat) : Nat := i / (270 * n)
def stmCol (n i : Nat) : Nat := i % (270 * n)

/-- A byte of the regenerator section overhead: rows 1 to 3 of the first 9N columns. -/
def inRsoh (n i : Nat) : Bool := decide (stmRow n i < 3) && decide (stmCol n i < 9 * n)

/-- BIP-24N over all of an STM-N frame but its regenerator section overhead, byte by byte (B2). -/
def bip24 (n : Nat) (bs : List Byte) : List Byte :=
  let ks := bs.zipIdx.map fun q => if inRsoh n q.2 then 0 else q.1
  (List.range 810).foldl (fun acc k => List.zipWith (· ^^^ ·) acc ((ks.drop (3 * n * k)).take (3 * n) ++ List.replicate (3 * n) 0))
    (List.replicate (3 * n) 0)

/-- The byte of an STM-N frame at row `r` (from 0) and column `j`. -/
def stmByte (n r j : Nat) (bs : List Byte) : Byte := bs.getD (270 * n * r + j) 0

/-- The D bytes of the RS and MS DCC of position 0, in order of transmission (R169). -/
def dccBytes (n : Nat) (ms : Bool) (bs : List Byte) : List Byte :=
  (if ms then [5, 6, 7] else [2]).flatMap fun r => [0, 3 * n, 6 * n].map fun j => stmByte n r j bs

/-- The received MS-REI: M1, or M0 and M1 on STM-64 (Table 5-6). -/
def stmRei (n : Nat) (bs : List Byte) : Nat :=
  (stmByte n 8 (3 * n + 2) bs).toNat + (if n = 64 then (stmByte n 8 (3 * n + 1) bs).toNat * 256 else 0)

/-- The two SS bits of the first H1 byte of position 0 (R90, R92). -/
def stmSs (n : Nat) (bs : List Byte) : Fin 4 := ((stmByte n 3 0 bs).extractLsb' 2 2).toFin

/-! ## Reed-Solomon code RS(255,239) of G.709 -/

/-- The field of 256 elements, x^8 + x^4 + x^3 + x^2 + 1, with x as its primitive element. -/
def gfDouble (a : Nat) : Nat := if a < 128 then 2 * a else (2 * a) ^^^ 0x11D
def gfMul (a b : Nat) : Nat :=
  ((List.range 8).foldl (fun (q : Nat × Nat) i => (if b / 2 ^ i % 2 = 1 then q.1 ^^^ q.2 else q.1, gfDouble q.2)) (0, a)).1
def gfPow (a : Nat) : Nat → Nat | 0 => 1 | n + 1 => gfMul a (gfPow a n)
def gfInv (a : Nat) : Nat := gfPow a 254

/-- Polynomials, lowest degree first: value at a point, sum, product by a monomial, product. -/
def polyAt (p : List Nat) (x : Nat) : Nat := p.foldr (fun a r => a ^^^ gfMul x r) 0
def polyAdd (p q : List Nat) : List Nat := (List.range (max p.length q.length)).map fun i => p.getD i 0 ^^^ q.getD i 0
def polyScale (a k : Nat) (p : List Nat) : List Nat := List.replicate k 0 ++ p.map (gfMul a)
def polyMul (p q : List Nat) : List Nat := (p.zipIdx.map fun t => polyScale t.1 t.2 q).foldl polyAdd []

/-- The generator polynomial, the product of z − x^i for i from 0 to 15. -/
def rsGen : List Nat := (List.range 16).foldl (fun g i => polyMul g [gfPow 2 i, 1]) [1]

/-- The 16 parity symbols of 239 information symbols, first the highest degree (R124). -/
def rsParity (msg : List Nat) : List Nat :=
  let g := (rsGen.take 16).reverse
  msg.foldl (fun r m => let f := m ^^^ r.headD 0; List.zipWith (fun a b => a ^^^ gfMul f b) (r.drop 1 ++ [0]) g) (List.replicate 16 0)

/-- The syndromes of a received word of 255 symbols, first the highest degree. -/
def rsSyndromes (w : List Nat) : List Nat := (List.range 16).map fun i => polyAt w.reverse (gfPow 2 i)

/-- The error locator of a syndrome list: the shortest recurrence that it obeys, and its length. -/
def rsLocator (s : List Nat) : List Nat × Nat :=
  let r := (List.range 16).foldl (fun (q : List Nat × List Nat × Nat × Nat × Nat) n =>
    let (lam, prev, len, gap, b) := q
    let d := (List.range (len + 1)).foldl (fun a i => a ^^^ gfMul (lam.getD i 0) (if i ≤ n then s.getD (n - i) 0 else 0)) 0
    if d = 0 then (lam, prev, len, gap + 1, b)
    else
      let next := polyAdd lam (polyScale (gfMul d (gfInv b)) gap prev)
      if 2 * len ≤ n then (next, lam, n + 1 - len, 1, d) else (next, prev, len, gap + 1, b)) ([1], [1], 0, 1, 1)
  (r.1, r.2.2.1)

/-- A received word corrected, where at most 8 symbols are in error; none where it is uncorrectable (R122). -/
def rsDecode (w : List Nat) : Option (List Nat) :=
  let s := rsSyndromes w
  if s.all (· = 0) then some w
  else
    let q := rsLocator s
    let ev := (polyMul s q.1).take 16
    let der := (List.range q.1.length).map fun i => if i % 2 = 0 then q.1.getD (i + 1) 0 else 0
    let fixed := w.zipIdx.map fun t =>
      let x := gfPow 2 (254 - t.2)
      let xi := gfInv x
      if polyAt q.1 xi = 0 then t.1 ^^^ gfMul x (gfMul (polyAt ev xi) (gfInv (polyAt der xi))) else t.1
    let wrong := (List.zipWith (fun a b => a != b) w fixed).countP id
    if q.2 ≤ 8 ∧ wrong = q.2 ∧ (rsSyndromes fixed).all (· = 0) then some fixed else none

/-- Codeword `k` of an OTU row: its bytes at columns k, k + 16, … (16 byte-interleaved codewords per row). -/
def rowWord (row : List Byte) (k : Nat) : List Nat := (List.range 255).map fun i => (row.getD (16 * i + k) 0).toNat

/-- What decoding one OTU row finds: the row corrected, ones corrected to zeros, zeros corrected to ones, and uncorrectable
codewords (R122, R124). -/
def rowDecode (row : List Byte) : List Byte × Nat × Nat × Nat :=
  let ws := (List.range 16).map fun k => let w := rowWord row k; (w, rsDecode w)
  let out := ws.map fun q => q.2.getD q.1
  let cnt (f : Nat → Nat → Nat) := sumL (ws.map fun q => sumL (List.zipWith f q.1 (q.2.getD q.1)))
  ((List.range 4080).map fun i => BitVec.ofNat 8 ((out.getD (i % 16) []).getD (i / 16) 0),
    cnt fun a b => ones 8 (a &&& (a ^^^ b)), cnt fun a b => ones 8 (b &&& (a ^^^ b)), ws.countP fun q => q.2.isNone)

/-- A row of 3,824 bytes with its 256 parity bytes, or with zeros (R124). -/
def rowEncode (on : Bool) (row : List Byte) : List Byte :=
  let ps := (List.range 16).map fun k => if on then rsParity ((List.range 239).map fun i => (row.getD (16 * i + k) 0).toNat) else []
  row ++ (List.range 256).map fun i => BitVec.ofNat 8 ((ps.getD (i % 16) []).getD (i / 16) 0)

/-! ## OTU frames (Table 5-5) -/

/-- The byte of an OTU frame at row `r` and column `j`, both from 1 as G.709 numbers them. -/
def otuByte (r j : Nat) (bs : List Byte) : Byte := bs.getD (4080 * (r - 1) + (j - 1)) 0

/-- The OPU area, columns 15 to 3,824 of each row, over which SM and PM BIP-8 are taken. -/
def opuArea (bs : List Byte) : List Byte := (List.range 4).flatMap fun r => (bs.drop (4080 * r + 14)).take 3810

/-- An OTU frame after the FEC decoder in receive mode `m`: 0 ignores the FEC area, 1 corrects, 2 only counts (R122). -/
def otuFec (m : Nat) (bs : List Byte) : List Byte × Nat × Nat × Nat :=
  if m = 0 then (bs, 0, 0, 0)
  else
    let rs := (List.range 4).map fun r => rowDecode ((bs.drop (4080 * r)).take 4080)
    (if m = 1 then rs.flatMap (·.1) else bs, sumL (rs.map (·.2.1)), sumL (rs.map (·.2.2.1)), sumL (rs.map (·.2.2.2)))

/-- The justification control of an OTU frame: the two JC bits that at least two of the three JC bytes carry; with no two
alike, no justification (R125). -/
def jcMajority (bs : List Byte) : Nat :=
  let v r := (otuByte r 16 bs).toNat % 4
  if v 1 = v 2 ∨ v 1 = v 3 then v 1 else if v 2 = v 3 then v 2 else 0

/-- The client bytes of an OTU frame: the payload columns 17 to 3,824 in order, with the fixed stuff columns 1,905 to 1,920
of OPU2 left out; NJO is data under JC 0b01, PJO is not data under JC 0b11 (R125, G.709). -/
def demapOpu (otu2 : Bool) (bs : List Byte) : List Byte :=
  let jc := jcMajority bs
  let cols r (l : List Byte) := l.zipIdx.filterMap fun q =>
    let j := q.2 + 17
    if (otu2 && decide (1905 ≤ j ∧ j ≤ 1920)) || (r = 4 && j = 17 && jc = 3) then none else some q.1
  [1, 2, 3, 4].flatMap fun r =>
    (if r = 4 ∧ jc = 1 then [otuByte 4 16 bs] else []) ++ cols r ((bs.drop (4080 * (r - 1) + 16)).take 3808)

/-- Client bytes that one OTU frame carries without justification. -/
def opuRoom (otu2 : Bool) : Nat := if otu2 then 4 * 3792 else 4 * 3808

/-- The overhead an OTU frame carries on transmit: MFAS, the SM and PM fields, PT and STAT (Table 5-5). -/
structure OtuOh where
  mfas : Nat
  sm : List Byte
  pm : List Byte
  psi : Byte
  deriving DecidableEq, Repr

/-- An OTU frame with JC 0b00 and no justification, its unused overhead zero, its FEC area as FEC_TX says, scrambled
(R119, R124, R125, Table 5-5). -/
def otuFrame (otu2 fec : Bool) (h : OtuOh) (client : List Byte) : List Byte :=
  let oh : Nat → List Byte
    | 1 => [0xF6, 0xF6, 0xF6, 0x28, 0x28, 0x28, BitVec.ofNat 8 h.mfas] ++ h.sm ++ List.replicate 6 0
    | 3 => List.replicate 9 0 ++ h.pm ++ List.replicate 4 0
    | 4 => List.replicate 14 0 ++ [h.psi, 0]
    | _ => List.replicate 16 0
  let w := if otu2 then 3792 else 3808
  let pay r := let l := (client.drop (w * (r - 1))).take w
    if otu2 then l.take 1888 ++ List.replicate 16 0 ++ l.drop 1888 else l
  scrambleOtu ([1, 2, 3, 4].flatMap fun r => rowEncode fec ((oh r ++ pay r ++ List.replicate 3824 0).take 3824))

/-! ## STM-N frames on transmit (Table 5-2) -/

/-- The section overhead an STM-N frame carries on transmit. -/
structure StmOh where
  j0 : Byte
  b1 : Byte
  b2 : List Byte
  k1 : Byte
  k2 : Byte
  s1 : Byte
  rei : Nat
  rs : List Byte
  ms : List Byte
  ais : Bool
  deriving DecidableEq, Repr

/-- Byte `j` of section overhead row `r`; `au` is the pointer row. -/
def stmOh (n : Nat) (h : StmOh) (au : Nat → Byte) (r j : Nat) : Byte :=
  let at3 (l : List Byte) (k : Nat) : Byte := if j = 0 then l.getD k 0 else if j = 3 * n then l.getD (k + 1) 0 else if j = 6 * n then l.getD (k + 2) 0 else 0
  match r with
  | 0 => if j < 3 * n then 0xF6 else if j < 6 * n then 0x28 else if j = 6 * n then h.j0 else 0
  | 1 => if j = 0 then h.b1 else 0
  | 2 => at3 h.rs 0
  | 3 => au j
  | 4 => if j < 3 * n then h.b2.getD j 0 else if j = 3 * n then h.k1 else if j = 6 * n then h.k2 else 0
  | 8 => if j = 0 then h.s1 else if j = 3 * n + 2 then BitVec.ofNat 8 h.rei
         else if n = 64 ∧ j = 3 * n + 1 then BitVec.ofNat 8 (h.rei / 256) else 0
  | r => at3 h.ms (3 * (r - 5))

/-- An STM-N frame before scrambling; under MS-AIS every byte after the RSOH is all-ones. `pay r j` is the payload byte. -/
def stmFrame (n : Nat) (h : StmOh) (au : Nat → Byte) (pay : Nat → Nat → Byte) : List Byte :=
  (List.range 9).flatMap fun r => (List.range (270 * n)).map fun j =>
    if h.ais ∧ ¬(r < 3 ∧ j < 9 * n) then 0xFF else if j < 9 * n then stmOh n h au r j else pay r (j - 9 * n)

/-! ## HDLC (R170, R171) -/

/-- An HDLC decoder: ones in a row, the bits of the frame in progress since its opening flag (none before a flag), and the
frames that have ended, with whether each is bad. -/
structure Hdlc where
  ones : Nat := 0
  open_ : Option (List Bool) := none
  done : List (List Byte × Bool) := []
  deriving DecidableEq, Repr

/-- A frame's bits, flag included: what is left is whole octets, least significant bit first, or bad. -/
def octetsLsb : List Bool → List Byte
  | a :: b :: c :: d :: e :: f :: g :: h :: t => BitVec.ofNat 8 (bitsNat [h, g, f, e, d, c, b, a]) :: octetsLsb t
  | _ => []

/-- One received bit: the zero after five ones is deleted, six ones and a zero are a flag, seven ones an abort (R170). -/
def Hdlc.bit (h : Hdlc) (b : Bool) : Hdlc :=
  if b then
    if h.ones = 6 then
      { ones := 7, open_ := none, done := match h.open_ with | some l => h.done ++ [(octetsLsb l, true)] | none => h.done }
    else { h with ones := h.ones + 1, open_ := h.open_.map (· ++ [true]) }
  else if h.ones = 5 then { h with ones := 0 }
  else if h.ones = 6 then
    { ones := 0, open_ := some []
      done := match h.open_ with
        | some l => let body := l.take (l.length - 7)
                    if l.length ≤ 7 then h.done else h.done ++ [(octetsLsb body, decide (body.length % 8 ≠ 0))]
        | none => h.done }
  else { h with ones := 0, open_ := h.open_.map (· ++ [false]) }

/-- A decoder that stops: a frame in progress ends as bad (R170). -/
def Hdlc.stop (h : Hdlc) : Hdlc :=
  { open_ := none, done := match h.open_ with | some l => if l.length ≤ 7 then h.done else h.done ++ [(octetsLsb l, true)] | none => h.done }

/-- A zero inserted after five ones in a row (R171). -/
def stuffBits : Nat → List Bool → List Bool
  | _, [] => []
  | n, true :: t => if n = 4 then true :: false :: stuffBits 0 t else true :: stuffBits (n + 1) t
  | _, false :: t => false :: stuffBits 0 t

/-- The flag 0x7E, and a frame's bits with zeros inserted and a flag after it (R171). -/
def hdlcFlag : List Bool := [false, true, true, true, true, true, true, false]
def hdlcBits (octets : List Byte) : List Bool := stuffBits 0 (octets.flatMap fun b => (bitsOf b).reverse) ++ hdlcFlag

/-! ## Test patterns (Table 6-9, R203) -/

/-- Length and second tap of a pattern's register; 0 for the constant patterns. -/
def patTaps (code : Nat) : Nat × Nat :=
  match code with | 0 => (9, 5) | 1 => (11, 9) | 2 => (15, 14) | 3 => (20, 17) | 4 => (23, 18) | 5 => (31, 28) | _ => (0, 0)

/-- The next bit of a pattern from the register of its last bits, newest lowest, and the register after it. -/
def patNext (code : Nat) (reg : Nat) : Bool × Nat :=
  if code = 6 then (true, reg) else if code = 7 then (false, reg)
  else
    let t := patTaps code
    let b := (reg / 2 ^ (t.1 - 1) % 2 = 1) != (reg / 2 ^ (t.2 - 1) % 2 = 1)
    (b, (2 * reg + (if b then 1 else 0)) % 2 ^ t.1)

/-! ## CRCs -/

/-- The remainder of a bit sequence by a generator of degree `w`, its lower coefficients in `poly`. -/
def crcBits (w poly : Nat) (init : Nat) (bs : List Bool) : Nat :=
  bs.foldl (fun r b => let t := (r / 2 ^ (w - 1) % 2 = 1) != b; (r * 2 % 2 ^ w) ^^^ (if t then poly else 0)) init

/-- CRC-4 of a sub-multiframe, x^4 + x + 1 (G.706). -/
def crc4 (bs : List Bool) : Nat := crcBits 4 3 0 bs

/-- The CRC-7 of G.707 over a 16-byte trace, polynomial x^7 + x^3 + 1, its own seven bits counting as zero. -/
def crc7 (bs : List Byte) : Nat := crcBits 7 9 0 (toBits (match bs with | [] => [] | b :: t => (b &&& 0x80) :: t))

/-! ## Traces (R147) -/

/-- A trace receiver: the bytes of the period in progress, and the last complete trace with how many periods in a row
carried it. -/
structure TraceRx where
  buf : List Byte := []
  last : List Byte := []
  run : Nat := 0
  deriving DecidableEq, Repr

/-- A complete trace arrived. -/
def TraceRx.whole (x : TraceRx) (bs : List Byte) : TraceRx :=
  { buf := [], last := bs, run := if x.last = bs then x.run + 1 else 1 }

/-- A period that carried no complete trace. -/
def TraceRx.broken (x : TraceRx) (buf : List Byte) : TraceRx := { x with buf := buf, run := 0 }

/-- A byte of a 16-byte trace, aligned on the byte whose bit 1 is 1 and checked by its CRC-7, or of a 64-byte trace, aligned
so that it ends with 0x0D 0x0A (R147). -/
def TraceRx.byte (len64 : Bool) (x : TraceRx) (b : Byte) : TraceRx :=
  if len64 then
    let l := x.buf ++ [b]
    if l.drop (l.length - 2) = [0x0D, 0x0A] then (if l.length = 64 then x.whole l else x.broken [])
    else if 64 ≤ l.length then x.broken (l.drop 1) else { x with buf := l }
  else if b.getLsbD 7 then (if x.buf = [] then { x with buf := [b] } else x.broken [b])
  else if x.buf = [] then x.broken []
  else
    let l := x.buf ++ [b]
    if l.length < 16 then { x with buf := l }
    else if crc7 l = (l.headD 0).toNat % 128 then x.whole l else x.broken []

/-- A byte of an SM TTI, byte i in the OTU frame whose MFAS mod 64 is i (R147). -/
def TraceRx.smByte (x : TraceRx) (mfas : Nat) (b : Byte) : TraceRx :=
  let i := mfas % 64
  if i = 0 then (if x.buf = [] then { x with buf := [b] } else x.broken [b])
  else if x.buf.length = i then (if i = 63 then x.whole (x.buf ++ [b]) else { x with buf := x.buf ++ [b] })
  else x.broken []

/-- A trace as it is sent: for 16 bytes the CRC-7 in byte 0, whose bit 1 is 1, and bit 1 of the others 0 (R150). -/
def traceSent (len64 : Bool) (bs : List Byte) : List Byte :=
  if len64 then bs
  else
    let t := (bs.drop 1).map fun b => b &&& 0x7F
    BitVec.ofNat 8 (128 + crc7 (0x80 :: t)) :: t

end Sys2Proof.Machine
end

