-- ==== Sys2Proof/Config.lean ====
section
/-! DEFINITION. What the spec fixes elsewhere or leaves open: opaque functions with no body. Nothing can be proved of
their values, so a statement holds whatever they are. Each is named in the assumption log. -/

namespace Sys2Proof.Config

open Sys2Proof

/-- SHA3-256 of FIPS 202, named and not given by the spec (R411, R412, R429): bytes to a 256-bit digest. -/
opaque sha3 : List Byte → BitVec 256

/-- ML-DSA-44 verification of FIPS 204 (R412): public key, context, message, signature. -/
opaque mldsaVerify : List Byte → List Byte → List Byte → List Byte → Bool

/-- The public key that ML-DSA.KeyGen_internal derives from the seed (R411). -/
opaque mldsaPublic : BitVec 256 → List Byte

/-- An ML-DSA signature made under the seed's private key, over a context and a message; the counter stands for the
hedging randomness (R412). -/
opaque mldsaSign : BitVec 256 → List Byte → List Byte → Nat → List Byte

/-- A free value of the model: a number the spec leaves open, drawn afresh for each value of the counter. -/
opaque freeNat : Nat → Nat

/-- A free 32-bit value: an undefined or unstated register content (CU_VAL after an ABORT, R377; the loop's steering of
D07, R325). -/
opaque freeWord : Nat → Word

/-- Free random bytes drawn by the crypto engine (KEY_BOOT_ID, section 14.6). -/
opaque freeBootId : Nat → BitVec 128

/-- The unit's serial number, per unit and not given by the spec (Table 18-5). -/
opaque serial : BitVec 64

/-- The device's own PCI Vendor ID, which the spec names and does not give (R386). -/
opaque vendorId : BitVec 16

/-- The identity seed fused at the factory (Table 14-1). -/
opaque idSeed : BitVec 256

/-- The Ronorok firmware-signing key hashes fused at the factory (R11, Table 14-1). -/
opaque fwkHash : Nat → BitVec 256

end Sys2Proof.Config
end

