-- ==== Sys2Proof/Machine/Sparse.lean ====
section
/-! DEFINITION. Sparse maps as plain data: a list of key and value pairs, keys rising, no entry equal to what an
unlisted key reads as. Registers, table words, the HBM's bytes and every per-instance record are held this way, so that
equal contents are equal data. -/

namespace Sys2Proof.Machine

/-- A sparse map from a number to a value. -/
abbrev SMap (α : Type) := List (Nat × α)

/-- What the key `k` reads as; `d` says what an unlisted key reads as. -/
def Sparse.get {α : Type} (d : Nat → α) : SMap α → Nat → α
  | [], k => d k
  | (k', v) :: m, k => if k = k' then v else Sparse.get d m k

/-- The map without its entries at `k`. -/
def Sparse.drop {α : Type} (k : Nat) : SMap α → SMap α
  | [] => []
  | (k', v) :: m => if k = k' then Sparse.drop k m else (k', v) :: Sparse.drop k m

/-- The entry put at its place in the order of the keys. -/
def Sparse.ins {α : Type} (k : Nat) (v : α) : SMap α → SMap α
  | [] => [(k, v)]
  | (k', v') :: m => if k < k' then (k, v) :: (k', v') :: m else (k', v') :: Sparse.ins k v m

/-- The map with `v` at `k`; writing what an unlisted key reads as removes the entry. -/
def Sparse.put {α : Type} [DecidableEq α] (d : Nat → α) (m : SMap α) (k : Nat) (v : α) : SMap α :=
  if v = d k then Sparse.drop k m else Sparse.ins k v (Sparse.drop k m)

/-- The map with `f` applied at `k`. -/
def Sparse.upd {α : Type} [DecidableEq α] (d : Nat → α) (m : SMap α) (k : Nat) (f : α → α) : SMap α :=
  Sparse.put d m k (f (Sparse.get d m k))

/-- The map with every key of [`lo`, `hi`) back at what an unlisted key reads as. -/
def Sparse.clear {α : Type} (lo hi : Nat) : SMap α → SMap α
  | [] => []
  | (k, v) :: m => if lo ≤ k ∧ k < hi then Sparse.clear lo hi m else (k, v) :: Sparse.clear lo hi m

/-- The listed entries of [`lo`, `hi`). -/
def Sparse.range {α : Type} (lo hi : Nat) : SMap α → SMap α
  | [] => []
  | (k, v) :: m => if lo ≤ k ∧ k < hi then (k, v) :: Sparse.range lo hi m else Sparse.range lo hi m

/-- The canonical form: keys strictly rising from `lo` on, no entry equal to the unlisted reading. -/
def Sparse.wfFrom {α : Type} [DecidableEq α] (d : Nat → α) : Nat → SMap α → Bool
  | _, [] => true
  | lo, (k, v) :: m => decide (lo ≤ k) && decide (v ≠ d k) && Sparse.wfFrom d (k + 1) m

/-- The canonical form of a whole map. -/
def Sparse.wf {α : Type} [DecidableEq α] (d : Nat → α) (m : SMap α) : Bool := Sparse.wfFrom d 0 m

end Sys2Proof.Machine
end

