-- ==== Sys2Proof/Machine/RegMap.lean ====
section
/-! DEFINITION. The register pages of the ILS9600 (Page Directory; the page maps of every chapter): for each register
its offset, its reset value and which of its bits are of which kind (Table 2-9). Bits of no kind are RV. -/

namespace Sys2Proof.Machine

/-- The page types of Table 18-1. -/
inductive PageKind where
  | dev | lev | spw | hif | wrd | key | rsv | slu | cu | ga | wq | tim | snp | tst | bk | pe
  deriving DecidableEq, Repr

/-- The page at a slot; slots 0x16–0x1F are unassigned (R35). -/
def pageKind (slot : Nat) : Option PageKind :=
  if slot = 0 then some .dev else if slot = 1 then some .lev
  else if slot ≤ 3 then some .spw else if slot = 4 then some .hif
  else if slot = 5 then some .wrd else if slot = 6 then some .key
  else if slot = 7 then some .rsv else if slot = 8 then some .slu
  else if slot = 9 then some .cu else if slot ≤ 0xB then some .ga
  else if slot = 0xC then some .wq else if slot = 0xD then some .tim
  else if slot = 0xE then some .snp else if slot = 0xF then some .tst
  else if slot ≤ 0x15 then some .bk else if slot < 0x20 then none
  else if slot < 0x80 then some .pe else none

/-- TYPE, INST and NREG of a slot's PG_ID, with LAYOUT 0x01 (Table 2-4, Table 18-1). -/
def pageId (slot : Nat) : Word :=
  let f (t i n : Nat) : Word := BitVec.ofNat 32 (t * 0x1000000 + i * 0x10000 + 0x100 + n)
  match pageKind slot with
  | some .dev => f 0x00 0 0x20
  | some .lev => f 0x01 0 0x60
  | some .spw => f 0x02 (slot - 2) 0xA0
  | some .hif => f 0x04 0 0x60
  | some .wrd => f 0x05 0 0x40
  | some .key => f 0x06 0 0x20
  | some .rsv => f 0x07 0 0x60
  | some .slu => f 0x08 0 0x80
  | some .cu => f 0x09 0 0x00
  | some .ga => f 0x0A (slot - 0xA) 0xC0
  | some .wq => f 0x0C 0 0xC0
  | some .tim => f 0x0D 0 0x40
  | some .snp => f 0x0E 0 0x20
  | some .tst => f 0x0F 0 0x30
  | some .bk => f 0x10 (slot - 0x10) 0x30
  | some .pe => f 0x20 (slot - 0x20) 0x2F
  | none => 0

/-- One row of a page map: `cnt` registers at `off`, `off + stride`, …; register number n resets to `reset + n × step`.
The masks give the bits of each kind of Table 2-9; `cmd` are the self-clearing command bits (R69), `elig` the
fallback-eligible bits (R52), `zero` the stored bits that read zero. -/
structure Row where
  off : Nat
  cnt : Nat := 1
  stride : Nat := 4
  reset : Word := 0
  step : Word := 0
  cf : Word := 0
  ct : Word := 0
  lv : Word := 0
  ev : Word := 0
  cn : Word := 0
  hd : Word := 0
  gd : Word := 0
  ro : Word := 0
  cmd : Word := 0
  elig : Word := 0
  zero : Word := 0
  deriving DecidableEq, Repr

def all32 : Word := 0xFFFFFFFF

def rowCF (off : Nat) (m reset : Word) (cnt : Nat := 1) (stride : Nat := 4) (step : Word := 0) : Row :=
  { off, cnt, stride, reset, step, cf := m }
def rowLV (off : Nat) (m : Word) (cnt : Nat := 1) (reset : Word := 0) (stride : Nat := 4) : Row :=
  { off, cnt, stride, reset, lv := m }
def rowEV (off : Nat) (m : Word) (cnt : Nat := 1) : Row := { off, cnt, ev := m }
def rowCN (off : Nat) (cnt : Nat := 1) : Row := { off, cnt, cn := all32 }
def rowRO (off : Nat) (v : Word) : Row := { off, reset := v, ro := all32 }

/-- The common registers (Tables 2-3 to 2-7); PG_ID is filled in from the slot. -/
def rowsCommon : List Row :=
  [ { off := 0x000, ro := all32 },
    { off := 0x004, reset := 4, cf := 0x7, lv := 0x100, cmd := 0x2 },
    { off := 0x008, reset := 2, lv := 0x3, ev := 0xF00 },
    { off := 0x00C, ev := 0x1FFFF },
    { off := 0x010, ro := all32 } ]

/-- The guarded-fallback registers (Table 2-10, Table 2-11). -/
def rowsGrd : List Row :=
  [ rowCF 0x030 0xFFC 0,
    { off := 0x034, cf := all32, zero := all32 },
    { off := 0x038, cf := all32, zero := all32 },
    { off := 0x03C, lv := 0x103, ev := 0xFC } ]

/-- Table 18-5. -/
def rowsDev : List Row :=
  [ rowCF 0x040 all32 0 8,
    rowRO 0x200 0x960000A1,
    rowRO 0x204 (Config.serial.extractLsb' 0 32), rowRO 0x208 (Config.serial.extractLsb' 32 32),
    rowLV 0x20C 0xF,
    rowRO 0x210 0x003FFFFF, rowRO 0x214 all32, rowRO 0x218 all32, rowRO 0x21C all32,
    rowLV 0x220 0xFF 3,
    rowEV 0x400 0x3, rowCF 0x404 0x3 0,
    { off := 0xB00, gd := 0x1, lv := 0x100, cmd := 0x1 },
    { off := 0xB04, gd := 0xF, lv := 0x100, cmd := 0xF, elig := 0xF } ]

/-- 16.8 and Table 16-6. -/
def rowsLev : List Row :=
  [ rowCF 0x040 0xFFFF0003 0x00400000, rowCF 0x044 0x1 1,
    rowLV 0x200 0x3FFF, rowLV 0x204 0x1FFF 1 1, rowLV 0x208 all32 2,
    rowLV 0x210 all32 3, rowLV 0x21C all32 3, rowLV 0x228 0x0FFFFFFF,
    rowLV 0x22C 0x7 1 1, rowLV 0x230 0x3F, rowLV 0x234 0x3, rowLV 0x238 0xFF 1 0xFF,
    rowLV 0x23C 0xFFFFFF0F, rowLV 0x240 0xFFFF 13,
    rowEV 0x400 0xF, rowCF 0x404 0xF 0, rowEV 0x408 all32 3, rowCF 0x414 all32 0 3,
    rowCN 0x500 11,
    rowCF 0xB00 all32 0 3,
    { off := 0xB0C, reset := 0x77, gd := 0xFFFF }, { off := 0xB10, gd := all32 },
    rowCF 0xB20 all32 0x88888888 12,
    { off := 0xB80 }, rowCF 0xB84 0xFF01 0x400 12 ]

/-- 15.10 and Table 15-5. -/
def rowsSpw : List Row :=
  [ rowCF 0x040 0x10F 2,
    { off := 0x080, reset := 5, ct := 0x3F }, { off := 0x088, cnt := 7, stride := 8, ct := 0x3F },
    { off := 0x084, cnt := 8, stride := 8, reset := 0x00400000, ct := all32 },
    { off := 0x0C0, cnt := 16, ct := 0x77777777 },
    rowLV 0x200 all32 16, rowLV 0x240 0x00FF0FFF, rowLV 0x244 all32 2, rowLV 0x24C 0x3,
    rowLV 0x250 0xFFFF, rowLV 0x254 0x31F, rowLV 0x258 0x103FF, rowLV 0x260 all32 4,
    rowLV 0x270 0x3FF, rowLV 0x274 all32, rowLV 0x278 0x1FF,
    rowEV 0x400 all32 4, rowEV 0x410 0x1F, rowCF 0x414 0x1F 0,
    rowCN 0x500 5,
    { off := 0xB00, cnt := 4, gd := all32, cmd := all32, elig := all32 },
    { off := 0xB10, gd := 0x1, cmd := 0x1, elig := 0x1 },
    { off := 0xB14, cf := 0x00FF077F, lv := 0x01000000, cmd := 0x100 },
    rowCF 0xB18 0x7F 0, rowLV 0xB1C 0xFFFF0007, rowCN 0xC00 64 ]

/-- Table 13-10, Table 13-11; the MSI-X table and the pending-bit array follow PCI Express (R407). -/
def rowsHif : List Row :=
  [ rowCF 0x040 0x7 4, rowCF 0x044 0xFFFF 0x1F40, rowCF 0x048 0xFFFF 0,
    rowCF 0x04C all32 0 4,
    rowLV 0x200 0x1FF, rowLV 0x204 0x7, rowLV 0x208 0xFF07, rowLV 0x20C 0x7,
    rowLV 0x210 0x3FFF 1 0x1000, rowLV 0x214 0x7FF 2, rowLV 0x21C all32 2, rowLV 0x224 0x13FF,
    rowLV 0x228 0xFFFFFF 2, rowLV 0x230 all32 2, rowLV 0x238 0xFFFF, rowLV 0x280 all32 32,
    rowEV 0x400 0x7FF, rowCF 0x404 0x7FF 0, rowEV 0x410 all32 4,
    rowCN 0x500 13,
    rowCF 0xB00 0x7FF 0 2,
    { off := 0xB08, cf := 0x1, lv := 0x2, cmd := 0x1 },
    { off := 0xB0C, cnt := 2, cf := all32, cmd := all32 },
    rowLV 0xB80 all32 2,
    rowCF 0xC00 0xFFFFFFFC 0 64 16, rowCF 0xC04 all32 0 64 16, rowCF 0xC08 all32 0 64 16, rowCF 0xC0C 1 1 64 16 ]

/-- Table 14-15 with Table 14-16, the WRD page. -/
def rowsWrd : List Row :=
  [ rowCF 0x040 0x3 3, rowCF 0x044 0x1 1,
    rowLV 0x200 0x377, rowLV 0x204 all32, rowLV 0x208 0xFF07, rowLV 0x20C all32, rowLV 0x210 0x1FF,
    rowLV 0x214 0x80FFFFFF, rowLV 0x218 0x7FF, rowLV 0x220 all32 28,
    rowEV 0x400 0x3F, rowCF 0x404 0x3F 0, rowCN 0x500 9,
    { off := 0xB00, cnt := 2, cf := 0x1, lv := 0x100, cmd := 0x1 } ]

/-- The KEY page. -/
def rowsKey : List Row :=
  [ rowLV 0x200 0xFF, rowLV 0x204 0x3, rowLV 0x208 0x7F, rowLV 0x220 all32 12,
    rowEV 0x400 0x1F, rowCF 0x404 0x1F 0, rowCN 0x500 3,
    { off := 0xB00, cnt := 2, ct := all32 },
    { off := 0xB08, cf := 0x007F000F, lv := 0x100, cmd := 0x1 }, rowLV 0xB0C 0x0001FF03 ]

/-- 8.10, Tables 8-11 to 8-14. -/
def rowsRsv : List Row :=
  [ rowCF 0x040 0x3FF 0x308, rowCF 0x044 0x1FFFF 0x10400, rowCF 0x048 all32 0x10040,
    rowLV 0x200 0x3FF, rowLV 0x204 0xFF1F, rowLV 0x208 0x3FFF, rowLV 0x20C 0x3FFFF,
    rowLV 0x210 all32 4, rowLV 0x220 all32 1 0x1C000000, rowLV 0x224 all32 8, rowLV 0x244 0x3,
    rowLV 0x248 0xFFFF, rowLV 0x24C 0x7FFFFF, rowLV 0x250 all32, rowLV 0x254 0xFFFF, rowLV 0x258 0x3FF,
    rowLV 0x280 all32 16,
    rowEV 0x400 0xFFF, rowCF 0x404 0xFFF 0, rowEV 0x408 0x3F, rowCF 0x40C 0x3F 0,
    rowCN 0x500 15,
    rowCF 0xB00 0xF 0, rowCF 0xB04 0x1F 0,
    { off := 0xB10, gd := 0xFF, cmd := 0x81 }, { off := 0xB14, cnt := 2, gd := all32 },
    { off := 0xB1C, gd := 0x1, elig := 0x1 },
    rowCF 0xB20 0xFFFFF 0, rowLV 0xB24 0x1FFFFFFF, rowLV 0xB28 0x1FFF, rowLV 0xB2C 0x7FF, rowLV 0xB30 0xFF07 ]

/-- 9.9, Table 9-13. -/
def rowsSlu : List Row :=
  [ rowCF 0x040 0x7F 0x23, rowCF 0x044 0x1FFF3F 0x1F4038,
    rowLV 0x200 0xFFF, rowLV 0x204 0x7FFF7FFF, rowLV 0x280 0x3FFFFF 48,
    rowEV 0x400 0x1FFF, rowCF 0x404 0x1FFF 0, rowEV 0x408 all32, rowEV 0x40C 0xFFFF,
    rowCN 0x500 5,
    { off := 0xB00, gd := 0xFFFDF, cmd := 0x1 }, rowLV 0xB04 0xFF,
    { off := 0xB08, gd := 0x1, cmd := 0x1, elig := 0x1 },
    rowCF 0xB0C 0x3FFF 0, rowLV 0xB10 0x1FFFFFFF, rowCF 0xB40 all32 0 48 ]

/-- 12.7, Tables 12-3 and 12-4. -/
def rowsCu : List Row :=
  [ rowCF 0x040 all32 0 10 0x20, rowCF 0x044 all32 0 10 0x20, rowCF 0x048 all32 0 10 0x20,
    rowCF 0x04C all32 0 10 0x20, rowCF 0x050 all32 0 10 0x20, rowCF 0x054 all32 0 10 0x20,
    rowCF 0x058 0x1FF 0 10 0x20,
    rowLV 0x200 all32, rowEV 0x400 all32, rowCF 0x404 all32 0, rowCN 0x500 8,
    rowCF 0xB00 0x1F 0, { off := 0xB04, cf := all32, zero := all32 },
    { off := 0xC00, cnt := 32, stride := 0x20, cf := 0x3F, lv := 0xFFFFFF00, cmd := 0xF },
    rowCF 0xC04 0xFF07FF 0 32 0x20, rowCF 0xC08 all32 0 32 0x20,
    rowCF 0xC0C all32 0 32 0x20, rowCF 0xC10 all32 0 32 0x20 ]

/-- 10.11, Tables 10-12 and 10-13. -/
def rowsGa : List Row :=
  [ rowCF 0x040 0x1 0, rowLV 0x200 0x0FFF0FFF, rowEV 0x400 0xFFF, rowCF 0x404 0xFFF 0, rowCN 0x500 24,
    { off := 0xB00, cnt := 12, stride := 0x40, cf := 0xF, lv := 0x300, cmd := 0x6 },
    rowCF 0xB04 0xFF 0xFF 12 0x40, rowCF 0xB08 0x7FFFF 0x3E019 12 0x40, rowCF 0xB0C 0xFFFFF 0x9420D 12 0x40,
    rowCF 0xB10 0x1FFFF 0x100 12 0x40, rowCF 0xB14 0xFFFF 0 12 0x40,
    rowLV 0xB18 0x7FFF 12 0 0x40, rowLV 0xB1C all32 12 0 0x40, rowLV 0xB20 all32 12 0 0x40, rowLV 0xB24 all32 12 0 0x40,
    { off := 0xB28, cnt := 12, stride := 0x40, ev := 0xFF },
    rowCF 0xE00 0x107FF 0, { off := 0xE04, cf := 0xFFFFF, ro := 0xFFF00000 }, rowLV 0xE08 0x1 ]

/-- 11.9, Table 11-5. -/
def rowsWq : List Row :=
  [ rowCF 0x040 0x3FFFFF 0x3F93FE, rowCF 0x080 0x1FFFFF 0x10000 16 4 0x40, rowCF 0x0C0 all32 0xC00 16,
    rowLV 0x200 0x1FFFF, rowLV 0x240 0x1FFFF 16, rowLV 0x280 0x1FFFF 16, rowLV 0x2C0 0xFFFFFF 16,
    rowEV 0x400 0xFFFF, rowEV 0x440 0x3F 16, rowCF 0x480 0x3F 0 16, rowCN 0x500 32,
    rowCF 0xB00 0xF 0, rowLV 0xB04 all32 2,
    { off := 0xB0C, cf := 0xF, lv := 0x700, cmd := 0x1 }, rowCF 0xB10 all32 0,
    { off := 0xB14, cf := 0x1F, lv := 0x100, cmd := 0x3 }, rowLV 0xB18 0xFFFF001F,
    { off := 0xB1C, cf := 0x1F, lv := 0x100, cmd := 0x10 },
    rowLV 0xC00 all32 128, { off := 0xE00, cnt := 128, cf := all32, zero := all32 } ]

/-- 10.10, Table 10-11. -/
def rowsTim : List Row :=
  [ rowCF 0x040 0xF7F 0x63F, rowCF 0x044 0x3FFFFF 0x3C829, rowCF 0x048 0x7777 0, rowCF 0x04C 0xFFFFFF 0,
    rowLV 0x200 0x7FF, rowLV 0x204 all32 3, rowLV 0x210 0x7FFFF 8, rowLV 0x230 0xFFF, rowLV 0x234 0x1111,
    rowLV 0x240 all32 8,
    rowEV 0x400 0xFF, rowCF 0x404 0xFF 0, rowCN 0x500 8,
    rowCF 0xB00 0x7FFF 0x2585, rowCF 0xB04 0x7FFFF 0 8, rowCF 0xB24 all32 0 3,
    { off := 0xB30, cf := 0x7F, cmd := 0x1 }, rowLV 0xB34 0x7FFFF,
    { off := 0xB38, cf := 0x1, lv := 0x2, cmd := 0x1 } ]

/-- Table 2-13. -/
def rowsSnp : List Row :=
  [ rowCF 0x040 0xFFFF 0, rowLV 0x200 all32 6, rowLV 0x218 0xF, rowEV 0x400 0x3, rowCF 0x404 0x3 0, rowCN 0x500 3,
    { off := 0xB00, cf := 0x7, lv := 0x300, cmd := 0x7 }, rowCF 0xB04 all32 0 2,
    { off := 0xB10, cnt := 4, hd := all32 }, { off := 0xB20, cnt := 4, hd := all32 } ]

/-- Table 18-6. -/
def rowsBk : List Row :=
  [ rowCF 0x040 0x7 0, rowCF 0x044 0x1 0, rowLV 0x200 0x1F, rowLV 0x204 0xFFFF 3, rowLV 0x210 0x7, rowLV 0x214 0xFF,
    rowLV 0x240 0xFF 16, rowEV 0x400 0xF, rowCF 0x404 0xF 0, rowCN 0x500 6,
    { off := 0xB00, gd := 0x1, lv := 0x100, cmd := 0x1, elig := 0x1 } ]

/-- Table 3-6 with the field maps of chapters 3 to 6. -/
def rowsPe : List Row :=
  [ rowCF 0x040 0x3FFFFF 0x304080, rowCF 0x044 0xFF03FF 0x64033F, rowCF 0x048 0x3F 0, rowCF 0x04C all32 0xB8B30C22,
    rowCF 0x050 0x6FF77FFF 0x20004365, rowCF 0x054 0xFF7 0x3C4, rowCF 0x058 0x3FFF 0x438, rowCF 0x05C 0x3FFFF 0x1800,
    rowCF 0x060 0x1FFF 0, rowCF 0x064 0x11F01 0, rowCF 0x068 0x0FF3FFFF 0x0FF1EF7F, rowCF 0x06C all32 0x70641830,
    { off := 0x070, gd := 0x3, elig := 0x3 },
    rowLV 0x200 0x0FFF77F7, rowLV 0x204 0x3FFFF, rowLV 0x208 0xFF0FF7, rowLV 0x20C 0xFFFFFF, rowLV 0x210 all32,
    rowLV 0x214 0x1FF,
    rowEV 0x400 0x0F03FFFF, rowCF 0x404 all32 0, rowEV 0x408 0x1FF, rowEV 0x40C 0x3F, rowEV 0x410 0x3F,
    rowCN 0x500 7 ]

/-- The rows of a page's own registers. -/
def pageRows : PageKind → List Row
  | .dev => rowsDev | .lev => rowsLev | .spw => rowsSpw | .hif => rowsHif | .wrd => rowsWrd | .key => rowsKey
  | .rsv => rowsRsv | .slu => rowsSlu | .cu => rowsCu | .ga => rowsGa | .wq => rowsWq | .tim => rowsTim
  | .snp => rowsSnp | .tst => [] | .bk => rowsBk | .pe => rowsPe

/-- Whether a page carries the guarded-fallback registers (R52). -/
def hasGrd : PageKind → Bool
  | .dev | .spw | .rsv | .slu | .bk | .pe => true
  | _ => false

/-- Whether the row covers the offset. -/
def Row.covers (r : Row) (o : Nat) : Bool :=
  decide (r.off ≤ o) && decide ((o - r.off) % r.stride = 0) && decide ((o - r.off) / r.stride < r.cnt)

/-- The row of a word offset of a page, a holding copy being read off the row of the counter it copies
(Table 2-2, Table 18-2). -/
def findRow (k : PageKind) (o : Nat) : Option Row :=
  if o < 0x014 then rowsCommon.find? (·.covers o)
  else if hasGrd k && 0x030 ≤ o && o < 0x040 then rowsGrd.find? (·.covers o)
  else if 0x800 ≤ o ∧ o < 0xB00 then
    ((pageRows k).find? (·.covers (o - 0x300))).bind fun r =>
      if r.cn = 0 then none else some { off := o, hd := r.cn }
  else (pageRows k).find? (·.covers o)

/-- The reset value of the register at a BAR0 byte offset. -/
def regReset (a : Nat) : Word :=
  let slot := a / 0x1000
  let o := a % 0x1000
  match pageKind slot with
  | none => 0
  | some k =>
    if o = 0 then pageId slot
    else if k = .dev ∧ o = 8 then 0
    else match findRow k o with
      | some r => r.reset + BitVec.ofNat 32 ((o - r.off) / r.stride) * r.step
      | none => 0

/-- The reserved bits of a row: those of no kind. -/
def Row.rv (r : Row) : Word := ~~~(r.cf ||| r.ct ||| r.lv ||| r.ev ||| r.cn ||| r.hd ||| r.gd ||| r.ro)

/-- Base of a page slot. -/
abbrev pg (slot : Nat) : Nat := slot * 0x1000
/-- A register of PEnn (R74). -/
abbrev pe (p off : Nat) : Nat := (0x20 + p) * 0x1000 + off
/-- A register of BKb. -/
abbrev bk (b off : Nat) : Nat := (0x10 + b) * 0x1000 + off
/-- A register of SPWi. -/
abbrev spw (i off : Nat) : Nat := (2 + i) * 0x1000 + off
/-- A register of GA page i. -/
abbrev ga (i off : Nat) : Nat := (0xA + i) * 0x1000 + off
/-- A per-Gauge register of GA00–GA23 (R343). -/
abbrev gaR (g off : Nat) : Nat := (0xA + g / 12) * 0x1000 + 0xB00 + (g % 12) * 0x40 + off
/-- A per-unit register of a Check Unit (R379). -/
abbrev cuR (u off : Nat) : Nat := 0x9C00 + u * 0x20 + off
abbrev dev (off : Nat) : Nat := off
abbrev lev (off : Nat) : Nat := 0x1000 + off
abbrev hif (off : Nat) : Nat := 0x4000 + off
abbrev wrd (off : Nat) : Nat := 0x5000 + off
abbrev keyR (off : Nat) : Nat := 0x6000 + off
abbrev rsv (off : Nat) : Nat := 0x7000 + off
abbrev slu (off : Nat) : Nat := 0x8000 + off
abbrev cuP (off : Nat) : Nat := 0x9000 + off
abbrev wq (off : Nat) : Nat := 0xC000 + off
abbrev tim (off : Nat) : Nat := 0xD000 + off
abbrev snp (off : Nat) : Nat := 0xE000 + off

/-- The power island of a page slot: 0 AO, 1 HIF, 2 CTL, 3 RSV, 4 TIM, 5 AUX, 6 MAT, 7 + b BKb (Table 1-7; R463). -/
def islandOf (slot : Nat) : Nat :=
  match pageKind slot with
  | some .lev | some .spw => 0
  | some .hif => 1
  | some .dev | some .wrd | some .key | some .snp | some .tst => 2
  | some .rsv | some .slu => 3
  | some .cu | some .wq => 5
  | some .ga | some .tim => 4
  | some .bk => 7 + (slot - 0x10)
  | some .pe => 7 + (slot - 0x20) / 16
  | none => 2

end Sys2Proof.Machine
end

