-- ==== Sys2Proof/Machine/State.lean ====
section
/-! DEFINITION. The state of the ILS9600 as plain data. -/

namespace Sys2Proof.Machine

/-! ## Ports and objects (chapters 3 to 6) -/

/-- What a port in SENSE is doing (section 3.5). -/
inductive Stage where
  /-- Not sensing. -/
  | none
  /-- The rate estimate of a sweep, frames run. -/
  | estimate (age : Nat)
  /-- A rate attempt: the code under attempt, frames run, the codes still to attempt. -/
  | attempt (rate : Nat) (age : Nat) (left : List Nat)
  /-- A failed sweep waiting for the next. -/
  | wait
  /-- Waiting for the lock of a forced format (R96). -/
  | forced
  deriving DecidableEq, Repr

/-- A sense result waiting for the next frame boundary (R95, R96). -/
structure Found where
  rate : Nat
  client : Nat
  prov : Bool
  inv : Bool
  /-- Position offered to HUNT as its first candidate; none for a forced format. -/
  pos : Option Nat
  deriving DecidableEq, Repr

/-- A framer: the port's, or that of the STM-N carried on an OTU port (chapter 4). -/
structure Framer where
  /-- Candidates: bit position and count (R109). -/
  cands : List (Nat × Nat) := []
  /-- The exclusion list, oldest first (R113). -/
  excl : List Nat := []
  /-- The aligned position: SYNC or MFSYNC. -/
  lock : Option Nat := none
  /-- The first candidate whose count reached IF_N, in received bit order (R110). -/
  ready : Option Nat := none
  /-- Line frames of the current hunt cycle (R114). -/
  cyc : Nat := 0
  /-- Line frames of probation left (R112). -/
  prob : Nat := 0
  /-- Error run (R115). -/
  errRun : Nat := 0
  /-- Exits to HUNT since the last frame boundary (R116). -/
  exits : Nat := 0
  /-- In frame as it stood at the last boundary (R105, for the carried STM-N). -/
  shown : Bool := false
  /-- The position locked has not been shown as SYNC yet (R107). -/
  fresh : Bool := false
  /-- Consecutive out and in frames (R117). -/
  outRun : Nat := 0
  inRun : Nat := 0
  deriving DecidableEq, Repr

/-- An MFAS or H4 multiframe machine (R120, R129). -/
structure Multi where
  inMf : Bool := false
  /-- The last value received, none where no value was read in the frame before, and in multiframe the value expected in the
  next frame; out of multiframe the phase last aligned goes on in `want` (R129). -/
  last : Option Nat := none
  want : Nat := 0
  /-- Consecutive consistent values out of multiframe, inconsistent ones in it. -/
  run : Nat := 0
  bad : Nat := 0
  /-- MF_OOM_N inconsistent values have been recorded in probation (R112). -/
  failed : Bool := false
  /-- Consecutive frames in OOM, and throughout in multiframe. -/
  oomF : Nat := 0
  mfF : Nat := 0
  /-- In multiframe throughout the running frame. -/
  thru : Bool := false
  deriving DecidableEq, Repr

/-- Excessive-error and degrade judgement of an object (R143, R144). -/
structure Judge where
  winSum : Nat := 0
  winSf : Bool := false
  secSum : Nat := 0
  secSf : Bool := false
  badRun : Nat := 0
  goodRun : Nat := 0
  /-- The sum and signal-fail mark of the PM second that ended and waits for its evaluation. -/
  secDue : Option (Nat × Bool) := none
  /-- The sum and signal-fail mark of the window that ended and waits for its evaluation. -/
  due : Option (Nat × Bool) := none
  deriving DecidableEq, Repr

/-- What one object's PM record accumulates in a second (Tables 5-14 to 5-16). -/
structure PmAcc where
  a : List Nat := []
  defOr : Word := 0
  defSec : Bool := false
  feSec : Bool := false
  suspect : Bool := false
  valid : Bool := false
  deriving DecidableEq, Repr

/-- What the transmit side of a port sends from the last frame boundary on: the overhead that the receive side and other
blocks decide, and what the line frames themselves carry on from one to the next. -/
structure PortTx where
  k1 : Byte := 0
  k2 : Byte := 0
  s1 : Byte := 0
  msRdi : Bool := false
  msAis : Bool := false
  smBdi : Bool := false
  pmBdi : Bool := false
  msRei : Nat := 0
  smBei : Nat := 0
  pmBei : Nat := 0
  /-- B1 and B2 of the next STM-N frame, the STM-N frames sent (J0's trace byte), and the J0 and SM traces being sent (R146). -/
  b1 : Byte := 0
  b2 : List Byte := []
  stm : Nat := 0
  j0 : List Byte := []
  sm : List Byte := []
  /-- OTU frames sent (MFAS), BIP-8 of the OPU areas of the last two, newest first, and client bytes not mapped yet. -/
  otu : Nat := 0
  bips : List Byte := []
  client : List Byte := []
  /-- Bits of the RS and MS DCC still to send (R171). -/
  rs : List Bool := []
  ms : List Bool := []
  /-- The line frames of the frame that last ended, as driven on the pins; those of an internal loopback not received yet. -/
  out : List (List Byte) := []
  loop : List (List Byte) := []
  deriving DecidableEq, Repr

/-- A Port Engine beyond its registers. -/
structure Prt where
  /-- Out of OFF as of the last frame boundary: the energy filter runs (R82). -/
  live : Bool := false
  /-- EN has been written 0, and ENERGY has become 0 in SENSE or a later state, since the last boundary (R83, R84). -/
  cut : Bool := false
  fell : Bool := false
  stage : Stage := .none
  /-- The CDR or picker has locked within the first 16 frames of the attempt (R90). -/
  locked : Bool := false
  found : Option Found := none
  lastValid : Option (Nat × Nat) := none
  /-- Frames continuously in HUNT or PRESYNC (R97). -/
  huntF : Nat := 0
  /-- Comparator ticks agreeing with a change of ENERGY (R82). -/
  eFilt : Nat := 0
  /-- In-frame frames in a row of the carried STM-N toward CLIENT_SET, and its SS bits, newest first (R92). -/
  clientF : Nat := 0
  clientSs : List (Fin 4) := []
  fr : Framer := {}
  cl : Framer := {}
  mfas : Multi := {}
  /-- BIP-8 of the last line frame as received, BIP-24N of the last one but its RSOH, and BIP-8 of the OPU areas of the last two
  OTU frames, newest first; none before the first (R140). -/
  rxB1 : Option Byte := none
  rxB2 : Option (List Byte) := none
  rxBips : List Byte := []
  /-- Demapped client bytes not framed yet, and the bit position, within the client's frame length, of the first (R125). -/
  client : List Bool := []
  clientAt : Nat := 0
  /-- Traces being received (R147), and the HDLC decoders of the two DCC taps (R170). -/
  j0 : TraceRx := {}
  sm : TraceRx := {}
  dccR : Hdlc := {}
  dccM : Hdlc := {}
  /-- Line frames received since the last boundary, as on the pins (R80). -/
  heard : List (List Byte) := []
  /-- Lane rate driven, and frames of settling left (R99). -/
  txRate : Nat := 0
  txSettle : Nat := 0
  /-- A K1/K2 pair and an SSM, with how many frames in a row (R151, R152). -/
  kVal : BitVec 16 := 0
  kRun : Nat := 0
  sVal : BitVec 4 := 0
  sRun : Nat := 0
  /-- Runs toward the K2, STAT, BDI and PT detections of Tables 5-10 and 5-11. -/
  k2Val : BitVec 3 := 0
  k2Run : Nat := 0
  notAisRun : Nat := 0
  notRdiRun : Nat := 0
  statVal : Fin 8 := 0
  statRun : Nat := 0
  /-- Frames in a row without STAT 0b111, 0b110, 0b101. -/
  not7 : Nat := 0
  not6 : Nat := 0
  not5 : Nat := 0
  smBdiVal : Bool := false
  smBdiRun : Nat := 0
  pmBdiVal : Bool := false
  pmBdiRun : Nat := 0
  ptVal : Byte := 0
  ptRun : Nat := 0
  ptAcc : Byte := 0
  /-- The accepted J0 and SM traces differ from VALUE (R149). -/
  j0Bad : Bool := false
  smBad : Bool := false
  present : List Defect := []
  reported : List Defect := []
  remote : List Remote := []
  /-- PE_DEF_EV bits set since the last boundary, for its notice (R360). -/
  note : Word := 0
  judge : Judge := {}
  /-- PE_GUARD in effect (R102). -/
  dis : Bool := false
  sq : Bool := false
  tx : PortTx := {}
  /-- PM counts of the running second, of the ended one until PM_SECOND_END, and of the one under harvest (R164). -/
  pm : PmAcc := {}
  pmDone : PmAcc := {}
  pmHeld : PmAcc := {}
  deriving DecidableEq, Repr

/-- Pointer interpreter states (Table 6-8). -/
inductive PtrSt where
  | norm | ais | lop | conc
  deriving DecidableEq, Repr

/-- The E1 monitor's states (W6 [19:17]). -/
inductive E1St where
  | off | search | basic | noCrc4 | crc4
  deriving DecidableEq, Repr

/-- The E1 monitor of a VC-12 (section 4.9): the bits of the E1 frame in progress or, while it searches, the last bits; what has
been found; and what is counted. -/
structure E1Rx where
  st : E1St := .off
  buf : List Bool := []
  /-- While searching: 0 hunting, 1 FAS found, 2 NFAS found after it. -/
  step : Nat := 0
  /-- The next frame is one without FAS. -/
  odd : Bool := false
  /-- Errored FAS in a row, frames since basic alignment. -/
  errs : Nat := 0
  age : Nat := 0
  /-- Bit 1 of the NFAS frames, newest first; the ages at which multiframe alignment signals ended. -/
  nfas : List Bool := []
  mfAt : List Nat := []
  /-- In CRC-4 multiframe alignment: the number of the next frame, the bits of the running sub-multiframe, the CRC of the last one,
  and the C bits received. -/
  num : Nat := 0
  sub : List Bool := []
  crc : Option Nat := none
  cbits : List Bool := []
  /-- Results of the last 1,000 CRC-4 blocks, newest first, true = errored (R135). -/
  blocks : List Bool := []
  /-- Errored blocks and E bits not counted into the TRIB entry yet. -/
  bad : Nat := 0
  ebits : Nat := 0
  /-- Lost by 3 errored FAS, or by CRC-4 errors, and not shown yet. -/
  lostFas : Bool := false
  lostCrc : Bool := false
  deriving DecidableEq, Repr

/-- The VC being received for an object: its bytes since its first, whether that first byte has been seen, the parity of the VC
before it, whether a frame of it was under signal fail, its trace, the last K4 bytes, newest first, and the H4 or K4 bytes received in the
frame that ends, oldest first (section 5.2, R147, R217); the stream position of the next byte, that of the VC's first byte with its frame,
and the VCs completed in the frame that ends, oldest first, each with both (R283). -/
structure RxVc where
  part : List Byte := []
  sync : Bool := false
  bip : Option Byte := none
  sf : Bool := false
  trace : TraceRx := {}
  k4 : List Byte := []
  got : List Byte := []
  pos : Nat := 0
  first : Nat × Nat := (0, 0)
  done : List (List Byte × Nat × Nat) := []
  deriving DecidableEq, Repr

/-- The VC being sent for an object: parity of the one in progress and of the one before, its number (none before the first since the
object entered service or was marked AIS), its REI, the H4 or K4 bytes sent, newest first, and the bytes its source has given since
the block before, beyond the mean (R194). -/
structure TxVc where
  acc : Byte := 0
  bip : Byte := 0
  blk : Option Nat := none
  rei : Nat := 0
  hist : List Byte := []
  /-- The trace being sent (R146). -/
  trace : List Byte := []
  moved : Int := 0
  /-- The VC offset of the next byte that its source would give in sequence (R196). -/
  next : Nat := 0
  /-- Its place is filled, as it has no source that gives bytes (R197, R213, R249). -/
  fill : Bool := false
  /-- Bytes added (−) or left out (+) by the justification of the block that the generator made last; pointer word, value and
  justification of the block being sent. -/
  just : Int := 0
  word : BitVec 16 := 0
  val : Nat := 0
  adj : Int := 0
  /-- Bytes composed and not placed in a line frame yet, the VC offset of the first, and how many bytes are still to be repeated
  before it (R195). -/
  out : List Byte := []
  head : Nat := 0
  gap : Nat := 0
  deriving DecidableEq, Repr

/-- A Path, a Tributary, or one VC-3 of an AU-3 position, beyond its TRIB entry. -/
structure Obj where
  svc : Bool := false
  /-- Checks of Table 6-3 due at the next boundary (R182). -/
  due : Bool := false
  itp : PtrSt := .lop
  cur : Option Nat := none
  /-- Consecutive blocks of a class (R190). -/
  nAis : Nat := 0
  nInv : Nat := 0
  nNdf : Nat := 0
  nOth : Nat := 0
  nCi : Nat := 0
  nNew : Nat := 0
  newVal : Nat := 0
  /-- Blocks since the last accepted pointer change. -/
  since : Nat := 4
  /-- A state the interpreter's counts have reached, to be entered. -/
  goto : Option PtrSt := none
  /-- The generator: value, NDF due in the next block, blocks since its last change, depth in bytes, held by AIS. -/
  gVal : Nat := 0
  gNdf : Bool := false
  gSince : Nat := 0
  depth : Int := 0
  gHeld : Bool := false
  gOn : Bool := false
  /-- The pointer word of the last block sent: H1 and H2, or V1 and V2 (R193–R200). -/
  gOut : BitVec 16 := 0
  h4 : Multi := {}
  slVal : Byte := 0
  slRun : Nat := 0
  zRun : Nat := 0
  nzRun : Nat := 0
  rdiVal : Bool := false
  rdiRun : Nat := 0
  rfiVal : Bool := false
  rfiRun : Nat := 0
  /-- A trace has been accepted since the object entered service, and it differs from VALUE (R149). -/
  timBad : Bool := false
  /-- Stream position: VC bytes written since the object entered service, mod 2^32 (section 9.2), and the place in its VC of the
  next byte to be written. -/
  stream : Nat := 0
  phase : Nat := 0
  present : List Defect := []
  reported : List Defect := []
  remote : List Remote := []
  judge : Judge := {}
  e1 : E1St := .off
  e1rx : E1Rx := {}
  rx : RxVc := {}
  tx : TxVc := {}
  /-- The Reservoir's AIS mark on the object's writes (R160). -/
  aisMark : Bool := false
  txRdi : Bool := false
  txRei : Nat := 0
  pm : PmAcc := {}
  pmDone : PmAcc := {}
  pmHeld : PmAcc := {}
  deriving DecidableEq, Repr

/-- A slot of a group in effect (chapter 7). -/
structure Slot where
  /-- VCAT multiframe alignment and its integration toward VC-LOM (R217), the last H4 or K4 bytes, newest first, and a packet
  received and not taken yet. -/
  mf : Multi := {}
  hist : List Byte := []
  pkt : Option CtrlPkt := none
  lom : Bool := false
  /-- The member's delay, measured in frames modulo the MFI range (R218), and its depth at the read point. -/
  delay : Nat := 0
  depth : Int := 0
  loa : Bool := false
  loaRun : Nat := 0
  sq : Byte := 0
  sqRun : Nat := 0
  sqAcc : Byte := 0
  sqm : Bool := false
  ctrl : Fin 16 := 0
  /-- CTRL and SQ values received, each with the frame from which it governs the payload, oldest first; and those that govern it now
  (R226). -/
  ctrlQ : List (Nat × Fin 16 × Byte) := []
  ctrlNow : Option (Fin 16) := none
  sqNow : Byte := 0
  /-- MST reported or received: true = OK (R227, R230). -/
  mst : Bool := false
  failed : Bool := false
  failRun : Nat := 0
  okRun : Nat := 0
  deriving DecidableEq, Repr

/-- A group beyond its GROUP entry. -/
structure Grp where
  /-- The definition in effect: W0, W1, W2, W4–W11, definition bits only (R212). -/
  eff : List Word := []
  /-- The read point, as a delay in frames (R219). -/
  readPt : Option Int := none
  /-- Frames without a slot aligned at the read point (R221). -/
  loaRun : Nat := 0
  /-- A changed set of SQ values, and the frames it has stood unchanged (R230). -/
  rsPend : Bool := false
  rsCnt : Nat := 0
  deriving DecidableEq, Repr

/-! ## The Weir (chapter 11) -/

/-- A packet of a queue (R347): its source, its header word, its payload, and once committed its sequence number, frame
and place in arrival order. -/
structure Pkt where
  id : Nat
  src : Nat
  hdr : Word
  bytes : List Byte
  /-- Blocks still to take; not zero only while the packet waits at the tail (R352). -/
  need : Nat := 0
  /-- Its source has given all of it; a DCC frame still being received has not ended. -/
  ended : Bool := true
  done : Bool := false
  seq : Nat := 0
  frame : Nat := 0
  order : Nat := 0
  deriving DecidableEq, Repr

/-- A queue: its blocks from the tail to the write pointer, each with the packet that holds it, and its packets. -/
structure Queue where
  blocks : List (Option Nat) := []
  pkts : List Pkt := []
  seq : Nat := 0
  claim : Option Nat := none
  /-- A popped packet whose blocks are not released yet. -/
  freeing : Option Nat := none
  hiDue : Bool := false
  loDue : Bool := false
  deriving DecidableEq, Repr

/-- A pattern generator and analyzer pair beyond its PRBS entry (R203, R204): the generator's register, bits generated, and
whether the bit that SINGLE asks for has been inverted; the analyzer's register, bits loaded or correct in a row out of sync, whether
it is in sync, the compared and errored bits of the running block of 64, and whether sync has been lost and not shown yet. -/
structure Prbs where
  gen : Option Nat := none
  genN : Nat := 0
  done : Bool := false
  reg : Nat := 0
  fill : Nat := 0
  good : Nat := 0
  inSync : Bool := false
  cmp : Nat := 0
  err : Nat := 0
  lost : Bool := false
  deriving DecidableEq, Repr

/-- The Weir beyond its registers. -/
structure WqSt where
  qs : SMap Queue := []
  nextId : Nat := 0
  nextOrder : Nat := 0
  /-- The open host packet. -/
  host : Option Nat := none
  /-- Frames being sent on DCC channels, by 2 × port + channel, FCS included (R171). -/
  sending : SMap (List Byte) := []
  /-- DCC sources whose frame in progress has been dropped whole; the rest of it is passed over (R352). -/
  skip : List Nat := []
  deriving DecidableEq, Repr

/-! ## The command ring (chapter 13) -/

/-- An outstanding command: fetched, its completion not written yet (R393–R398). -/
structure Cmd where
  id : Nat
  tag : Nat
  slot : Nat
  op : Nat
  bytes : List Byte
  /-- Frame boundaries up to and including its deadline boundary. -/
  dl : Nat
  fence : Bool := false
  dup : Bool := false
  started : Bool := false
  fixed : Bool := false
  deriving DecidableEq, Repr

/-- A fixed completion that is not written yet (R395). -/
structure Cpl where
  id : Nat
  tag : Nat
  status : Nat
  op : Nat
  slot : Nat
  dup : Bool
  frame : Nat
  result : List Byte
  deriving DecidableEq, Repr

/-! ## The Reservoir (chapter 8) -/

/-- A record of a ring whose header is written: its frame, the stream position of its first byte, its length and its AIS
mark (R243, section 9.2). -/
structure Rec where
  frame : Nat
  pos : Nat
  /-- The place in the VC of its first byte. -/
  phase : Nat
  len : Nat
  ais : Bool
  deriving DecidableEq, Repr

/-- A ring (R243–R247): the object that writes it, its first cell, C_f, d, its start frame and its records. `use` is 0 for
a plain source, 1 for a group slot, 2 for a pair copy. -/
structure Ring where
  key : Nat
  base : Nat
  cells : Nat
  depth : Nat
  use : Nat
  readers : Nat
  kept : Bool := false
  start : Option Nat := none
  recs : List Rec := []
  deriving DecidableEq, Repr

/-- What the transmit side of an object carries in a frame: the AIS mark, or bytes with the HBM address each was read from and the place
in the VC of the first; no bytes where it is built from its Tributaries or filled. `term` says that the path overhead is inserted
(R138, R139). -/
structure Sent where
  key : Nat
  ais : Bool
  bytes : List (Option Nat × Byte)
  phase : Nat := 0
  term : Bool := true
  deriving DecidableEq, Repr

/-- A commit request (R259): its RSV_MCMT bits, its target, and the ring command or capsule that asked for it. -/
structure Req where
  bits : Word
  tgt : Nat
  cmd : Option Nat := none
  capsule : Option Nat := none
  deriving DecidableEq, Repr

/-- The Reservoir beyond its registers and tables. -/
structure RsvSt where
  rings : List Ring := []
  /-- What is read for the running frame, and what was sent in the frame that last ended, overhead inserted. -/
  sent : List Sent := []
  out : List Sent := []
  /-- Blocks sent in places of TUs that carry no Tributary (R197), by place. -/
  fills : SMap Nat := []
  req : Option Req := none
  /-- Rings placed by a check that passed. -/
  plan : List Ring := []
  /-- MAPS of a post-commit copy still to end. -/
  copy : Nat := 0
  /-- Idle frames toward self-refresh (R274). -/
  idle : Nat := 0
  /-- EN of the page as it stood at the boundary that began the running frame (R28). -/
  run : Bool := false
  /-- Entries whose stored parity mismatches: table and index (R42, R269). -/
  mis : List (Nat × Nat) := []
  /-- Table entries already counted for parity in this frame: table and index (R269). -/
  seen : List (Nat × Nat) := []
  /-- XMAP indices whose object is marked AIS until a commit (R269), and those sent as all-ones in this frame only. -/
  bad : List Nat := []
  blank : List Nat := []
  /-- Cells of the Open Reservoir and the retained region with an uncorrectable or misdirected word (R240). -/
  badCells : List Nat := []
  /-- PMAP entries whose selector is held (R296). -/
  held : List Nat := []
  deriving DecidableEq, Repr

/-! ## The Sluice (chapter 9) -/

/-- A marker in flight (R284), and what it has matched: offset and skew. -/
structure Marker where
  sig : Nat
  pos : Nat
  frame : Nat
  hit : Option (Nat × Nat) := none
  deriving DecidableEq, Repr

/-- A selector: of an SNCP pair, or of an MSP pair. Command and request codes as in SLU_PS_STAT. -/
structure Pair where
  sel : Bool := false
  next : Bool := false
  cmd : Nat := 0
  req : Nat := 0
  /-- Conditions W_SF, W_SD, P_SF, P_SD, the boundaries each has held at, and whether it is a request. -/
  cond : List Bool := [false, false, false, false]
  runs : List Nat := [0, 0, 0, 0]
  raised : List Bool := [false, false, false, false]
  /-- The hold-offs, in frames, that run or have run (R289, R295). -/
  holds : List Nat := []
  /-- Frames of WTR left. -/
  wtr : Option Nat := none
  /-- ALIGN of Table 9-3, the confirmed offset (lagger position − leader position, mod 2^32), leader and skew. -/
  align : Nat := 0
  offset : Option Nat := none
  lead : Bool := false
  skew : Nat := 0
  cand : Option (Nat × Bool × Nat) := none
  candRun : Nat := 0
  missRun : Nat := 0
  markW : Option Marker := none
  markP : Option Marker := none
  /-- Signatures recorded for the copies and not compared yet, oldest first: signature, stream position and frame of the VC frame's first
  byte (R283). -/
  sigW : List (Nat × Nat × Nat) := []
  sigP : List (Nat × Nat × Nat) := []
  /-- Where the read of the frame before the last one read ended, in the lagger's stream; the frame last read, and where its
  read ended. -/
  rd : Option Nat := none
  rdNow : Option (Nat × Nat) := none
  /-- Frame of the last mirror record of the pair, and a change not mirrored yet (R309). -/
  mirAt : Nat := 0
  dirty : Bool := false
  /-- SLU_PS_STAT of the pair at the last boundary. -/
  shown : Word := 0
  deriving DecidableEq, Repr

/-- An MSP pair: the definition in effect, its selector, the protocol state (R297–R303). -/
structure Msp where
  eff : Word := 0
  p : Pair := {}
  rate : Bool := false
  psbf : Bool := false
  chMm : Bool := false
  modeMm : Bool := false
  /-- Frames without an accepted K1/K2, and with a mismatched channel. -/
  noK : Nat := 0
  chRun : Nat := 0
  /-- K1 and K2 accepted from the far end and sent on PPORT. -/
  k1 : Byte := 0
  k2 : Byte := 0
  tx1 : Byte := 0
  tx2 : Byte := 0
  deriving DecidableEq, Repr

/-- An external command waiting for its boundary (R291): SLU_XCMD, boundaries still to pass first, and its ring command. -/
structure Xcmd where
  w : Word
  skip : Nat
  cmd : Option Nat
  deriving DecidableEq, Repr

/-- The Sluice beyond its registers and tables. -/
structure SluSt where
  pairs : SMap Pair := []
  msp : SMap Msp := []
  xcmd : Option Xcmd := none
  /-- The heartbeat received in the running frame, and the last one received (R307). -/
  hb : Option Heartbeat := none
  lastHb : Option Heartbeat := none
  /-- Frames in a row without a heartbeat, frames in ARBITRATE, frames toward STANDBY of unit 1 in a dual state. -/
  missed : Nat := 0
  arb : Nat := 0
  dual : Nat := 0
  /-- Boundaries to the yield, own and the partner's announced one (R310). -/
  yieldAt : Option Nat := none
  /-- A partner's frame number to take, and boundaries at which it differed (R311). -/
  took : Bool := false
  differ : Nat := 0
  /-- Hashes of the maps in effect as last computed (R429). -/
  xHash : BitVec 256 := 0
  pHash : BitVec 256 := 0
  /-- Heartbeats and mirror messages sent since the last boundary, as message bytes. -/
  out : List (List Byte) := []
  /-- The MATE lanes on which a timing marker is sent in the running frame (R316). -/
  marks : BitVec 2 := 0
  /-- TX lanes held at electrical idle by the mate role (R305); kept in DOWN. -/
  mateIdle : Bool := false
  /-- Last frame a mirror record of a target was adopted in. -/
  mirIn : SMap Nat := []
  deriving DecidableEq, Repr

/-! ## Timing (chapter 10) -/

/-- A Gauge beyond its registers: reset due (R321), the unwrapped phase of its last event, the filter chain's integrators,
combs and delay lines, newest first (R318), and what waits for the next output sample. -/
structure Gauge where
  reset : Bool := false
  /-- Phase of the last event since the reset boundary, in q (R317). -/
  ph : Option Int := none
  /-- PD samples since the reset. -/
  n : Nat := 0
  int1 : Int := 0
  int2 : Int := 0
  int3 : Int := 0
  comb1 : Int := 0
  comb2 : Int := 0
  comb3 : Int := 0
  h1 : List Int := []
  h1n : Nat := 0
  h2 : List Int := []
  h2n : Nat := 0
  fir : List Int := []
  /-- A stage saturated since the last final output. -/
  sat : Bool := false
  /-- A final output sample is due. -/
  due : Bool := false
  /-- Phase at the last second mark, for GA_MEAS, and PD samples since. -/
  mPh : Int := 0
  mN : Nat := 0
  /-- A recorded swap request: the bank. -/
  swap : Option Bool := none
  /-- The last valid output. -/
  last : Int := 0
  /-- GA_OUT latched by a read of GA_SEQ (Table 10-9). -/
  latch : Option Word := none
  /-- Wander records written, and the frame of record 0 (R340). -/
  recs : Nat := 0
  start : Nat := 0
  deriving DecidableEq, Repr

/-- A cross-fade (R338): its old and new Gauge, the old Gauge's Δ and steering value, k, K and whether it has started. -/
structure Fade where
  old : Option Nat
  new : Nat
  oldDelta : Int
  xOld : Int
  k : Nat
  len : Nat
  started : Bool
  deriving DecidableEq, Repr

/-- A selector input beyond TIM_SI_ST: frames of WTR left, and whether its failure counts for selection (R334). -/
structure SelIn where
  failed : Bool := false
  counted : Bool := false
  wtr : Option Nat := none
  deriving DecidableEq, Repr

/-- The timing loop and selector beyond their registers. -/
structure TimSt where
  gauges : SMap Gauge := []
  /-- FIR coefficients, keyed Gauge × 128 + bank × 64 + tap (R319). -/
  coef : SMap (BitVec 20) := []
  sis : SMap SelIn := []
  fade : Option Fade := none
  delta : Int := 0
  x : Int := 0
  /-- Frames of hold-off run, the state before BRIDGE, and frames toward LOCK and toward its loss. -/
  hold : Nat := 0
  before : Nat := 0
  lockRun : Nat := 0
  lossRun : Nat := 0
  /-- The sum of TIM_FREQ over the running second, frames in it, whether all were LOCKED; the ended seconds, newest first. -/
  secSum : Int := 0
  secN : Nat := 0
  secLocked : Bool := true
  hist : List (Option Int) := []
  /-- A TIM_CMD waiting: its word and boundaries still to pass first (R335). -/
  cmd : Option (Word × Nat) := none
  /-- The level of the FSYNC8K pin (R330). -/
  fsync : Bool := false
  /-- A timing marker of the partner has arrived in the running frame, and the frames in a row in which one has (Table 10-1). -/
  mark : Bool := false
  marks : Nat := 0
  deriving DecidableEq, Repr

/-- An open job of a Check Unit (chapter 12): its starting register value, the bytes fed, and for a command job its
command, Open Reservoir offset and length. -/
structure CuJob where
  init : Nat := 0
  bytes : List Byte := []
  cmd : Option (Nat × Nat × Nat) := none
  deriving DecidableEq, Repr

/-! ## Pins, fuses, the Warden (chapters 14, 17) -/

/-- The control pins that the block itself reads and does not show in a register: PWRGOOD, PERST_N (true = deasserted) and
TESTMODE (tied to VSS, R487). -/
structure Pins where
  pwrgood : Bool := false
  perst : Bool := false
  testmode : Bool := false
  deriving DecidableEq, Repr

/-- The fuses that are blown in service (Table 14-1); ID_SEED and the firmware key hashes are Config's. -/
structure Fuses where
  owner : BitVec 256 := 0
  valid : Bool := false
  rollback : Nat := 0
  rev0 : Bool := false
  rev1 : Bool := false
  deriving DecidableEq, Repr

/-- A firmware load in progress (R413, R420): its command, its copy of the container, whether the copy met poison, whether
it is an update, whether it began in FAILED, and once verified its security version. -/
structure FwJob where
  cmd : Nat
  bytes : List Byte
  bad : Bool
  update : Bool
  fromFailed : Bool
  verified : Bool := false
  deriving DecidableEq, Repr

/-- A capsule whose checks have passed: its command, its copy, and whether it is an ownership capsule (R425–R428). -/
structure CapJob where
  cmd : Nat
  bytes : List Byte
  own : Bool
  deriving DecidableEq, Repr

/-- The Warden beyond its pages. -/
structure WrdSt where
  fw : Option FwJob := none
  cap : Option CapJob := none
  /-- A verified image has been started since the chip reset (R12), and the Warden has restarted since. -/
  ran : Bool := false
  restarted : Bool := false
  /-- TESTMODE was 1 in open mode at the rising edge of PWRGOOD (Table 17-9). -/
  testLoad : Bool := false
  /-- SHA3-256 of the last verified owner key, in the crypto engine. -/
  keyHash : BitVec 256 := 0
  /-- Tick of the last trap taken (R33). -/
  trapAt : Option Nat := none
  /-- Frames, as LevSt counts them, of the automatic restarts, newest first (R418). -/
  restarts : List Nat := []
  /-- Frames left of the restart hold, and of RESTARTING (R418, Table 14-5). -/
  hold : Option Nat := none
  left : Option Nat := none
  /-- RESTARTING runs from the staging copy (R420). -/
  staging : Bool := false
  /-- An image has been verified, so that the retained region holds its container. -/
  image : Bool := false
  /-- Map hashes are due (R429), after the boundary of a commit. -/
  hashDue : Bool := false
  /-- Ledger requests accepted and not served: a ring command, or the doorbell (R404). -/
  ledger : List (Option Nat) := []
  ledgerGen : Nat := 0
  /-- Attestation requests waiting for FRAME (R431): a ring command with offset and space, or the DOE, with the nonce. -/
  attest : List (Option (Nat × Nat × Nat) × List Byte) := []
  /-- Frame of the last commit boundary. -/
  lastB : Nat := 0
  deriving DecidableEq, Repr

/-! ## The host interface (chapter 13) -/

/-- The HIF beyond its page. -/
structure HifSt where
  /-- Commands withdrawn by the last HIF reset (R382). -/
  lost : Nat := 0
  /-- The cause of each vector when last looked at, the vectors whose message is due, and the tick of each one's last message
  (R390). -/
  was : BitVec 64 := 0
  due : List Nat := []
  sent : SMap Nat := []
  /-- The chip reset that CHIP_RESET asked for: its command, and the frame its completion was written in. -/
  chip : Option (Nat × Option Nat) := none
  /-- A DOE attestation response outstanding. -/
  doe : Bool := false
  deriving DecidableEq, Repr

/-! ## The Spillway and the Levee (chapters 15, 16) -/

/-- A Spillway source beyond the bits its page shows. -/
structure SpwSrc where
  /-- Ticks for which a report stays on the rails. -/
  held : Nat := 0
  /-- A report was active at the last tick. -/
  active : Bool := false
  grace : Option Nat := none
  quiet : Option Nat := none
  dry : Bool := false
  /-- Tick of the last entry. -/
  entry : Nat := 0
  /-- Escalated with FAULTN and not yet both left and acknowledged. -/
  faultN : Bool := false
  railRun : Nat := 0
  railVal : BitVec 2 := 1
  railBad : Bool := false
  railInj : Bool := false
  deriving DecidableEq, Repr

/-- An injection running: source, ticks left, DRY, RAIL_INV. -/
structure Inject where
  src : Nat
  left : Nat
  dry : Bool
  rail : Bool
  deriving DecidableEq, Repr

/-- The Spillway core. -/
structure SpwSt where
  srcs : SMap SpwSrc := []
  inj0 : Option Inject := none
  inj1 : Option Inject := none
  /-- Tick of the recorded first fault. -/
  ffTick : Option Nat := none
  deriving DecidableEq, Repr

/-- The Levee beyond its page. -/
structure LevSt where
  /-- Ticks of the running nominal frame while D06 is stopped (R398). -/
  nom : Nat := 0
  /-- Frames passed since power-on or chip reset: boundaries of D06, or nominal frames while it stands (R6, R398). -/
  frames : Nat := 0
  /-- Ticks for which the conditions of L1 and of each island's switch-off have held (R458, R459). -/
  l1Run : Nat := 0
  offRun : SMap Nat := []
  inL1 : Bool := false
  /-- A chip reset asked for, with its cause, and one in progress. -/
  chipReq : Option Nat := none
  chipHold : Bool := false
  /-- Island resets asked for, with the frame of the request (R463). -/
  resets : List (Nat × Nat) := []
  /-- Islands being switched on for a host access (R37), and banks asleep whose island is still on (R25, R459). -/
  waking : List Nat := []
  slept : List Nat := []
  /-- Periods that have run with EN = 1 toward the end of STALE, by page slot (R464). -/
  periods : SMap Nat := []
  /-- The start-up of R462 has been made. -/
  started : Bool := false
  /-- Ticks since the last reload of the watchdog, for the half-period wake (R457). -/
  wdtRun : Nat := 0
  /-- A die sensor has exceeded 115 °C and not fallen below 110 °C since (R476). -/
  hot : Bool := false
  deriving DecidableEq, Repr

/-- What a snapshot captured at its boundary (R29, R62, R67): its source code, the requests merged, the pages with STALE = 1 and
those whose island was off as words of 32 slots, and the counter registers of the powered pages. -/
structure Capture where
  source : Nat
  merged : Nat
  stale : List Word
  off : List Word
  cnt : SMap Word
  deriving DecidableEq, Repr

/-- The global snapshot beyond the SNP page (R62–R66). -/
structure SnpSt where
  /-- A command or target request: its source code and its boundary. -/
  req : Option (Nat × Nat) := none
  /-- The snapshot of the boundary that began the running frame, captured there and not copied to the holding registers yet. -/
  sel : Option Capture := none
  /-- A copy made, its generation not shown yet. -/
  copied : Bool := false
  deriving DecidableEq, Repr

/-- Outcome of a host access on the link. -/
inductive LinkResp where
  | data (w : Word)
  | bytes (bs : List Byte)
  | done
  | abort
  | poison
  | noLink
  /-- A completion written to a slot of the completion ring. -/
  | completion (slot : Nat) (bs : List Byte)
  /-- An MSI-X message. -/
  | message (v : Nat)
  /-- A DOE response object. -/
  | doe (bs : List Byte)
  deriving DecidableEq, Repr

/-- A host access to BAR0 or BAR2 (sections 2.7, 2.8). -/
inductive HostAcc where
  | wr (a : Nat) (v : Word) (left : Nat)
  | rd (a : Nat)
  | rdAlias (a : Nat)
  | wrAlias (a : Nat) (v : Word) (left : Nat)
  | rd64 (a : Nat)
  | odd (bar2 : Bool) (a : Nat) (n : Nat) (write : Bool)
  | apRead (o : Nat) (n : Nat)
  | apWrite (o : Nat) (ws : List Word)
  deriving DecidableEq, Repr

/-- The block but for the HBM's bytes and the queue of commands. Registers are held at their BAR0 byte offset, table
words at `code × 2^22 + image word`; an unlisted register reads as its reset value, an unlisted table word as zero. -/
structure Core where
  regs : SMap Word := []
  /-- Byte parity mismatches of CF registers (R42, R43). -/
  parMis : SMap (BitVec 4) := []
  /-- What the second and third copies of a CT register differ in from the first (R44). -/
  ct1 : SMap Word := []
  ct2 : SMap Word := []
  tbl : SMap Word := []
  /-- Configuration words of TRIB and GROUP entries written since the last frame boundary, as they stood there (R186, R212). -/
  cfOld : List (Nat × Word) := []
  /-- The two banks of the TRIB counters, keyed entry × 4 + word (R62). -/
  tcA : SMap Word := []
  tcB : SMap Word := []
  ports : SMap Prt := []
  objs : SMap Obj := []
  groups : SMap Grp := []
  slots : SMap Slot := []
  prbsS : SMap Prbs := []
  /-- D06 running, and the number of the frame that is running. -/
  d06 : Bool := false
  frame : Nat := 0
  /-- The Levee's tick number (R455). -/
  tick : Nat := 0
  /-- The model's own counter for free values. -/
  freeCtr : Nat := 0
  /-- PM seconds ended, and the second whose harvest is due (R164, R166). -/
  pmSec : Nat := 0
  harvest : Option Nat := none
  /-- PM seconds still to be marked suspect after a change of frame number (R311). -/
  pmSuspect : Nat := 0
  lateCount : Nat := 0
  /-- CEs and late counts of the running PM second (R270). -/
  ceSec : Nat := 0
  lateSec : Nat := 0
  ceDone : Nat := 0
  lateDone : Nat := 0
  weirS : WqSt := {}
  /-- Outstanding commands in fetch order, fixed completions in fixing order, and the next command's number. -/
  cmds : List Cmd := []
  cpls : List Cpl := []
  cmdNo : Nat := 0
  rsvS : RsvSt := {}
  sluS : SluSt := {}
  /-- MSP pairs now receiving from PPORT, as WPORT and PPORT (R299). -/
  mspRx : List (Nat × Nat) := []
  /-- The pointer interpreters that run on the ports of MSP pairs that are not selected, by object of WPORT: state, value and counts
  (R299). -/
  spare : SMap Obj := []
  timS : TimSt := {}
  cuS : SMap CuJob := []
  pins : Pins := {}
  fuses : Fuses := {}
  wrdS : WrdSt := {}
  hifS : HifSt := {}
  spwS : SpwSt := {}
  levS : LevSt := {}
  snpS : SnpSt := {}
  /-- Pages in an enable scan (R47). -/
  scans : List Nat := []
  /-- The open guarded-fallback sequence: its page slot and the tick of its GRD_TGT (R53–R55), and GRD_VAL as written. -/
  grd : Option (Nat × Nat) := none
  grdVal : Word := 0
  /-- Fault reports made since the last Levee tick (chapter 15). -/
  reports : List Nat := []
  /-- Completions of host accesses sent by the last command that sent any. -/
  linkOut : List LinkResp := []
  /-- Host accesses waiting for an island or a snapshot copy, oldest first (R36, R37, R64). -/
  blocked : List HostAcc := []
  deriving DecidableEq, Repr

/-- Reasons a step could stop with a fault. No command of this block has one: every access the spec describes answers on
the link. -/
inductive Fault where
  /-- Raised by no command; kept so that the type is not empty. Safe: it is never answered. -/
  | none
  deriving DecidableEq, Repr

/-- Reasons a command could be refused. -/
inductive Refusal where
  /-- The command has no meaning in the model yet; raised by Dispatch only. Safe: the run stops. -/
  | notModelled (mnemonic : String)
  deriving DecidableEq, Repr

/-- The machine: the block, the HBM's bytes (address and byte, addresses rising, no zero byte listed) and the commands
waiting, first in, first out. -/
structure State where
  core : Core
  hbm : List Host.Cell
  pending : List Instr
  deriving DecidableEq, Repr

/-- An effect on the HBM: bytes written from an address on, or a range cleared to zero. -/
inductive MemOp where
  | write (addr : Nat) (bytes : List Byte)
  | clear (lo hi : Nat)
  deriving DecidableEq, Repr

/-- The state at power-on reset (R460): every register at its reset value, tables, HBM and queue empty. -/
def State.reset : State := { core := {}, hbm := [], pending := [] }

end Sys2Proof.Machine
end

