-- ==== Sys2Proof/Machine/Ops.lean ====
section
/-! DEFINITION. The named operations over registers, tables, counters and per-instance records. -/

namespace Sys2Proof.Machine

/-! ## Fields of words -/

/-- The `n`-bit field of a word at bit `lo`. -/
def fld (w : Word) (lo n : Nat) : Nat := (w.toNat >>> lo) % 2 ^ n

/-- A bit of a word. -/
def bitOf (w : Word) (b : Nat) : Bool := w.getLsbD b

/-- The mask of an `n`-bit field at bit `lo`. -/
def maskOf (lo n : Nat) : Word := BitVec.ofNat 32 ((2 ^ n - 1) <<< lo)

/-- The word with the field replaced. -/
def setFld (w : Word) (lo n v : Nat) : Word :=
  (w &&& ~~~(maskOf lo n)) ||| BitVec.ofNat 32 ((v % 2 ^ n) <<< lo)

/-- A one-bit mask. -/
def bit (b : Nat) : Word := BitVec.ofNat 32 (1 <<< b)

/-- The mask of the positions at which a predicate holds. -/
def bitsWhere (n : Nat) (f : Nat → Bool) : Word :=
  BitVec.ofNat 32 ((List.range n).foldl (fun a k => if f k then a + 2 ^ k else a) 0)

/-- A count, a minimum and a maximum. -/
def clamp (lo hi v : Nat) : Nat := if v < lo then lo else if hi < v then hi else v

/-! ## Registers -/

/-- The stored value of the register at a BAR0 byte offset. -/
def Core.rd (c : Core) (a : Nat) : Word := Sparse.get regReset c.regs a

/-- The register given a value. -/
def Core.wr (c : Core) (a : Nat) (v : Word) : Core := { c with regs := Sparse.put regReset c.regs a v }

/-- A field of a register. -/
def Core.gf (c : Core) (a lo n : Nat) : Nat := fld (c.rd a) lo n

/-- A field of a register given a value. -/
def Core.sf (c : Core) (a lo n v : Nat) : Core := c.wr a (setFld (c.rd a) lo n v)

/-- A bit of a register. -/
def Core.gb (c : Core) (a b : Nat) : Bool := bitOf (c.rd a) b

/-- A bit of a register given a value. -/
def Core.sb (c : Core) (a b : Nat) (v : Bool) : Core := c.wr a (if v then c.rd a ||| bit b else c.rd a &&& ~~~(bit b))

/-- Event bits set (Table 2-9, EV). -/
def Core.ev (c : Core) (a : Nat) (m : Word) : Core := c.wr a (c.rd a ||| m)

/-- A 32-bit counter increased, saturating at all ones (Table 2-9, CN). -/
def satAdd (w : Word) (k : Nat) : Word := BitVec.ofNat 32 (min (w.toNat + k) 0xFFFFFFFF)

/-- Whether a page's LIVE and CNT areas are exempt from the stale-state rules (R464, R496). -/
def staleExempt (slot : Nat) : Bool :=
  match pageKind slot with
  | some .dev | some .lev | some .spw | some .hif | some .wrd | some .key | some .snp | some .rsv => true
  | _ => false

/-- A page whose counters stand still and whose LIVE area reads its reset values: STALE and not exempt (R464). -/
def Core.staleHeld (c : Core) (slot : Nat) : Bool := !staleExempt slot && bitOf (c.rd (pg slot + 8)) 1

/-- A CN register increased, unless its page is stale (R464). -/
def Core.cn (c : Core) (a k : Nat) : Core :=
  if k = 0 ∨ c.staleHeld (a / 0x1000) = true then c else c.wr a (satAdd (c.rd a) k)

/-- A counter field of `n` bits increased, saturating. -/
def satFld (w : Word) (lo n k : Nat) : Word := setFld w lo n (min (fld w lo n + k) (2 ^ n - 1))

/-- The registers of [`lo`, `hi`) back at their reset values. -/
def Core.clearRegs (c : Core) (lo hi : Nat) : Core := { c with regs := Sparse.clear lo hi c.regs }

/-- A refused or ignored write recorded on its page (R39, Table 2-8). -/
def Core.ign (c : Core) (a cause : Nat) : Core :=
  let base := pg (a / 0x1000)
  let c := c.wr (base + 0xC) (BitVec.ofNat 32 (0x10000 + cause * 0x1000 + a % 0x1000))
  c.ev (base + 8) (if cause = 1 then bit 8 else if cause = 9 then bit 9 ||| bit 11 else bit 11)

/-- EN of the page at a slot. -/
def Core.en (c : Core) (slot : Nat) : Bool := c.gb (pg slot + 4) 0

/-- STALE of the page at a slot. -/
def Core.stale (c : Core) (slot : Nat) : Bool := c.gb (pg slot + 8) 1

/-- The voted value of a CT register, or the stored one of any other (R44). -/
def Core.voted (c : Core) (a : Nat) : Word :=
  c.rd a ^^^ (Sparse.get (fun _ => 0) c.ct1 a &&& Sparse.get (fun _ => 0) c.ct2 a)

/-- STALE of the page at a slot set; its period starts again (R464). -/
def Core.setStale (c : Core) (slot : Nat) : Core :=
  { c with levS := { c.levS with periods := Sparse.drop slot c.levS.periods } }.sb (pg slot + 8) 1 true

/-- A Spillway source reports a fault, to be sampled at the next Levee tick (R438). -/
def Core.report (c : Core) (k : Nat) : Core := if k ∈ c.reports then c else { c with reports := c.reports ++ [k] }

/-- The boundary of a snapshot has come and PG_SNAP_GEN has not risen for it (R64). -/
def Core.snapping (c : Core) : Bool := c.snpS.sel.isSome || c.snpS.copied

/-- A snapshot request that none can serve (R63, R66). -/
def Core.snapMiss (c : Core) : Core := (c.ev (snp 0x400) (bit 1)).cn (snp 0x504) 1

/-- The next free value of the model, and the counter advanced. -/
def Core.fresh (c : Core) : Core := { c with freeCtr := c.freeCtr + 1 }

/-! ## Tables -/

/-- The key of an image word of a table (R71). -/
def tkey (code word : Nat) : Nat := code * 0x400000 + word

def Core.trd (c : Core) (k : Nat) : Word := Sparse.get (fun _ => 0) c.tbl k
/-- A configuration word of a TRIB or GROUP entry as it acts in the running frame: a write takes effect at the next frame boundary
(R186, R212). -/
def Core.trc (c : Core) (k : Nat) : Word := match c.cfOld.find? (·.1 = k) with | some q => q.2 | none => c.trd k
/-- A configuration word about to be written keeps its present effect until the next frame boundary. -/
def Core.keepCf (c : Core) (k : Nat) : Core :=
  if c.cfOld.any (·.1 = k) then c else { c with cfOld := c.cfOld ++ [(k, c.trd k)] }
def Core.twr (c : Core) (k : Nat) (v : Word) : Core := { c with tbl := Sparse.put (fun _ => 0) c.tbl k v }
def Core.tsf (c : Core) (k lo n v : Nat) : Core := c.twr k (setFld (c.trd k) lo n v)
/-- Event bits set in a table word; an enabled event of a GROUP entry sets its bit of HIF_GRP_SUM (R391). -/
def Core.tev (c : Core) (k : Nat) (m : Word) : Core :=
  let d := c.twr k (c.trd k ||| m)
  if k / 0x400000 = 2 ∧ k % 32 = 14 then
    let g := k % 0x400000 / 32
    if m &&& BitVec.ofNat 32 (fld (c.trc (k - 11)) 18 10) = 0 then d
    else d.ev (hif (0x410 + 4 * (g / 1024))) (bit (g / 32 % 32))
  else d

/-- Word `w` of TRIB entry `i`. -/
def trib (i w : Nat) : Nat := tkey 1 (i * 16 + w)
/-- Word `w` of GROUP entry `g`. -/
def grp (g w : Nat) : Nat := tkey 2 (g * 32 + w)
/-- An XMAP entry of plane 0 (A) or 1 (B). -/
def xmap (plane i : Nat) : Nat := tkey (3 + plane) i
/-- Word `w` of a PMAP entry of a plane. -/
def pmap (plane i w : Nat) : Nat := tkey (5 + plane) (i * 4 + w)
/-- Word `w` of a TTI entry. -/
def tti (i w : Nat) : Nat := tkey 7 (i * 32 + w)
/-- Word `w` of a PRBS entry. -/
def prbs (k w : Nat) : Nat := tkey 8 (k * 64 + w)

/-- The live TRIB counter bank (SNP_STAT.BANK). -/
def Core.bank (c : Core) : Bool := c.gb (snp 0x218) 3

/-- The counter words of the live bank, and of the held one. -/
def Core.tcLive (c : Core) : SMap Word := if c.bank then c.tcB else c.tcA
def Core.tcHeld (c : Core) : SMap Word := if c.bank then c.tcA else c.tcB

/-- A live TRIB counter word changed. -/
def Core.tcUpd (c : Core) (i w : Nat) (f : Word → Word) : Core :=
  if c.bank then { c with tcB := Sparse.upd (fun _ => 0) c.tcB (i * 4 + w) f }
  else { c with tcA := Sparse.upd (fun _ => 0) c.tcA (i * 4 + w) f }

/-- A field of a live TRIB counter word increased, saturating (R188). The fields are numbered 0 BIP_CNT, 1 REI_CNT,
2 PJE_INC, 3 PJE_DEC, 4 LATE, 5 CRC4_ERR, 6 EBIT (Table 6-5). -/
def Core.tcAdd (c : Core) (i fieldNo k : Nat) : Core :=
  if k = 0 then c
  else match fieldNo with
    | 0 => c.tcUpd i 0 (satFld · 0 32 k)
    | 1 => c.tcUpd i 1 (satFld · 0 32 k)
    | 2 => c.tcUpd i 2 (satFld · 0 16 k)
    | 3 => c.tcUpd i 2 (satFld · 16 16 k)
    | 4 => c.tcUpd i 3 (satFld · 0 12 k)
    | 5 => c.tcUpd i 3 (satFld · 12 10 k)
    | _ => c.tcUpd i 3 (satFld · 22 10 k)

/-! ## Ports and objects -/

def Core.port (c : Core) (p : Nat) : Prt := Sparse.get (fun _ => {}) c.ports p
def Core.setPort (c : Core) (p : Nat) (x : Prt) : Core := { c with ports := Sparse.put (fun _ => {}) c.ports p x }
def Core.updPort (c : Core) (p : Nat) (f : Prt → Prt) : Core := c.setPort p (f (c.port p))

/-- PE_DEF_EV bits set, which the port's notice of the boundary carries too (Table 5-24, R360). -/
def Core.peEv (c : Core) (p : Nat) (m : Word) : Core := (c.ev (pe p 0x400) m).updPort p fun x => { x with note := x.note ||| m }

/-- The key of an object (R19). -/
def okey (i sub : Nat) : Nat := i * 4 + sub

def Core.obj (c : Core) (k : Nat) : Obj := Sparse.get (fun _ => {}) c.objs k
def Core.setObj (c : Core) (k : Nat) (x : Obj) : Core := { c with objs := Sparse.put (fun _ => {}) c.objs k x }
def Core.updObj (c : Core) (k : Nat) (f : Obj → Obj) : Core := c.setObj k (f (c.obj k))

/-- TYPE of a TRIB entry (Table 6-4). -/
def Core.ttype (c : Core) (i : Nat) : Nat := fld (c.trc (trib i 0)) 1 4

/-- Whether an index is a Path (R19). -/
def isPath (i : Nat) : Bool := decide (i < 6144)

/-- The Path an entry lies in: itself, or its PARENT (Table 6-5). -/
def Core.pathOf (c : Core) (i : Nat) : Nat := if isPath i then i else fld (c.trc (trib i 3)) 0 13

/-- The port an entry lies on (R19, R74). -/
def Core.portOf (c : Core) (i : Nat) : Nat := c.pathOf i / 64

/-- The object of the Path level that holds an entry: the VC-4, or the VC-3 that TUG3 names (Table 6-4). -/
def Core.pathObj (c : Core) (i : Nat) : Nat :=
  if isPath i then okey i 0
  else
    let q := c.pathOf i
    if c.ttype q = 2 then okey q (fld (c.trc (trib i 3)) 13 2) else okey q 0

/-- Every object in service, by key. -/
def Core.inService (c : Core) : List Nat := (c.objs.filter (·.2.svc)).map (·.1)

/-- The port an entry's objects are received on: its own, or the selected PPORT of an MSP pair (R299). -/
def Core.rxPort (c : Core) (i : Nat) : Nat :=
  let p := c.portOf i
  match c.mspRx.find? (·.1 = p) with | some q => q.2 | none => p

/-- An entry that carries received overhead: a Path but no continuation, or a Tributary with DIR = 0 (R179, Table 6-5). -/
def Core.received (c : Core) (i : Nat) : Bool :=
  if isPath i then c.ttype i != 6 else fld (c.trc (trib i 0)) 11 1 = 0

/-- Every object in service received on a port. -/
def Core.onPort (c : Core) (p : Nat) : List Nat :=
  c.inService.filter fun k => c.rxPort (k / 4) = p ∧ (isPath (k / 4) || c.received (k / 4)) = true

/-- The PM second of a port and of all its objects made suspect (R168). -/
def Core.suspectPort (c : Core) (p : Nat) : Core :=
  let c := c.updPort p fun x => { x with pm := { x.pm with suspect := true } }
  (c.inService.filter fun k => c.portOf (k / 4) = p).foldl (fun c k =>
    c.updObj k fun x => { x with pm := { x.pm with suspect := true } }) c

/-- Every lower-order object in service in a Path object. -/
def Core.inPath (c : Core) (k : Nat) : List Nat :=
  c.inService.filter fun j => decide (6144 ≤ j / 4) && decide (c.pathObj (j / 4) = k)

/-- PE_STATE.STATE: 0 OFF, 1 LISTEN, 2 SENSE, 3 HUNT, 4 PRESYNC, 5 SYNC, 6 MFSYNC (Table 3-4). -/
def Core.pst (c : Core) (p : Nat) : Nat := c.gf (pe p 0x200) 0 3

/-- The rate in use: PE_SENSED.RATE while it is valid. -/
def Core.rate (c : Core) (p : Nat) : Nat := if c.gb (pe p 0x208) 8 then c.gf (pe p 0x208) 0 3 else 0

/-- A byte of the HBM; unlisted bytes read zero (R241). -/
def memRead (m : List Host.Cell) (a : Nat) : Byte := Sparse.get (fun _ => 0) m a

/-- Bytes of the HBM from an address on. -/
def memBytes (m : List Host.Cell) (a n : Nat) : List Byte := (List.range n).map fun k => memRead m (a + k)

/-- A byte of the HBM written. -/
def memPut (m : List Host.Cell) (a : Nat) (b : Byte) : List Host.Cell := Sparse.put (fun _ => 0) m a b

/-- Bytes written from an address on. -/
def memWrite (m : List Host.Cell) (a : Nat) : List Byte → List Host.Cell
  | [] => m
  | b :: bs => memWrite (memPut m a b) (a + 1) bs

/-- One effect on the HBM. -/
def MemOp.run (m : List Host.Cell) : MemOp → List Host.Cell
  | .write a bs => memWrite m a bs
  | .clear lo hi => Sparse.clear lo hi m

/-- The effects of a command on the HBM, in order. -/
def memRun (m : List Host.Cell) (ops : List MemOp) : List Host.Cell := ops.foldl MemOp.run m

/-- The canonical form of the HBM's bytes. -/
abbrev Memory.wf (m : List Host.Cell) : Prop := Sparse.wf (fun _ => (0 : Byte)) m = true

/-- A command that changes the block and not the HBM: the next state. -/
def State.on (s : State) (f : Core → Core) : Host.Outcome State Fault Refusal := .next { s with core := f s.core }

/-- A command that names what the block has found: it has its effect where the block holds just that, and none elsewhere (log entry 6). -/
def State.onSeen (s : State) (seen : Core → Bool) (f : Core → Core) : Host.Outcome State Fault Refusal :=
  s.on fun c => if seen c then f c else c

/-- A byte of the HBM that an effect writes. -/
def MemOp.hits (a : Nat) : MemOp → Bool
  | .write b bs => decide (b ≤ a) && decide (a < b + bs.length)
  | .clear lo hi => decide (lo ≤ a) && decide (a < hi)

/-- Cells rewritten whole hold good words again (R240). -/
def Core.rewrote (c : Core) (ops : List MemOp) : Core :=
  let bad (k : Nat) : Bool := (List.range 32).any fun j => !(ops.any (MemOp.hits (32 * k + j)))
  if c.rsvS.badCells = [] then c else { c with rsvS := { c.rsvS with badCells := c.rsvS.badCells.filter bad } }

/-- A command that may also read the HBM and have effects on it: the next state. -/
def State.onMem (s : State) (f : Core → List Host.Cell → Core × List MemOp) : Host.Outcome State Fault Refusal :=
  let r := f s.core s.hbm
  .next { s with core := r.1.rewrote r.2, hbm := memRun s.hbm r.2 }

/-- One bit into a CRC register of `w` bits. -/
def crcStep (w poly r : Nat) (b : Bool) : Nat :=
  let top := r / 2 ^ (w - 1) % 2 = 1
  let r := r * 2 % 2 ^ w
  if top != b then r ^^^ poly else r

/-- The low `w` bits of a number in reverse order. -/
def reflect (w v : Nat) : Nat := (List.range w).foldl (fun a k => a * 2 + v / 2 ^ k % 2) 0

/-- A CRC register after bytes, taken least significant bit first where `refl` holds. -/
def crcRun (w poly r : Nat) (refl : Bool) (bs : List Byte) : Nat :=
  bs.foldl (fun r (b : Byte) => (List.range 8).foldl (fun r k => crcStep w poly r (b.getLsbD (if refl then k else 7 - k))) r) r

/-- A CRC with initial value and final XOR all ones (R170, R283). -/
def crcOnes (w poly : Nat) (refl : Bool) (bs : List Byte) : Nat :=
  let r := crcRun w poly (2 ^ w - 1) refl bs
  (if refl then reflect w r else r) ^^^ (2 ^ w - 1)

/-- A number as `n` bytes, least significant first. -/
def le (n v : Nat) : List Byte := (List.range n).map fun k => BitVec.ofNat 8 (v / 2 ^ (8 * k))

/-- Bytes as a number, least significant first. -/
def unle (bs : List Byte) : Nat := bs.foldr (fun b a => a * 256 + b.toNat) 0

/-- A fold over the numbers below `n`. -/
def forN {α : Type} (n : Nat) (f : Nat → α → α) (a : α) : α := (List.range n).foldl (fun a k => f k a) a

/-- A fold over a list. -/
def forL {α β : Type} (l : List β) (f : β → α → α) (a : α) : α := l.foldl (fun a x => f x a) a

end Sys2Proof.Machine

namespace Sys2Proof

/-- The key of an object a command names. -/
def ObjRef.key (o : ObjRef) : Nat := Machine.okey o.idx.val o.sub.val

end Sys2Proof
end

