-- ==== Sys2Proof/Machine/Flags.lean ====
section
/-! DEFINITION. Defect reporting: ranks and suppression (R153, R154), signal fail (R155), the reported state in PE_DEF and
the TRIB entries, consequent actions (R160–R162). -/

namespace Sys2Proof

open Machine Defect

/-- The AIS enable bit of a defect in PE_CONSEQ (Table 5-10, Table 5-21); DEG has none. -/
def Defect.aisBit : Defect → Option Nat
  | los => some 0 | lof => some 1 | oof => some 1 | otuLom => some 2 | smTim => some 3
  | oduAis => some 2 | oduOci => some 2 | oduLck => some 2 | opuPlm => some 4 | cLof => some 2 | cOof => some 2
  | msAis => some 5 | rsTim => some 6 | msExc => some 7 | msDeg => none
  | auAis => some 8 | auLop => some 8 | hpUneq => some 9 | hpTim => some 10 | hpPlm => some 11 | hpExc => some 12
  | hpDeg => none
  | tuAis => some 13 | tuLop => some 13 | tuLom => some 13 | lpUneq => some 14 | lpTim => some 15 | lpPlm => some 16
  | lpExc => some 17 | lpDeg => none

/-- Whether the defect's AIS enable bit is 1 in a PE_CONSEQ value. -/
def Defect.aisOn (cq : Word) (d : Defect) : Bool := match d.aisBit with | some b => bitOf cq b | none => false

def Defect.isExc : Defect → Bool | msExc => true | hpExc => true | lpExc => true | _ => false
def Defect.isDeg : Defect → Bool | msDeg => true | hpDeg => true | lpDeg => true | _ => false

/-- UNEQ, TIM and PLM (R155). -/
def Defect.isSoft : Defect → Bool
  | hpUneq | lpUneq | smTim | rsTim | hpTim | lpTim | opuPlm | hpPlm | lpPlm => true
  | _ => false

/-- Whether a reported defect suppresses every lower rank on all its object contains (R154). -/
def Defect.wide (cq : Word) (d : Defect) : Bool := !d.isDeg && (!d.isExc || d.aisOn cq)

/-- Whether a reported defect counts for signal fail (R155). -/
def Defect.fails (cq : Word) (d : Defect) : Bool :=
  !d.isDeg && (!d.isExc || d.aisOn cq) && (!d.isSoft || d.aisOn cq)

/-- The five defects that send no RDI (R162). -/
def Defect.silent : Defect → Bool | oof | cOof | opuPlm | hpPlm | lpPlm => true | _ => false

end Sys2Proof

namespace Sys2Proof.Machine

open Defect

/-- The defects of a port, a Path and a Tributary in rank order (Table 5-10). -/
def portRanks : List Defect :=
  [los, lof, oof, otuLom, smTim, oduAis, oduOci, oduLck, opuPlm, cLof, cOof, msAis, rsTim, msExc, msDeg]
def pathRanks : List Defect := [auAis, auLop, hpUneq, hpTim, hpPlm, hpExc, hpDeg, tuLom]
def tribRanks : List Defect := [tuAis, tuLop, lpUneq, lpTim, lpPlm, lpExc, lpDeg]

/-- The reported ones of an object's defects, in rank order: nothing after a wide one, no DEG after an EXC (R154). -/
def cutRanks (cq : Word) (present : List Defect) (ranks : List Defect) : List Defect :=
  (ranks.foldl (fun (acc : List Defect × Bool × Bool) d =>
    if acc.2.1 || !(present.contains d) || (acc.2.2 && d.isDeg) then acc
    else (acc.1 ++ [d], d.wide cq, acc.2.2 || d.isExc)) ([], false, false)).1

/-- Whether the port reports at all: enabled and not held in OFF (R159). -/
def Core.portLive (c : Core) (p : Nat) : Bool := c.en (0x20 + p) && !c.gb (pe p 0x200) 8

/-- What a port reports. -/
def Core.portReport (c : Core) (p : Nat) : List Defect :=
  if c.portLive p then cutRanks (c.rd (pe p 0x68)) (c.port p).present portRanks else []

/-- Whether a Tributary is a TU-11, TU-12 or TU-2, the scope of TU-LOM (Table 5-10). -/
def Core.isTu (c : Core) (i : Nat) : Bool := !isPath i && (c.ttype i = 8 || c.ttype i = 9 || c.ttype i = 10)

/-- What a Path reports, given what its port reports. -/
def pathReport (cq : Word) (port : List Defect) (present : List Defect) : List Defect :=
  if port.any (·.wide cq) then [] else cutRanks cq present pathRanks

/-- What a Tributary reports, given what its port and Path report; TU-LOM takes its rank on a TU-11, TU-12 or TU-2. -/
def tribReport (cq : Word) (port path : List Defect) (tu : Bool) (present : List Defect) : List Defect :=
  if port.any (·.wide cq) || (path.filter (· ≠ tuLom)).any (·.wide cq) then []
  else
    let own := cutRanks cq present tribRanks
    if tu && path.contains tuLom then own.filter (fun d => d = tuAis || d = tuLop) else own

/-- What governs an object: the reported defects on it and on what contains it (R155, R160). TU-LOM governs the
Tributaries in its scope, not the Path. -/
def Core.governs (c : Core) (k : Nat) : List Defect :=
  let i := k / 4
  let port := (c.port (c.rxPort i)).reported
  let path := (c.obj (c.pathObj i)).reported
  if isPath i then port ++ ((c.obj k).reported.filter (· ≠ tuLom))
  else port ++ (path.filter (fun d => d ≠ tuLom || c.isTu i)) ++ (c.obj k).reported

/-- Signal fail of a port and of an object (R155). -/
def Core.portSf (c : Core) (p : Nat) : Bool := (c.port p).reported.any (·.fails (c.rd (pe p 0x68)))
def Core.objSf (c : Core) (k : Nat) : Bool := (c.governs k).any (·.fails (c.rd (pe (c.rxPort (k / 4)) 0x68)))

/-- Signal fail but for the object's own EXC (R501). -/
def Core.portSfX (c : Core) (p : Nat) : Bool :=
  ((c.port p).reported.filter (· ≠ msExc)).any (·.fails (c.rd (pe p 0x68)))
def Core.objSfX (c : Core) (k : Nat) : Bool :=
  let own := if isPath (k / 4) then hpExc else lpExc
  ((c.governs k).filter (· ≠ own)).any (·.fails (c.rd (pe (c.rxPort (k / 4)) 0x68)))

/-- PE_DEF from the reported defects and remote indications (Table 5-23). -/
def defWord (rep : List Defect) (rem : List Remote) : Word :=
  let ds : List Defect :=
    [los, oof, lof, otuLom, smTim, oduAis, oduOci, oduLck, opuPlm, cOof, cLof, msAis, rsTim, msExc, msDeg]
  let rs : List Remote := [.msRdi, .smBdi, .pmBdi]
  bitsWhere 18 fun b => if b < 15 then rep.contains (ds.getD b los) else rem.contains (rs.getD (b - 15) .msRdi)

/-- The status bits of an object: AIS, LOP, UNEQ, TIM, PLM, EXC, DEG, RDI and SF, from bit 0 (Table 6-5, W5 [30:22]). -/
def statusBits (rep : List Defect) (rdi sf : Bool) : Nat :=
  let h (a b : Defect) := rep.contains a || rep.contains b
  (bitsWhere 9 fun
    | 0 => h auAis tuAis | 1 => h auLop tuLop | 2 => h hpUneq lpUneq | 3 => h hpTim lpTim | 4 => h hpPlm lpPlm
    | 5 => h hpExc lpExc | 6 => h hpDeg lpDeg | 7 => rdi | _ => sf).toNat

/-- The table word that shows an object's status: W5, or W3–W5 of an AU-3 entry (Table 6-6). -/
def Core.statKey (c : Core) (k : Nat) : Nat :=
  if c.ttype (k / 4) = 2 ∧ k % 4 ≠ 0 then trib (k / 4) (2 + k % 4) else trib (k / 4) 5

/-- Change events of W6 for changed status bits (Tables 6-5 and 6-6). -/
def Core.defChg (c : Core) (k : Nat) (ch : Nat) (rfi lom : Bool) : Core :=
  let i := k / 4
  let m :=
    if c.ttype i = 2 ∧ isPath i then
      BitVec.ofNat 32 (ch <<< (9 * (k % 4 - 1))) ||| (if lom then bit 27 else 0)
    else BitVec.ofNat 32 (ch % 256 + (ch / 256) * 512) ||| (if rfi then bit 8 else 0) |||
      (if lom && isPath i then bit 12 else 0)
  if m = 0 then c else c.tev (trib i 6) m

/-- The backward RDI an object sends (R162). -/
def Core.sendsRdi (c : Core) (k : Nat) : Bool :=
  let cq := c.rd (pe (c.rxPort (k / 4)) 0x68)
  bitOf cq (if isPath (k / 4) then 22 else 24) && (c.governs k).any fun d => d.fails cq && !d.silent

/-- The reported state of one object brought up to date (R153), with its events. -/
def Core.refreshObj (c : Core) (k : Nat) : Core :=
  let i := k / 4
  let p := c.rxPort i
  let cq := c.rd (pe p 0x68)
  let x := c.obj k
  let port := (c.port p).reported
  let live := c.portLive p
  let rep := if !live then []
    else if isPath i then pathReport cq port x.present
    else tribReport cq port (c.obj (c.pathObj i)).reported (c.isTu i) x.present
  let c := c.setObj k { x with reported := rep }
  let sf := live && c.objSf k
  let ais := live && (c.governs k).any (·.aisOn cq)
  let rdi := live && !sf && (x.remote.contains .hpRdi || x.remote.contains .lpRdi)
  let rfi := live && !sf && x.remote.contains .lpRfi
  let key := c.statKey k
  let old := c.trd key
  let st := statusBits rep rdi sf
  let lomOld := bitOf old 13
  let lom := if isPath i then rep.contains tuLom else ((c.obj (c.pathObj i)).reported.contains tuLom)
  let rfiOld := bitOf (c.trd (trib i 6)) 16
  let ch := st ^^^ fld old 22 9
  let c := c.twr key (setFld (setFld old 22 9 st) 13 1 (if lom then 1 else 0))
  let c := if isPath i then c else c.tsf (trib i 6) 16 1 (if rfi then 1 else 0)
  let c := if live then c.defChg k ch (rfi != rfiOld && !isPath i) (lom != lomOld) else c
  let c := if live && isPath i && bitOf (BitVec.ofNat 32 ch) 0 then c.ev (pe p 0x40C) 1 else c
  let c := if live && isPath i && bitOf (BitVec.ofNat 32 ch) 1 then c.ev (pe p 0x40C) 2 else c
  c.updObj k fun x => { x with aisMark := ais, txRdi := live && c.sendsRdi k, txRei := if live then x.txRei else 0 }

/-- The reported state of a port and of all it contains brought up to date at a boundary (R153, R154): Paths first, then
what they contain. SM-BDI follows ranks 1 to 5 but OOF: DESIGN CHOICE, R162 names the ranks and Table 5-10 gives OOF no backward
indication. -/
def Core.refresh (c : Core) (p : Nat) : Core :=
  let x := c.port p
  let live := c.portLive p
  let rep := c.portReport p
  let c := c.setPort p { x with reported := rep }
  let sf := c.portSf p
  let rem := if live && !sf then x.remote else []
  let old := c.rd (pe p 0x204)
  let new := defWord rep rem
  let c := c.wr (pe p 0x204) new
  let c := if live then c.peEv p (old ^^^ new) else c
  let cq := c.rd (pe p 0x68)
  let rdi := rep.any fun d => d.fails cq && !d.silent
  let c := c.updPort p fun x => { x with
    tx := { x.tx with
      msRdi := live && ((bitOf cq 20 && rdi) || c.gb (pe p 0x64) 9)
      msAis := c.gb (pe p 0x64) 8
      smBdi := live && isOtu (c.rate p) &&
        ((bitOf cq 26 && rep.any [los, lof, otuLom, smTim].contains) || c.gb (pe p 0x64) 12)
      pmBdi := live && isOtu (c.rate p) && bitOf cq 26 && rep.any [oduAis, oduOci, oduLck].contains } }
  let ks := c.onPort p
  let c := forL (ks.filter fun k => isPath (k / 4)) (fun k c => c.refreshObj k) c
  forL (ks.filter fun k => !isPath (k / 4)) (fun k c => c.refreshObj k) c

/-- A port disabled reports nothing from the write on, and its objects send no backward indication (R159); the AIS marks of their data
change at a boundary only (R28). -/
def Core.silence (c : Core) (p : Nat) : Core :=
  forL (c.onPort p) (fun k d => d.updObj k fun x => { x with aisMark := (c.obj k).aisMark }) (c.refresh p)

/-- A defect marked present or absent on its object. -/
def markDefect (l : List Defect) (d : Defect) (on : Bool) : List Defect :=
  if on then (if l.contains d then l else l ++ [d]) else l.filter (· ≠ d)

/-- The port a target lies on. -/
def Core.targetPort (c : Core) : Target → Nat
  | .port p => p.val
  | .obj o => c.rxPort o.idx.val

/-- A defect declared or cleared at a boundary, and the reporting that follows (R153). -/
def Core.setDefect (c : Core) (t : Target) (d : Defect) (on : Bool) : Core :=
  let c := match t with
    | .port p => c.updPort p.val fun x => { x with present := markDefect x.present d on }
    | .obj o => c.updObj o.key fun x => { x with present := markDefect x.present d on }
  c.refresh (c.targetPort t)

end Sys2Proof.Machine
end

