-- ==== Sys2Proof/Machine/Port.lean ====
section
/-! DEFINITION. Port states, energy, generation sensing and the transmit lane (Ports, Lanes and Generation Sensing). -/

namespace Sys2Proof.Machine

/-- Listening armed for a lane (section 3.3; LEV_LISTEN acts while the LEV page's EN = 1). -/
def Core.listening (c : Core) (p : Nat) : Bool := c.en 1 && c.gb (lev (0xB00 + 4 * (p / 32))) (p % 32)

/-- A port held in OFF or not armed at all (Table 3-4). -/
def Core.portOff (c : Core) (p : Nat) : Bool := (c.port p).dis || (!c.en (0x20 + p) && !c.listening p)

/-- Filtered ENERGY of a port (R82), mirrored in LEV_ENERGY. -/
def Core.energy (c : Core) (p : Nat) : Bool := c.gb (lev (0x210 + 4 * (p / 32))) (p % 32)

/-- A bank is up: its island on, and awake (R25, BK_STATE.AWAKE). -/
def Core.bankOn (c : Core) (b : Nat) : Bool := c.gb (lev 0x204) (7 + b) && c.gb (bk b 0x200) 0

/-- ENERGY given a value in the LEV page and in PE_STATE and BK_ENERGY, which show it only while the bank is up. -/
def Core.setEnergy (c : Core) (p : Nat) (v : Bool) : Core :=
  let c := c.sb (lev (0x210 + 4 * (p / 32))) (p % 32) v
  if c.bankOn (p / 16) || !v then (c.sb (pe p 0x200) 4 v).sb (bk (p / 16) 0x20C) (p % 16) v else c

/-- Internal loopback in effect on an enabled port (R81, R497). -/
def Core.loopInt (c : Core) (p : Nat) : Bool :=
  c.en (0x20 + p) && (c.gf (pe p 0x40) 2 2 = 1 || c.gf (pe p 0x40) 2 2 = 2 ||
    (c.en (0x10 + p / 16) && c.gb (bk (p / 16) 0x44) 0))

/-- The port runs from PE_FMT: forced, or in internal loopback (R81, R96). -/
def Core.forced (c : Core) (p : Nat) : Bool := c.gb (pe p 0x48) 0 || c.loopInt p

/-- A valid forced setting (R96). -/
def Core.fmtOk (c : Core) (p : Nat) : Bool :=
  let r := c.gf (pe p 0x48) 1 3
  let cl := c.gf (pe p 0x48) 4 2
  decide (1 ≤ r ∧ r ≤ 6) && (cl = 1 || cl = 2)

/-- The accepted rates of a sweep in order of attempt (R89). -/
def Core.sweepOrder (c : Core) (p est : Nat) : List Nat :=
  let ok r := decide (1 ≤ r ∧ r ≤ 6) && c.gb (pe p 0x44) (r - 1)
  (if ok est then [est] else []) ++ ([6, 4, 5, 3, 2, 1].filter fun r => ok r && r != est)

/-- TRY_RATE shown (Table 3-10). -/
def Core.showTry (c : Core) (p r : Nat) : Core := c.sf (pe p 0x200) 12 3 r

/-- A sweep failed (R94). -/
def Core.sweepFail (c : Core) (p : Nat) : Core :=
  let c := c.ev (pe p 0x408) (bit 4)
  let c := c.sf (pe p 0x208) 16 8 (min (c.gf (pe p 0x208) 16 8 + 1) 255)
  (c.updPort p fun x => { x with stage := .wait }).showTry p 0

/-- The next attempts of a sweep; with none left the sweep has failed (R90, R94). -/
def Core.nextAttempt (c : Core) (p : Nat) : List Nat → Core
  | [] => c.sweepFail p
  | r :: rs => ((c.updPort p fun x => { x with stage := .attempt r 0 rs, locked := false }).sb (pe p 0x200) 5 false).showTry p r

/-- A port in SENSE starts: a forced setting waits for its lock (R96), an invalid one stays with FORCE_BAD set, and
otherwise a sweep starts with its estimate or, with EST_EN = 0, with its first attempt (R88, R89). -/
def Core.startSense (c : Core) (p : Nat) : Core :=
  let c := (c.sf (pe p 0x200) 16 12 0).updPort p fun x => { x with found := none, huntF := 0 }
  if c.forced p then
    if c.fmtOk p then c.updPort p fun x => { x with stage := .forced }
    else (c.updPort p fun x => { x with stage := .none }).ev (pe p 0x408) (bit 5)
  else if c.gb (pe p 0x44) 9 then c.updPort p fun x => { x with stage := .estimate 0 }
  else c.nextAttempt p (c.sweepOrder p 0)

/-- What a port reads from its line frames forgotten: parity and trace in progress, the runs toward an acceptance or a detection,
the client stream, and frames of the DCC taps, which end as bad (R148, R151, R152, R170). The REI and BEI it sends are 0, as no
block is received (R142). -/
def Prt.deaf (x : Prt) : Prt :=
  { x with
    rxB1 := none, rxB2 := none, rxBips := [], client := [], j0 := {}, sm := {}, dccR := x.dccR.stop, dccM := x.dccM.stop
    kRun := 0, sRun := 0, k2Run := 0, notAisRun := 0, notRdiRun := 0, statRun := 0, not7 := 0, not6 := 0, not5 := 0
    smBdiRun := 0, pmBdiRun := 0, ptRun := 0, clientF := 0, clientSs := []
    tx := { x.tx with msRei := 0, smBei := 0, pmBei := 0 } }

/-- Alignment and sensing abandoned (R83, R84). The OTU LOM counts start again: DESIGN CHOICE, R121 does not say what becomes of
them where a port enters SENSE or LISTEN. -/
def Core.abandon (c : Core) (p : Nat) : Core :=
  ((c.updPort p fun x => { x.deaf with
      stage := .none, locked := false, found := none, huntF := 0, mfas := {}
      fr := { exits := x.fr.exits, outRun := x.fr.outRun, inRun := x.fr.inRun, shown := x.fr.shown }
      cl := { exits := x.cl.exits, outRun := x.cl.outRun, inRun := x.cl.inRun, shown := x.cl.shown } }).showTry p 0).sb
    (pe p 0x200) 5 false

/-- The shown port state set. -/
def Core.setPst (c : Core) (p st : Nat) : Core := c.sf (pe p 0x200) 0 3 st

/-- SS bits of eight line frames resolved to a client format: 1 SDH, 2 SONET, none where they are unclear (R91). -/
def ssClear (ss : List (Fin 4)) : Option Nat :=
  if ss.length = 8 ∧ ss.all (· = 2) then some 1 else if ss.length = 8 ∧ ss.all (· = 0) then some 2 else none

/-- The choice of PE_SENSE_CFG.SS_UNK: SDH, SONET, or none where it fails the attempt (R91, Table 3-8). -/
def Core.ssUnk (c : Core) (p : Nat) : Option Nat :=
  match c.gf (pe p 0x44) 6 2 with | 0 => some 1 | 1 => some 2 | _ => none

/-- The client format a successful attempt gives, with its provisional mark (R91, R92); none where it fails. -/
def Core.attemptClient (c : Core) (p rate : Nat) (ss : List (Fin 4)) : Option (Nat × Bool) :=
  if isOtu rate then some ((c.ssUnk p).getD 1, true)
  else match ssClear ss with
    | some k => some (k, false)
    | none => (c.ssUnk p).map fun k => (k, false)

/-- A published sense result (R95, R96). The last valid result that CHANGED compares with is kept over EN = 0 and a re-enable: DESIGN
CHOICE, the spec does not say. -/
def Core.publish (c : Core) (p : Nat) (f : Found) : Core :=
  let x := c.port p
  let old := c.rd (pe p 0x208)
  let w := setFld (setFld (setFld (setFld (setFld old 0 3 f.rate) 4 2 f.client) 6 1 (if f.prov then 1 else 0)) 7 1
    (if f.inv then 1 else 0)) 8 1 1
  let c := c.wr (pe p 0x208) (setFld w 16 8 0)
  let changed := match x.lastValid with | some q => q != (f.rate, f.client) | none => false
  let c := c.ev (pe p 0x408) ((if f.inv then bit 8 else 0) ||| bit 2 ||| (if changed then bit 3 else 0))
  let c := c.updPort p fun x => { x with
    stage := .none, found := none, huntF := 0, clientF := 0, mfas := {}
    fr := { x.fr with cands := (f.pos.map fun q => (q, 0)).toList, excl := [], lock := none, ready := none, cyc := 0,
                      errRun := 0, prob := 0 }
    cl := { x.cl with cands := [], excl := [], lock := none, ready := none, cyc := 0, errRun := 0, prob := 0 } }
  (c.showTry p 0).setPst p 3

/-- The transmit lane's rate: the sensed or forced one from HUNT on, PE_FMT.RATE early with TX_EARLY, else none (R99). -/
def Core.txWant (c : Core) (p : Nat) : Nat :=
  let st := c.pst p
  if 3 ≤ st then c.rate p
  else if (st = 1 || st = 2) && c.en (0x20 + p) && c.gb (pe p 0x64) 0 && c.fmtOk p then c.gf (pe p 0x48) 1 3
  else 0

/-- Frames a transmit lane settles for after a start or a change of rate, the most that R99 allows. -/
def txSettleFrames : Nat := 8

/-- The transmit lane at a boundary (R99, R102, R305, Table 3-3). -/
def Core.txLane (c : Core) (p : Nat) : Core :=
  let x := c.port p
  let want := c.txWant p
  let settle := if want = x.txRate then x.txSettle - 1 else if want = 0 then 0 else txSettleFrames
  let lb := if c.en (0x10 + p / 16) && c.gb (bk (p / 16) 0x44) 0 then 1 else c.gf (pe p 0x40) 2 2
  let act := !x.dis && !x.sq && !c.sluS.mateIdle &&
    (if lb = 1 ∧ c.en (0x20 + p) then false
     else if lb = 3 ∧ c.en (0x20 + p) then c.gb (pe p 0x200) 5
     else decide (want ≠ 0) && decide (settle = 0) && c.bankOn (p / 16))
  let c := c.setPort p { x with txRate := want, txSettle := settle }
  let c := c.sb (pe p 0x200) 6 act
  let c := c.sb (pe p 0x200) 7 x.sq
  let c := c.sb (pe p 0x200) 8 x.dis
  let c := c.sb (pe p 0x200) 9 (c.en (0x20 + p) && c.forced p)
  let c := c.sb (pe p 0x200) 10 (c.en (0x20 + p) && lb != 0)
  (c.sb (bk (p / 16) 0x204) (p % 16) act).sb (bk (p / 16) 0x208) (p % 16) (c.gb (pe p 0x200) 5)

/-- The framer's state shown at a boundary, for a port that is not leaving alignment: SYNC first, then MFSYNC while the
multiframe requirement holds (R105–R107). -/
def Core.alignShown (c : Core) (p : Nat) (req : Bool) : Nat :=
  let f := (c.port p).fr
  if f.lock.isSome then (if req && !f.fresh && 5 ≤ c.pst p then 6 else 5)
  else if f.cands.any (fun q => 1 ≤ q.2) then 4 else 3

/-- A port's state at a frame boundary (Table 3-4, R82–R84, R95–R97, R102). `req` says whether the multiframe
requirement holds. EN written 0 since the last boundary sends the port through OFF or LISTEN although EN is 1 again, and a fall of
ENERGY sends it to LISTEN although ENERGY is back. A port whose bank is not up stays in OFF or LISTEN (R86). SWEEP_AGE counts in SENSE, for a forced or invalid setting too, and keeps its last
value outside SENSE: DESIGN CHOICE, R101 does not say. -/
def Core.portState (c : Core) (p : Nat) (req : Bool) : Core :=
  let dis := c.gb (pe p 0x70) 1
  let back := (c.port p).dis && !dis
  let cut := (c.port p).cut
  let fell := (c.port p).fell
  let c := c.updPort p fun x => { x with dis := dis, sq := c.gb (pe p 0x70) 0, cut := false, fell := false, live := false }
  let c := c.updPort p fun x => { x with live := !c.portOff p }
  let c := if back then
      (((c.clearRegs (pe p 0x200) (pe p 0x400)).abandon p).setStale (0x20 + p)).suspectPort p
    else c
  let en := c.en (0x20 + p)
  let c := if en && !cut then c else c.sb (pe p 0x208) 8 false
  let c := if c.gb (pe p 0x44) 9 then c else c.sf (pe p 0x208) 9 3 0
  if c.portOff p then
    ((c.abandon p).setEnergy p false).setPst p 0 |>.updPort p fun x => { x with eFilt := 0 }
  else if !en || cut then (c.abandon p).setPst p 1
  else
    let c := if c.loopInt p then c.setEnergy p true else c
    if !c.energy p || (fell && !c.loopInt p) || !c.bankOn (p / 16) then (c.abandon p).setPst p 1
    else if c.pst p ≤ 1 then (c.setPst p 2).startSense p
    else if c.pst p = 2 then
      match (c.port p).found with
      | some f => c.publish p f
      | none => c.sf (pe p 0x200) 16 12 (min (c.gf (pe p 0x200) 16 12 + 1) 0xFFF) |>.updPort p fun x =>
          { x with
            stage := match x.stage with
              | .estimate n => .estimate (n + 1)
              | .attempt r n l => .attempt r (n + 1) l
              | s => s
            locked := match x.stage with
              | .attempt _ n _ => x.locked || (decide (n < 16) && c.gb (pe p 0x200) 5)
              | _ => false }
    else
      let st := c.alignShown p req
      (c.setPst p st).updPort p fun x => { x with
        fr := { x.fr with fresh := false }
        huntF := if st ≤ 4 && decide (c.pst p ≤ 4) then x.huntF + 1 else 0
        lastValid := if 5 ≤ st then some (c.rate p, c.gf (pe p 0x208) 4 2) else x.lastValid }

/-- The rates that need a PLL: transmitted, or under attempt (R75). -/
def Core.pllUse (c : Core) (b : Nat) (fam : Nat → Bool) : Bool :=
  (List.range 16).any fun k =>
    let p := 16 * b + k
    fam (c.port p).txRate || fam (c.gf (pe p 0x200) 12 3) || (decide (3 ≤ c.pst p) && fam (c.rate p)) ||
      ((c.port p).stage = .forced && fam (c.gf (pe p 0x48) 1 3))

/-- The bank page at a boundary: which PLLs run and are locked (R75, R497). -/
def Core.bankShow (c : Core) (b : Nat) : Core :=
  let keep k := c.en (0x10 + b) && c.gb (bk b 0x40) k
  let sa := keep 0 || c.pllUse b fun r => decide (1 ≤ r ∧ r ≤ 4)
  let o1 := keep 1 || c.pllUse b (· = 5)
  let o2 := keep 2 || c.pllUse b (· = 6)
  let c := c.sf (bk b 0x210) 0 3 ((if sa then 1 else 0) + (if o1 then 2 else 0) + (if o2 then 4 else 0))
  ((c.sb (bk b 0x200) 1 sa).sb (bk b 0x200) 2 o1).sb (bk b 0x200) 3 o2

/-- ENERGY becomes 1 after 64 consecutive ticks of energy (R82); the event bits are set as the page is up (R86). -/
def Core.energyUp (c : Core) (p : Nat) : Core :=
  if (c.port p).live && !c.energy p && decide (64 ≤ (c.port p).eFilt) then
    let c := (c.setEnergy p true).updPort p fun x => { x with eFilt := 0 }
    let c := c.ev (lev (0x408 + 4 * (p / 32))) (bit (p % 32))
    if c.bankOn (p / 16) then c.ev (pe p 0x408) (bit 0) else c
  else c

/-- ENERGY becomes 0 after 64 consecutive ticks without energy (R82); the port follows at the next boundary (R83). A
wake record of the bank is withdrawn once no cause is left (R32). -/
def Core.energyDown (c : Core) (p : Nat) : Core :=
  if (c.port p).live && c.energy p && decide (64 ≤ (c.port p).eFilt) && !c.loopInt p then
    let c := (c.setEnergy p false).updPort p fun x => { x with eFilt := 0, fell := x.fell || decide (2 ≤ c.pst p) }
    let c := c.ev (lev (0x408 + 4 * (p / 32))) (bit (p % 32))
    if c.bankOn (p / 16) then c.ev (pe p 0x408) (bit 1) else c
  else c

/-- A bank wake cause of R25 holds: an enabled port not held in OFF, or energy on a listening port. -/
def Core.bankCause (c : Core) (b : Nat) : Bool :=
  (List.range 16).any fun k =>
    let p := 16 * b + k
    (c.en (0x20 + p) && !c.gb (pe p 0x70) 1) || (c.listening p && !(c.port p).dis && c.energy p)

/-- The line rates of Table 3-1 in kb/s. -/
def rateKbps (r : Nat) : Nat :=
  match r with | 1 => 155520 | 2 => 622080 | 3 => 2488320 | 4 => 9953280 | 5 => 2666057 | 6 => 10709225 | _ => 0

/-- The rate code within ±2 % of a measured rate in kb/s, 0 where there is none (R88). -/
def classify (kbps : Nat) : Nat :=
  ([1, 2, 3, 4, 5, 6].find? fun r => decide (50 * (rateKbps r - kbps) ≤ kbps) && decide (50 * (kbps - rateKbps r) ≤ kbps)).getD 0

/-- The estimate of a sweep ends after its 8 frames; the first attempt starts (R88, R89). A line of scrambled data changes level at
every second bit in the mean, so `n` transitions in 1 ms are a rate of 2n kb/s (DEDUCED). -/
def Core.estimateEnd (c : Core) (p n : Nat) : Core :=
  match (c.port p).stage with
  | .estimate k =>
    if 8 ≤ k then
      let e := classify (2 * n)
      (c.sf (pe p 0x208) 9 3 e).nextAttempt p (c.sweepOrder p e)
    else c
  | _ => c

/-- Three framing patterns in succession at exactly the frame distance of a rate: the bit position of the first, where every one
of them is the pattern, or its complement, after RX_INV (R90, R93). -/
def patternRun (inv : Bool) (r : Nat) (hits : List (Nat × BitVec 48)) : Option Nat :=
  match hits with
  | [(a, x), (b, y), (d, z)] =>
    let len := 8 * lineLen r
    if b = a + len ∧ d = b + len ∧ (patGood inv x && patGood inv y && patGood inv z) = true then some (a % len) else none
  | _ => none

/-- A rate attempt succeeds within its window, with a lock within its first 16 frames, the framing pattern three times and clear or
resolved SS bits (R90–R93); the result is published at the next boundary (R95). -/
def Core.attemptOk (c : Core) (p : Nat) (a : Attempt) : Core :=
  match (c.port p).stage with
  | .attempt r n _ =>
    let inv := c.gb (pe p 0x40) 0
    let hit : Option (Nat × Bool) := match patternRun inv r a.hits with
      | some q => some (q, false)
      | none => if c.gb (pe p 0x44) 8 then (patternRun (!inv) r a.hits).map (·, true) else none
    match c.attemptClient p r a.ss, hit with
    | some (cl, prov), some (pos, comp) =>
      if n ≤ 160 ∧ ((c.port p).locked && c.gb (pe p 0x200) 5) = true then
        c.updPort p fun x => { x with
          stage := .none, found := some { rate := r, client := cl, prov := prov, inv := comp, pos := some pos } }
      else c
    | _, _ => c
  | _ => c

/-- The window of an attempt ends without success: the next rate is attempted, or the sweep has failed (R90, R94). -/
def Core.attemptFail (c : Core) (p : Nat) : Core :=
  match (c.port p).stage with
  | .attempt _ n l => if 160 ≤ n then (c.sb (pe p 0x200) 5 false).nextAttempt p l else c
  | _ => c

/-- The retry sweep, 2,000 frames after the start of the failed one, while ENERGY is still 1 (R94). -/
def Core.retry (c : Core) (p : Nat) : Core :=
  if (c.port p).stage = .wait ∧ 2000 ≤ c.gf (pe p 0x200) 16 12 ∧ c.energy p = true then c.startSense p else c

/-- The lock of a forced format (R96). -/
def Core.forcedLock (c : Core) (p : Nat) : Core :=
  if (c.port p).stage = .forced ∧ (c.fmtOk p && c.gb (pe p 0x200) 5) = true then
    c.updPort p fun x => { x with
      stage := .none, found := some { rate := c.gf (pe p 0x48) 1 3, client := c.gf (pe p 0x48) 4 2, prov := false, inv := false,
                                      pos := none } }
  else c

/-- Re-sensing after RESENSE × 8 frames in HUNT or PRESYNC, of a port that does not run from PE_FMT; a port that has entered SYNC is
not re-sensed (R79, R97, R100). -/
def Core.resense (c : Core) (p : Nat) : Core :=
  let n := c.gf (pe p 0x44) 16 8
  if (c.pst p = 3 ∨ c.pst p = 4) ∧ n ≠ 0 ∧ c.forced p = false ∧ 8 * n ≤ (c.port p).huntF ∧
      (c.port p).fr.lock = none then
    ((((c.abandon p).setPst p 2).ev (pe p 0x408) (bit 6))).startSense p
  else c

/-- The client format of an OTU port resolved from the SS bits once the carried STM-N has been in frame for 8 frames, and is still
(R92). -/
def Core.clientSet (c : Core) (p : Nat) : Core :=
  if isOtu (c.rate p) && c.gb (pe p 0x208) 6 && decide (8 ≤ (c.port p).clientF) && (c.port p).cl.lock.isSome then
    match ssClear ((c.port p).clientSs.take 8) with
    | some k => ((c.sf (pe p 0x208) 4 2 k).sb (pe p 0x208) 6 false).ev (pe p 0x408) (bit 7)
    | none => c
  else c

/-- A CDR loses lock; it is counted while ENERGY = 1 (Table 18-6). In line loopback the lane has no clock to send with and goes
idle at once (R80). -/
def Core.cdrLoss (c : Core) (p : Nat) : Core :=
  if c.gb (pe p 0x200) 5 then
    let c := (c.sb (pe p 0x200) 5 false).sb (bk (p / 16) 0x208) (p % 16) false
    let c := if c.en (0x20 + p) && c.gf (pe p 0x40) 2 2 = 3 then
      (c.sb (pe p 0x200) 6 false).sb (bk (p / 16) 0x204) (p % 16) false else c
    let c := c.ev (bk (p / 16) 0x400) (bit 2)
    if c.energy p then c.cn (bk (p / 16) 0x510) 1 else c
  else c

/-- An elastic-store slip re-centres the lane's store (R498). -/
def Core.esSlip (c : Core) (p : Nat) : Core :=
  ((c.wr (bk (p / 16) (0x240 + 4 * (p % 16))) 0).ev (bk (p / 16) 0x400) (bit 1)).cn (bk (p / 16) 0x50C) 1

/-- A bank PLL in use loses lock; the bank's Spillway source S096 + b is raised (R498). -/
def Core.pllUnlock (c : Core) (b k : Nat) : Core :=
  if c.gb (bk b 0x210) k then
    (((c.sb (bk b 0x200) (1 + k) false).ev (bk b 0x400) (bit 0)).cn (bk b (0x500 + 4 * k)) 1).report (96 + b)
  else c

def execEnergyUp (p : Port) (s : State) : Host.Outcome State Fault Refusal := s.on (·.energyUp p.val)
def execRateEstimateEnd (p : Port) (n : Nat) (s : State) : Host.Outcome State Fault Refusal :=
  s.on (·.estimateEnd p.val n)
def execRateAttemptSuccess (p : Port) (a : Attempt) (s : State) : Host.Outcome State Fault Refusal :=
  s.on (·.attemptOk p.val a)
def execRateAttemptFail (p : Port) (s : State) : Host.Outcome State Fault Refusal := s.on (·.attemptFail p.val)
def execSweepRetry (p : Port) (s : State) : Host.Outcome State Fault Refusal := s.on (·.retry p.val)
def execForcedFormatLock (p : Port) (s : State) : Host.Outcome State Fault Refusal := s.on (·.forcedLock p.val)
def execResense (p : Port) (s : State) : Host.Outcome State Fault Refusal := s.on (·.resense p.val)
def execClientSet (p : Port) (ss : List (Fin 4)) (s : State) : Host.Outcome State Fault Refusal :=
  s.onSeen (fun c => decide ((c.port p.val).clientSs.take 8 = ss)) (·.clientSet p.val)
def execCdrLoss (p : Port) (s : State) : Host.Outcome State Fault Refusal := s.on (·.cdrLoss p.val)
def execEsSlip (p : Port) (s : State) : Host.Outcome State Fault Refusal := s.on (·.esSlip p.val)
def execBankPllUnlock (b : Bank) (k : Fin 3) (s : State) : Host.Outcome State Fault Refusal :=
  s.on (·.pllUnlock b.val k.val)

end Sys2Proof.Machine
end

