-- ==== Sys2Proof/Machine/Framing.lean ====
section
/-! DEFINITION. Frame and multiframe alignment (Frame and Multiframe Alignment). -/

namespace Sys2Proof.Machine

/-! ## PE_FRM_CFG (Table 4-6) -/

def Core.ifN (c : Core) (p : Nat) : Nat := max 1 (c.gf (pe p 0x4C) 0 3)
def Core.oofN (c : Core) (p : Nat) : Nat := max 2 (c.gf (pe p 0x4C) 3 4)
def Core.lofSet (c : Core) (p : Nat) : Nat := max 1 (c.gf (pe p 0x4C) 7 6)
def Core.lofClr (c : Core) (p : Nat) : Nat := max 1 (c.gf (pe p 0x4C) 13 6)
def Core.mfIfN (c : Core) (p : Nat) : Nat := max 1 (c.gf (pe p 0x4C) 19 2)
def Core.mfOomN (c : Core) (p : Nat) : Nat := max 1 (c.gf (pe p 0x4C) 21 3)
def Core.mfLom (c : Core) (p : Nat) : Nat := max 1 (c.gf (pe p 0x4C) 24 5)
def Core.fecRx (c : Core) (p : Nat) : Nat := min 2 (c.gf (pe p 0x4C) 29 2)

/-- A port's framer, or that of its carried STM-N. -/
def Core.framer (c : Core) (p : Nat) (client : Bool) : Framer := if client then (c.port p).cl else (c.port p).fr
def Core.updFramer (c : Core) (p : Nat) (client : Bool) (f : Framer → Framer) : Core :=
  c.updPort p fun x => if client then { x with cl := f x.cl } else { x with fr := f x.fr }

/-- A framer runs: from HUNT on; that of the carried STM-N only on an OTU port whose OTU frame is aligned (R126). -/
def Core.framerOn (c : Core) (p : Nat) (client : Bool) : Bool :=
  decide (3 ≤ c.pst p) && (!client || (isOtu (c.rate p) && (c.port p).fr.lock.isSome))

/-- The bits found where a pattern is expected, as 48 bits. -/
def bits48 (l : List Bool) : BitVec 48 := if l.length < 48 then 0 else BitVec.ofNat 48 (bitsNat (l.take 48))

/-- RX_INV with the inversion found by sensing on top (R78, R93). -/
def Core.rxInv (c : Core) (p : Nat) : Bool := c.gb (pe p 0x40) 0 != c.gb (pe p 0x208) 7

/-- Bits of the frame a framer aligns (R103). -/
def Core.frameBits (c : Core) (p : Nat) (client : Bool) : Nat :=
  8 * (if client then stmLen (rateN (c.rate p)) else lineLen (c.rate p))

/-- The bits of the stream at a position: those given, those of the port's own signal in internal loopback (R81), and for the carried
STM-N those demapped (R125). -/
def Core.bitsAt (c : Core) (p : Nat) (client : Bool) (k : PatCheck) : BitVec 48 :=
  let x := c.port p
  if client then bits48 (x.client.drop ((k.pos + c.frameBits p true - x.clientAt) % c.frameBits p true))
  else if c.loopInt p then bits48 ((toBits (x.tx.loop.headD [])).drop k.pos)
  else k.bits

/-- Whether the pattern stands at a position (R104); demapped bits carry no inversion of the line. -/
def Core.patOk (c : Core) (p : Nat) (client : Bool) (k : PatCheck) : Bool :=
  patGood (!client && c.rxInv p) (c.bitsAt p client k)

/-- One pattern check at a candidate's position (R110): a correct one counts, an errored one drops the candidate. -/
def Framer.check (ifn : Nat) (f : Framer) (pos : Nat) (good : Bool) : Framer :=
  match f.cands.find? (fun q => q.1 = pos) with
  | none => f
  | some q =>
    if good then
      { f with cands := f.cands.map (fun r => if r.1 = pos then (r.1, r.2 + 1) else r)
               ready := if ifn ≤ q.2 + 1 ∧ f.ready = none then some pos else f.ready }
    else { f with cands := f.cands.filter (fun r => r.1 ≠ pos) }

/-- The pattern checks of one line frame: at the locked position they drive the error run and the probation
(R112, R115), otherwise they drive the candidates and the hunt cycle (R110, R114). -/
def Framer.lineFrame (ifn : Nat) (f : Framer) (ks : List (Nat × Bool)) (locked : Bool) : Framer :=
  match f.lock with
  | some _ => { f with errRun := if locked then 0 else f.errRun + 1, prob := f.prob - 1 }
  | none => { (ks.foldl (fun f k => Framer.check ifn f k.1 k.2) f) with cyc := f.cyc + 1 }

/-- A value of a multiframe machine (R120, R129); `m` is the modulus, `n` MF_OOM_N. With no value in the frame before it is neither
consistent nor inconsistent out of multiframe. The expected value, or the phase last aligned, advances by one. -/
def Multi.value (m n : Nat) (x : Multi) (v : Nat) : Multi :=
  let y := { x with last := some v, want := (x.want + 1) % m }
  if x.inMf then
    let bad := if v = x.want then 0 else x.bad + 1
    { y with bad := bad, failed := x.failed || decide (n ≤ bad) }
  else match x.last with
    | none => y
    | some l =>
      if v = (l + 1) % m then { y with run := x.run + 1, bad := 0 }
      else { y with run := 0, bad := x.bad + 1, failed := x.failed || decide (n ≤ x.bad + 1) }

/-- A multiframe machine put out of multiframe, and into it at the value read last (R120). -/
def Multi.out (x : Multi) : Multi := { x with inMf := false, run := 0, bad := 0, thru := false }
def Multi.align (m : Nat) (x : Multi) : Multi :=
  { x with inMf := true, run := 0, bad := 0, thru := false, want := match x.last with | some l => (l + 1) % m | none => x.want }

/-- A frame of a multiframe machine (R121, R131). A frame in part out of multiframe counts for neither run and ends both: DESIGN CHOICE
for the run out of multiframe, R121 says only that it does not count as in multiframe. -/
def Multi.frame (x : Multi) : Multi :=
  { x with oomF := if x.inMf then 0 else x.oomF + 1
           mfF := if x.inMf && x.thru then x.mfF + 1 else 0
           thru := x.inMf }

/-- A run of frames with one value (Tables 5-10, 5-11). -/
def runOf {α : Type} [DecidableEq α] (old : α) (run : Nat) (new : α) : Nat := if old = new then run + 1 else 1

/-- A tap of the DCC runs: enabled, in SYNC or MFSYNC, and not under signal fail (R169, R170). -/
def Core.tapOn (c : Core) (p : Nat) (ms : Bool) : Bool :=
  c.gb (pe p 0x50) (if ms then 17 else 16) && decide (5 ≤ c.pst p) && !c.portSf p

/-- An addition at one place of a PM record's counts. -/
def addAt (i v : Nat) (l : List Nat) : List Nat := (List.range 12).map fun j => l.getD j 0 + (if j = i then v else 0)

/-- The overhead of an SDH line frame, `raw` as received and `d` descrambled: parity against the frame before, REI, K1/K2, S1, J0 and
the DCC (R140–R142, R147, R151, R152, R170). Parity counts only outside signal fail; B1 in every frame aligned without LOS. -/
def Core.sdhLine (c : Core) (p : Nat) (raw d : List Byte) : Core :=
  let x := c.port p
  let cq := c.rd (pe p 0x68)
  let n := rateN (c.rate p)
  let sf := c.portSfX p
  let top := if n = 16 then 255 else 24 * n
  let b1 := match x.rxB1 with | some b => bitDiff b (stmByte n 1 0 d) | none => 0
  let b2 := match x.rxB2 with | some l => sumL ((List.range (3 * n)).map fun j => bitDiff (l.getD j 0) (stmByte n 4 j d)) | none => 0
  let rei := if top < stmRei n d then 0 else stmRei n d
  let b1ok := decide (5 ≤ c.pst p) && !x.reported.contains .los
  let k1 := stmByte n 4 (3 * n) d
  let k2 := stmByte n 4 (6 * n) d
  let k := k1 ++ k2
  let k2' := k2.extractLsb' 0 3
  let s := (stmByte n 8 0 d).extractLsb' 0 4
  let acc := addAt 2 (if sf then 0 else rei) (addAt 1 (if sf then 0 else b2) (addAt 0 (if b1ok then b1 else 0) x.pm.a))
  let dcc (ms : Bool) (h : Hdlc) : Hdlc := if c.tapOn p ms then (toBits (dccBytes n ms d)).foldl Hdlc.bit h else h.stop
  let c := if b1ok then c.cn (pe p 0x500) b1 else c
  let c := if sf then c else (c.cn (pe p 0x504) b2).cn (pe p 0x508) rei
  let c := c.wr (pe p 0x210) (setFld (setFld (c.rd (pe p 0x210)) 16 8 k1.toNat) 24 8 k2.toNat)
  let c := c.sf (pe p 0x214) 0 4 s.toNat
  c.setPort p { x with
    rxB1 := some (bip8 raw), rxB2 := some (bip24 n d)
    j0 := x.j0.byte (c.gb (pe p 0x54) 1) (stmByte n 0 (6 * n) d)
    dccR := dcc false x.dccR, dccM := dcc true x.dccM
    clientSs := (stmSs n d :: x.clientSs).take 8
    kVal := k
    kRun := runOf x.kVal x.kRun k
    sVal := s
    sRun := runOf x.sVal x.sRun s
    k2Val := k2'
    k2Run := runOf x.k2Val x.k2Run k2'
    notAisRun := if k2' = 7 then 0 else x.notAisRun + 1
    notRdiRun := if k2' = 6 then 0 else x.notRdiRun + 1
    judge := if sf then { x.judge with winSf := true, secSf := true } else { x.judge with winSum := x.judge.winSum + b2, secSum := x.judge.secSum + b2 }
    tx := { x.tx with msRei := if bitOf cq 21 && !sf then min b2 top else 0 }
    pm := { x.pm with a := acc } }

/-- The overhead of an OTU frame after the FEC decoder, `d` descrambled: MFAS, SM and PM, PT, FEC counts, and the client demapped
(Table 5-5, R120, R122, R124, R125, R147). -/
def Core.otuLine (c : Core) (p : Nat) (d : List Byte) : Core :=
  let x := c.port p
  let cq := c.rd (pe p 0x68)
  let sf := c.portSfX p
  let q := otuFec (c.fecRx p) d
  let f := q.1
  let mfas := (otuByte 1 7 f).toNat
  let sm3 := otuByte 1 10 f
  let pm3 := otuByte 3 12 f
  let errs (b : Byte) := match x.rxBips with | [_, e] => bitDiff b e | _ => 0
  let smB := errs (otuByte 1 9 f)
  let pmB := errs (otuByte 3 11 f)
  let bei (b : Byte) := let n := b.toNat / 16; if 8 < n || sf then 0 else n
  let acc := addAt 4 q.2.1 (addAt 5 q.2.2.1 (addAt 6 q.2.2.2
    (addAt 7 (if sf then 0 else smB) (addAt 8 (bei sm3) (addAt 9 (if sf then 0 else pmB) (addAt 10 (bei pm3) x.pm.a))))))
  let stat : Fin 8 := (pm3.extractLsb' 0 3).toFin
  let pt := otuByte 4 15 f
  c.setPort p { x with
    mfas := x.mfas.value 256 (c.mfOomN p) mfas
    rxBips := (bip8 (opuArea f) :: x.rxBips).take 2
    client := x.client ++ toBits (demapOpu (c.rate p = 6) f)
    sm := x.sm.smByte mfas (otuByte 1 8 f)
    statVal := stat, statRun := runOf x.statVal x.statRun stat
    not7 := if stat = 7 then 0 else x.not7 + 1
    not6 := if stat = 6 then 0 else x.not6 + 1
    not5 := if stat = 5 then 0 else x.not5 + 1
    smBdiVal := sm3.getLsbD 3, smBdiRun := runOf x.smBdiVal x.smBdiRun (sm3.getLsbD 3)
    pmBdiVal := pm3.getLsbD 3, pmBdiRun := runOf x.pmBdiVal x.pmBdiRun (pm3.getLsbD 3)
    ptVal := if mfas = 0 then pt else x.ptVal
    ptRun := if mfas = 0 then runOf x.ptVal x.ptRun pt else x.ptRun
    tx := { x.tx with
      smBei := if bitOf cq 27 && !sf then min smB 8 else 0
      pmBei := if bitOf cq 27 && !sf then min pmB 8 else 0 }
    pm := { x.pm with a := acc } }

/-- The MFAS of a line frame that may confirm the OTU frame's position: the value before the first one of SYNC (R120; the
timelines of section 4.10). -/
def Core.firstMfas (c : Core) (p : Nat) (client : Bool) (raw : List Byte) : Core :=
  if isOtu (c.rate p) && !client then
    c.updPort p fun x => { x with mfas := { x.mfas with last := some ((scrambleOtu (raw.take 7)).getD 6 0).toNat } }
  else c

/-- The accepted PT after 3 identical multiframes (Table 5-10, rank 9). -/
def Core.ptAccept (c : Core) (p : Nat) : Core :=
  if (c.port p).ptRun = 3 ∧ (c.port p).ptVal ≠ (c.port p).ptAcc then
    (c.updPort p fun x => { x with ptAcc := x.ptVal }).peEv p (bit 27)
  else c

/-- The next frame of the carried STM-N in the demapped stream, and the stream after it: at the locked position, or one frame length
while the framer hunts; none where it has not all arrived (R125, R126). -/
def Core.clientFrame (c : Core) (p : Nat) : Option (List Byte × List Bool) :=
  let x := c.port p
  let len := c.frameBits p true
  let from_ := match x.cl.lock with
    | some q => (q + 2 * len - 8 * patAt (rateN (c.rate p)) - x.clientAt) % len
    | none => 0
  if from_ + len ≤ x.client.length then some (toBytes ((x.client.drop from_).take len), x.client.drop (from_ + len)) else none

/-- What a line frame of the port itself brings: the bytes given, or its own signal in internal loopback (R79, R81). -/
def Core.heardLine (c : Core) (p : Nat) (li : LineIn) : Core × List Byte :=
  if c.loopInt p then (c.updPort p fun x => { x with tx := { x.tx with loop := x.tx.loop.drop 1 } }, (c.port p).tx.loop.headD [])
  else (c.updPort p fun x => { x with heard := x.heard ++ [li.bytes] }, li.bytes)

/-- One received line frame of the port's framer (R104, R110, R112, R115, R118–R120); overhead is read while the frame is aligned. -/
def Core.portLine (c : Core) (p : Nat) (li : LineIn) : Core :=
  let ks := li.checks.map fun k => (k.pos, c.patOk p false k)
  let h := c.heardLine p li
  let inv := c.rxInv p
  let n := rateN (c.rate p)
  let otu := isOtu (c.rate p)
  let at_ := if otu then 0 else patAt n
  let good := patGood inv (bits48 (toBits ((h.2.drop at_).take 6)))
  let raw := invert inv h.2
  let c := h.1.updFramer p false fun f => f.lineFrame (c.ifN p) ks good
  if (c.port p).fr.lock.isNone then c.firstMfas p false raw
  else if otu then (c.otuLine p (scrambleOtu raw)).ptAccept p
  else c.sdhLine p raw (scrambleStm n raw)

/-- One line frame of the carried STM-N, taken from the demapped stream (R125, R126). -/
def Core.clientLine (c : Core) (p : Nat) (li : LineIn) : Core :=
  match c.clientFrame p with
  | none => c
  | some q =>
    let ks := li.checks.map fun k => (k.pos, c.patOk p true k)
    let n := rateN (c.rate p)
    let good := patGood false (bits48 (toBits ((q.1.drop (patAt n)).take 6)))
    let at_ := match (c.port p).cl.lock with | some l => (l + c.frameBits p true - 8 * patAt n) % c.frameBits p true | none => (c.port p).clientAt
    let c := (c.updFramer p true fun f => f.lineFrame (c.ifN p) ks good).updPort p fun x => { x with client := q.2, clientAt := at_ }
    if (c.port p).cl.lock.isSome then c.sdhLine p q.1 (scrambleStm n q.1) else c

/-- One received line frame of a framer. -/
def Core.lineFrame (c : Core) (p : Nat) (client : Bool) (li : LineIn) : Core :=
  if !c.framerOn p client then c else if client then c.clientLine p li else c.portLine p li

/-- A detection of the hunter (R104, R109, R111): refused at a candidate's or an excluded position and with 8 candidates. -/
def Core.detection (c : Core) (p : Nat) (client : Bool) (k : PatCheck) : Core :=
  let f := c.framer p client
  let pos := k.pos
  if c.framerOn p client && f.lock.isNone && decide (pos < c.frameBits p client) && c.patOk p client k then
    if f.cands.any (fun q => q.1 = pos) || f.excl.contains pos || decide (8 ≤ f.cands.length) then c
    else c.updFramer p client fun f => { f with
      cands := f.cands ++ [(pos, 1)]
      ready := if c.ifN p = 1 ∧ f.ready = none then some pos else f.ready }
  else c

/-- H4 multiframe alignment of a Path shown in H4_STATE, in its Tributaries too (R131, Table 6-5). -/
def Core.showH4 (c : Core) (k : Nat) : Core :=
  let v := if (c.obj k).h4.inMf then 1 else 0
  let c := c.tsf (c.statKey k) 12 1 v
  forL (c.inPath k) (fun j c => c.tsf (c.statKey j) 12 1 v) c

/-- The H4 machines of a port's Paths changed. -/
def Core.portH4 (c : Core) (p : Nat) (f : Multi → Multi) : Core :=
  forL ((c.onPort p).filter fun k => isPath (k / 4)) (fun k c => (c.updObj k fun x => { x with h4 := f x.h4 }).showH4 k) c

/-- A confirmed candidate: SYNC at its position, probation begins, the hunt cycle ends (R110, R112, R114). Multiframe values recorded
before it do not count in its checks. -/
def Core.confirm (c : Core) (p : Nat) (client : Bool) : Core :=
  if c.framerOn p client then
    match (c.framer p client).ready, (c.framer p client).lock with
    | some q, none =>
      let c := c.updFramer p client fun f => { f with
        lock := some q, ready := none, cands := [], excl := [], cyc := 0, errRun := 0, prob := 32, fresh := true }
      let c := if client then c else c.updPort p fun x => { x with mfas := { x.mfas with bad := 0, failed := false } }
      c.portH4 p fun m => { m with bad := 0, failed := false }
    | _, _ => c
  else c

/-- A framer back in HUNT; the multiframe machines enter OOM with it, and the OTU frame takes the carried STM-N's framer and the
demapped stream with it (R116, R120, R126, R136). -/
def Core.leaveSync (c : Core) (p : Nat) (client : Bool) (excl : Option Nat) : Core :=
  let c := c.updFramer p client fun f => { f with
    lock := none, ready := none, cands := [], cyc := 0, errRun := 0, prob := 0, exits := f.exits + 1
    excl := match excl with
      | some q => (f.excl.filter (· ≠ q) ++ [q]).drop ((f.excl.filter (· ≠ q)).length + 1 - 4)
      | none => f.excl }
  let c := c.portH4 p fun m => { m.out with last := none, failed := false }
  if client then c.updPort p fun x => { x.deaf with
      client := x.client, rxBips := x.rxBips, sm := x.sm, statRun := x.statRun, not7 := x.not7, not6 := x.not6, not5 := x.not5
      smBdiRun := x.smBdiRun, pmBdiRun := x.pmBdiRun, ptRun := x.ptRun, tx := { x.tx with msRei := 0 } }
  else c.updPort p fun x => { x.deaf with
    mfas := { x.mfas.out with last := none, failed := false }
    cl := { x.cl with lock := none, ready := none, cands := [], excl := [], cyc := 0, errRun := 0, prob := 0 } }

/-- OOF after probation (R115, R112). -/
def Core.oof (c : Core) (p : Nat) (client : Bool) : Core :=
  let f := c.framer p client
  if f.lock.isSome && decide (c.oofN p ≤ f.errRun) && decide (f.prob = 0) then c.leaveSync p client none else c

/-- A Path of Table 4-4: TUG-structured with at least one TU-11, TU-12 or TU-2 in service (R128). -/
def Core.hasH4 (c : Core) (k : Nat) : Bool := (c.inPath k).any fun j => c.isTu (j / 4)

/-- The multiframe check of probation fails (R112). -/
def Core.mfCheckFails (c : Core) (p : Nat) (client : Bool) : Bool :=
  if isOtu (c.rate p) && !client then (c.port p).mfas.failed
  else (c.onPort p).any fun k => isPath (k / 4) && c.hasH4 k && (c.obj k).itp = .norm && (c.obj k).h4.failed

/-- A false lock during probation: HUNT again, the position excluded (R112, R113). -/
def Core.falseLock (c : Core) (p : Nat) (client : Bool) : Core :=
  let f := c.framer p client
  match f.lock with
  | some q =>
    if 0 < f.prob ∧ (c.oofN p ≤ f.errRun ∨ c.mfCheckFails p client = true) then c.leaveSync p client (some q) else c
  | none => c

/-- A hunt cycle of 64 line frames ends without SYNC: the exclusion list is cleared (R114). -/
def Core.huntCycleEnd (c : Core) (p : Nat) (client : Bool) : Core :=
  let f := c.framer p client
  if c.framerOn p client && f.lock.isNone && decide (64 ≤ f.cyc) then
    c.updFramer p client fun f => { f with excl := [], cyc := 0 }
  else c

/-- LOF, or C_LOF for the carried STM-N, declared and cleared (R117, R126). -/
def Core.lof (c : Core) (p : Port) (client set : Bool) : Core :=
  let d := if client then Defect.cLof else Defect.lof
  let f := c.framer p.val client
  let has := (c.port p.val).present.contains d
  if set then (if !has && decide (c.lofSet p.val ≤ f.outRun) then c.setDefect (.port p) d true else c)
  else (if has && decide (c.lofClr p.val ≤ f.inRun) then c.setDefect (.port p) d false else c)

/-- MFAS alignment gained and lost (R120). -/
def Core.mfasAlign (c : Core) (p : Nat) : Core :=
  let x := c.port p
  if x.fr.lock.isSome && !x.mfas.inMf && decide (c.mfIfN p ≤ x.mfas.run) then
    c.updPort p fun x => { x with mfas := x.mfas.align 256 }
  else c
def Core.mfasOom (c : Core) (p : Nat) : Core :=
  let x := c.port p
  if x.mfas.inMf && decide (c.mfOomN p ≤ x.mfas.bad) then c.updPort p fun x => { x with mfas := x.mfas.out } else c

/-- OTU LOM after MF_LOM frames in OOM, cleared after MF_LOM frames throughout in multiframe (R121). -/
def Core.otuLom (c : Core) (p : Port) (set : Bool) : Core :=
  let x := c.port p.val
  let has := x.present.contains .otuLom
  if set then (if isOtu (c.rate p.val) && !has && decide (c.mfLom p.val ≤ x.mfas.oomF) then
      c.setDefect (.port p) .otuLom true else c)
  else (if has && decide (c.mfLom p.val ≤ x.mfas.mfF) then c.setDefect (.port p) .otuLom false else c)

/-- H4 multiframe alignment of a Path gained and lost (R129), shown in H4_STATE. -/
def Core.h4Align (c : Core) (o : ObjRef) : Core :=
  let x := c.obj o.key
  if x.svc && c.hasH4 o.key && x.itp = .norm && !x.h4.inMf && decide (c.mfIfN (c.portOf o.idx.val) ≤ x.h4.run) then
    (c.updObj o.key fun x => { x with h4 := x.h4.align 4 }).showH4 o.key
  else c
def Core.h4Oom (c : Core) (o : ObjRef) : Core :=
  let x := c.obj o.key
  if x.h4.inMf && (decide (c.mfOomN (c.portOf o.idx.val) ≤ x.h4.bad) || x.itp ≠ .norm) then
    (c.updObj o.key fun x => { x with h4 := x.h4.out }).showH4 o.key
  else c

/-- TU-LOM of a Path (R131). -/
def Core.tuLom (c : Core) (o : ObjRef) (set : Bool) : Core :=
  let x := c.obj o.key
  let has := x.present.contains .tuLom
  let n := c.mfLom (c.portOf o.idx.val)
  if set then (if x.svc && c.hasH4 o.key && !has && decide (n ≤ x.h4.oomF) then c.setDefect (.obj o) .tuLom true else c)
  else (if has && decide (n ≤ x.h4.mfF) then c.setDefect (.obj o) .tuLom false else c)

/-! ## The E1 monitor (section 4.9) -/

/-- The code of E1_STATE. -/
def E1St.code : E1St → Nat | .off => 0 | .search => 1 | .basic => 2 | .noCrc4 => 3 | .crc4 => 4

/-- The monitor's state set and shown (W6 [19:17]). -/
def Core.setE1 (c : Core) (i : Nat) (st : E1St) : Core :=
  (c.updObj (okey i 0) fun x => { x with e1 := st }).tsf (trib i 6) 17 3 st.code

/-- The monitor runs (R132). -/
def Core.e1On (c : Core) (i : Nat) : Bool :=
  !isPath i && bitOf (c.trc (trib i 0)) 10 && (c.obj (okey i 0)).svc && (c.obj (okey i 0)).itp = .norm

/-- CRC4_THR in effect (Table 6-5, W3 [31:22]). -/
def Core.crc4Thr (c : Core) (i : Nat) : Nat :=
  let v := fld (c.trc (trib i 3)) 22 10
  if v = 0 then 915 else min v 1000

/-- The E1 bits of a VC-12 multiframe under the asynchronous mapping of G.707: three groups of 32 bytes, then S1 unless two of the three
C1 bits are 1, S2 unless two of the three C2 bits are, and the remaining 255 bits. -/
def demapE1 (vc : List Byte) : List Bool :=
  let group (q : Nat) := toBits ((vc.drop (35 * q + 2)).take 32)
  let ctl (q : Nat) := bitsOf (vc.getD (35 * q + 1) 0)
  let most (b : Nat) : Bool := decide (2 ≤ ([1, 2, 3].filter fun q => (ctl q).getD b false).length)
  let last := toBits ((vc.drop 107).take 32)
  group 0 ++ group 1 ++ group 2 ++ (if most 0 then [] else [(ctl 3).getD 7 false]) ++
    (if most 1 then last.drop 1 else last)

/-- The FAS in bits 2 to 8 of a time slot 0 (R133). -/
def isFas (ts0 : List Bool) : Bool := ts0.drop 1 = [false, false, true, true, false, true, true]

/-- The monitor back in its search for a frame (R133, R135). -/
def E1Rx.search (x : E1Rx) (fas crc : Bool) : E1Rx :=
  { st := .search, buf := x.buf.drop (x.buf.length - 8), lostFas := fas, lostCrc := crc, bad := x.bad, ebits := x.ebits }

/-- Bit 1 of a frame in CRC-4 multiframe alignment: C bits in the frames with FAS, E bits in NFAS frames 13 and 15; at the end of a
sub-multiframe its C bits are compared with the CRC of the one before (R134, R135). E bits set are those received as 1 (DEDUCED). -/
def E1Rx.crcFrame (x : E1Rx) (fr : List Bool) : E1Rx :=
  let b := fr.headD false
  let even := x.num % 2 = 0
  let sub := x.sub ++ (if even then false :: fr.drop 1 else fr)
  let cs := if even then x.cbits ++ [b] else x.cbits
  let x := { x with num := (x.num + 1) % 16, ebits := x.ebits + (if b && (x.num = 13 || x.num = 15) then 1 else 0) }
  if x.num % 8 = 0 then
    let y := { x with sub := [], cbits := [], crc := if sub.length = 2048 then some (crc4 sub) else none }
    match x.crc with
    | some v => let bad := bitsNat cs != v
                { y with blocks := (bad :: x.blocks).take 1000, bad := x.bad + (if bad then 1 else 0) }
    | none => y
  else { x with sub := sub, cbits := cs }

/-- One frame of 256 bits while aligned: the FAS, the multiframe alignment signal of the NFAS frames, and the CRC (R133–R135). Two
multiframe alignment signals at most 64 frames (8 ms) and a multiple of 16 frames (2 ms) apart give CRC-4 alignment; 64 frames of basic
alignment without it give NO_CRC4. -/
def E1Rx.frame (thr : Nat) (x : E1Rx) (fr : List Bool) : E1Rx :=
  let age := x.age + 1
  let errs := if x.odd then x.errs else if isFas (fr.take 8) then 0 else x.errs + 1
  if 3 ≤ errs then E1Rx.search { x with buf := fr } true false
  else
    let nfas := if x.odd then (fr.headD false :: x.nfas).take 6 else x.nfas
    let y := { x with buf := [], odd := !x.odd, errs := errs, age := age, nfas := nfas }
    if x.st = .crc4 then
      let z := y.crcFrame fr
      if thr ≤ z.blocks.countP id then E1Rx.search { z with buf := fr } false true else z
    else
      let sig := x.odd && nfas = [true, true, false, true, false, false]
      let near := x.mfAt.filter fun m => decide (age ≤ m + 64)
      if sig && near.any fun m => (age - m) % 16 = 0 then
        { y with st := .crc4, num := 12, mfAt := [], sub := [], cbits := [], crc := none, blocks := [] }
      else { y with mfAt := if sig then age :: near else near, st := if 64 ≤ age then .noCrc4 else x.st }

/-- One E1 bit (R133): while it searches the monitor looks for the FAS at every bit, then for bit 2 of the next frame at 1, then for
the FAS again. -/
def E1Rx.bit (thr : Nat) (x : E1Rx) (b : Bool) : E1Rx :=
  let buf := x.buf ++ [b]
  if x.st = .off then x
  else if x.st = .search then
    if x.step = 0 then
      let w := buf.drop (buf.length - 8)
      { x with buf := w, step := if w.length = 8 ∧ isFas w = true then 1 else 0 }
    else if x.step = 1 then
      if buf.length < 264 then { x with buf := buf }
      else if buf.getD 257 false then { x with buf := buf.drop 256, step := 2 } else { x with buf := buf.drop 256, step := 0 }
    else if buf.length < 264 then { x with buf := buf }
    else if isFas ((buf.drop 256).take 8) then
      { x with st := .basic, buf := buf.drop 256, step := 0, odd := false, errs := 0, age := 0, nfas := [], mfAt := [] }
    else { x with buf := buf.drop 256, step := 0 }
  else if buf.length < 256 then { x with buf := buf }
  else x.frame thr buf

/-- A transition of the monitor shown, from one of some states, once the monitor's own machine has made it (R133–R135). -/
def Core.e1Go (c : Core) (i : Nat) (src : List E1St) (dst : E1St) (ok : Bool) : Core :=
  if c.e1On i && src.contains (c.obj (okey i 0)).e1 && ok then c.setE1 i dst else c

/-- The monitor's machine holds basic frame alignment. -/
def E1St.aligned : E1St → Bool | .basic | .noCrc4 | .crc4 => true | _ => false

/-- A loss taken notice of. -/
def Core.e1Lost (c : Core) (i : Nat) (src : List E1St) (crc : Bool) : Core :=
  let x := c.obj (okey i 0)
  let was := if crc then x.e1rx.lostCrc else x.e1rx.lostFas
  if c.e1On i && src.contains x.e1 && was then
    (c.updObj (okey i 0) fun x => { x with e1rx := { x.e1rx with lostFas := false, lostCrc := false } }).setE1 i .search
  else c

/-- The framing machines at a frame boundary, for the frame that ends: out and in counts by the state that applied from
its beginning (R117, R157), OTU LOM frames (R121), exits counted into PE_OOF_CNT (R116). A frame that began in OFF or LISTEN leaves both
counts as they are (R157; for OFF, and for LISTEN under EN = 0, DESIGN CHOICE: R117 names only SENSE to MFSYNC). The carried STM-N's
in frames toward CLIENT_SET are counted in a row (R92, R127): DESIGN CHOICE, the spec says "the 8 frames in frame". -/
def Core.frameClass (c : Core) (p : Nat) : Core :=
  let x := c.port p
  let st := c.pst p
  let out (f : Framer) (isOut isIn : Bool) : Framer :=
    if isOut then { f with outRun := f.outRun + 1, inRun := 0 }
    else if isIn then { f with inRun := f.inRun + 1, outRun := 0 } else f
  let exits := x.fr.exits + (if isOtu (c.rate p) then x.cl.exits else 0)
  let otu := isOtu (c.rate p)
  let add (l : List Nat) : List Nat := (List.range 12).map fun j => l.getD j 0 + (if j = 3 then exits else 0)
  (c.setPort p { x with
    fr := { out x.fr (decide (2 ≤ st ∧ st ≤ 4)) (decide (5 ≤ st)) with exits := 0 }
    cl := { out x.cl (otu && !x.cl.shown && decide (2 ≤ st)) (otu && x.cl.shown) with exits := 0 }
    clientF := if otu && x.cl.shown && x.cl.lock.isSome then x.clientF + 1 else 0
    mfas := if otu && decide (3 ≤ st) then x.mfas.frame else x.mfas
    pm := { x.pm with a := if exits = 0 then x.pm.a else add x.pm.a } }).cn (pe p 0x514) exits

/-- The multiframe requirement (R107, Table 4-4). -/
def Core.mfRequirement (c : Core) (p : Nat) : Bool :=
  let x := c.port p
  (!isOtu (c.rate p) || (x.mfas.inMf && x.cl.lock.isSome)) &&
    (c.onPort p).all fun k => !(isPath (k / 4)) || !c.hasH4 k || (c.obj k).h4.inMf

def execLineFrame (p : Port) (cl : Bool) (li : LineIn) (s : State) : Host.Outcome State Fault Refusal :=
  s.on (·.lineFrame p.val cl li)
def execDetection (p : Port) (cl : Bool) (k : PatCheck) (s : State) : Host.Outcome State Fault Refusal :=
  s.on (·.detection p.val cl k)
def execCandidateConfirm (p : Port) (cl : Bool) (s : State) : Host.Outcome State Fault Refusal :=
  s.on (·.confirm p.val cl)
def execOof (p : Port) (cl : Bool) (s : State) : Host.Outcome State Fault Refusal := s.on (·.oof p.val cl)
def execFalseLock (p : Port) (cl : Bool) (s : State) : Host.Outcome State Fault Refusal := s.on (·.falseLock p.val cl)
def execHuntCycleEnd (p : Port) (cl : Bool) (s : State) : Host.Outcome State Fault Refusal :=
  s.on (·.huntCycleEnd p.val cl)
def execLofDeclare (p : Port) (cl : Bool) (s : State) : Host.Outcome State Fault Refusal := s.on (·.lof p cl true)
def execLofClear (p : Port) (cl : Bool) (s : State) : Host.Outcome State Fault Refusal := s.on (·.lof p cl false)
def execMfasAlign (p : Port) (s : State) : Host.Outcome State Fault Refusal := s.on (·.mfasAlign p.val)
def execMfasOom (p : Port) (s : State) : Host.Outcome State Fault Refusal := s.on (·.mfasOom p.val)
def execOtuLomDeclare (p : Port) (s : State) : Host.Outcome State Fault Refusal := s.on (·.otuLom p true)
def execOtuLomClear (p : Port) (s : State) : Host.Outcome State Fault Refusal := s.on (·.otuLom p false)
def execH4MfAlign (o : ObjRef) (s : State) : Host.Outcome State Fault Refusal := s.on (·.h4Align o)
def execH4MfOom (o : ObjRef) (s : State) : Host.Outcome State Fault Refusal := s.on (·.h4Oom o)
def execTuLomDeclare (o : ObjRef) (s : State) : Host.Outcome State Fault Refusal := s.on (·.tuLom o true)
def execTuLomClear (o : ObjRef) (s : State) : Host.Outcome State Fault Refusal := s.on (·.tuLom o false)

/-- Basic frame alignment gained (R133). -/
def execE1BasicAlign (i : TribIdx) (s : State) : Host.Outcome State Fault Refusal :=
  s.on fun c => c.e1Go i.val [.search] .basic (c.obj (okey i.val 0)).e1rx.st.aligned
/-- Basic frame alignment lost after 3 errored FAS in a row (R133). -/
def execE1BasicLoss (i : TribIdx) (s : State) : Host.Outcome State Fault Refusal :=
  s.on (·.e1Lost i.val [.basic, .noCrc4, .crc4] false)
/-- CRC-4 multiframe alignment gained (R134). -/
def execE1Crc4Align (i : TribIdx) (s : State) : Host.Outcome State Fault Refusal :=
  s.on fun c => c.e1Go i.val [.basic, .noCrc4] .crc4 ((c.obj (okey i.val 0)).e1rx.st = .crc4)
/-- No CRC-4 multiframe alignment within 8 ms of basic alignment (R134). -/
def execNoCrc4 (i : TribIdx) (s : State) : Host.Outcome State Fault Refusal :=
  s.on fun c => c.e1Go i.val [.basic] .noCrc4 ((c.obj (okey i.val 0)).e1rx.st = .noCrc4)
/-- CRC-4 multiframe alignment lost: CRC4_THR or more of the last 1,000 blocks were errored (R135). -/
def execE1Crc4Loss (i : TribIdx) (s : State) : Host.Outcome State Fault Refusal :=
  s.on (·.e1Lost i.val [.crc4] true)

end Sys2Proof.Machine
end

