-- ==== Sys2Proof/Machine/Overhead.lean ====
section
/-! DEFINITION. Overhead, defects, traces and performance monitoring (Overhead Processing, Defects and Consequent
Actions). -/

namespace Sys2Proof.Machine

/-- HBM byte address of HDM offset 0 (R238). -/
def orBase : Nat := 0x380000000

/-- The Open Reservoir may be used: initialised so far, and no step has failed (R241, R242). -/
def Core.orReady (c : Core) : Bool := c.gb (rsv 0x204) 2 && !c.gb (rsv 0x204) 4

/-! ## Power states and wakes (R31, R458) -/

/-- The power state (Table 1-8): 3 with a bank awake or rings allocated, 1 in L1, 2 with the CTL island on, else 0. -/
def Core.pstate (c : Core) : Nat :=
  if c.gf (lev 0x200) 8 6 ≠ 0 ∨ c.rsvS.rings ≠ [] then 3
  else if c.levS.inL1 then 1 else if c.gb (lev 0x204) 2 then 2 else 0

/-- PSTATE shown, with its event. -/
def Core.showPstate (c : Core) : Core :=
  if c.gf (lev 0x200) 0 2 = c.pstate then c else (c.sf (lev 0x200) 0 2 c.pstate).ev (lev 0x400) (bit 0)

/-- L1 is left: the paused watchdog resumes (R458). -/
def Core.leaveL1 (c : Core) : Core :=
  if c.levS.inL1 then
    ({ c with levS := { c.levS with inL1 := false, l1Run := 0 } }.sb (lev 0x200) 6 false).showPstate
  else c

/-- LEV_WAKE_LAST (Table 16-6). -/
def Core.wakeLast (c : Core) (cause : Nat) : Core :=
  c.wr (lev 0x23C) (BitVec.ofNat 32 (cause + c.tick % 2 ^ 24 * 256))

/-- Self-refresh, and its end at an access to the stack, which ends L1 too (R274, R275, R458). -/
def Core.selfRefresh (c : Core) : Bool := c.gb (rsv 0x200) 8
def Core.srExit (c : Core) : Core :=
  let c := c.leaveL1
  let c := { c with rsvS := { c.rsvS with idle := 0 } }
  if c.selfRefresh then ((c.sb (rsv 0x200) 8 false).sb (hif 0x204) 2 false).ev (rsv 0x400) (bit 11) else c

/-- The exit for a host's access, recorded as a wake (Table 16-6). -/
def Core.hdmWake (c : Core) : Core := (if c.selfRefresh then c.wakeLast 6 else c).srExit

/-! ## Trail traces (section 5.3) -/

/-- The bytes of a TTI entry from a byte on. -/
def Core.ttiBytes (c : Core) (e from_ n : Nat) : List Byte :=
  (List.range n).map fun k => (c.trd (tti e ((from_ + k) / 4))).extractLsb' (8 * ((from_ + k) % 4)) 8

/-- ACCEPTED of a TTI entry set (Table 5-9). -/
def Core.setAccepted (c : Core) (e : Nat) (bs : List Byte) : Core :=
  forN 16 (fun w c => c.twr (tti e (16 + w))
    (BitVec.ofNat 32 (sumL ((List.range 4).map fun k => (bs.getD (4 * w + k) 0).toNat * 2 ^ (8 * k))))) c

/-- The bytes compared for a trace: all of its length, or what SM_CMP selects (R149). -/
def cmpRange (sm : Option Nat) (len : Nat) : Nat × Nat :=
  match sm with | none => (0, len) | some 0 => (0, 16) | some 1 => (16, 16) | some 2 => (0, 32) | some _ => (0, 64)

/-- Whether ACCEPTED differs from VALUE in the compared bytes. -/
def Core.ttiBad (c : Core) (e : Nat) (sm : Option Nat) (len : Nat) : Bool :=
  let r := cmpRange sm len
  c.ttiBytes e r.1 r.2 != c.ttiBytes e (64 + r.1) r.2

/-- The receive buffer of an object; none for 0–383 (R145, R185). -/
def Core.rxBuf (c : Core) (o : ObjRef) : Option Nat :=
  let v := fld (c.trc (trib o.idx.val 1)) 0 13
  if v < 384 then none else some (v + (if o.sub.val = 0 then 0 else o.sub.val - 1))

/-- TTI_ACC of a port (Table 5-19). -/
def Core.ttiAcc (c : Core) (p : Nat) : Nat := max 3 (c.gf (pe p 0x54) 8 4)

/-- The last whole trace received of a trail (R147). -/
def Core.traceHeard (c : Core) : Trace → List Byte
  | .j0 p => (c.port p.val).j0.last
  | .sm p => (c.port p.val).sm.last
  | .path o => (c.obj o.key).rx.trace.last

/-- A trace accepted after TTI_ACC identical periods (R147–R149): ACCEPTED takes it, the change event is set, and with the trace's TIM
enable set the comparison with VALUE is made. -/
def Core.ttiAccept (c : Core) (t : Trace) : Core :=
  match t with
  | .j0 p =>
    let bs := (c.port p.val).j0.last
    if c.ttiAcc p.val ≤ (c.port p.val).j0.run ∧ 5 ≤ c.pst p.val then
      let ch := c.ttiBytes p.val 64 64 != (bs ++ List.replicate (64 - bs.length) 0)
      let c := c.setAccepted p.val bs
      let c := if ch then c.peEv p.val (bit 25) else c
      c.updPort p.val fun x => { x with j0Bad := c.gb (pe p.val 0x54) 0 && c.ttiBad p.val none bs.length }
    else c
  | .sm p =>
    let e := 192 + p.val
    let bs := (c.port p.val).sm.last
    if c.ttiAcc p.val ≤ (c.port p.val).sm.run ∧ isOtu (c.rate p.val) = true ∧ 5 ≤ c.pst p.val then
      let ch := c.ttiBytes e 64 64 != bs
      let c := c.setAccepted e bs
      let c := if ch then c.peEv p.val (bit 26) else c
      c.updPort p.val fun x => { x with smBad := c.gb (pe p.val 0x54) 4 && c.ttiBad e (some (c.gf (pe p.val 0x54) 5 2)) 64 }
    else c
  | .path o =>
    match c.rxBuf o with
    | none => c
    | some e =>
      let i := o.idx.val
      let bs := (c.obj o.key).rx.trace.last
      if c.ttiAcc (c.portOf i) ≤ (c.obj o.key).rx.trace.run ∧ (c.obj o.key).svc = true then
        let ch := c.ttiBytes e 64 64 != (bs ++ List.replicate (64 - bs.length) 0)
        let c := c.setAccepted e bs
        let c := if ch then c.tev (trib i 6) (if c.ttype i = 2 ∧ isPath i = true then bit 28 else bit 10) else c
        c.updObj o.key fun x => { x with timBad := bitOf (c.trc (trib i 0)) 14 && c.ttiBad e none bs.length }
      else c

/-! ## SSM, K1/K2 and labels -/

/-- The received SSM accepted after S1_ACC frames (R151). -/
def Core.ssmAccept (c : Core) (p : Nat) : Core :=
  let x := c.port p
  let n := max 3 (c.gf (pe p 0x50) 11 4)
  if n ≤ x.sRun then
    let old := c.rd (pe p 0x214)
    let c := c.wr (pe p 0x214) (setFld (setFld old 4 4 x.sVal.toNat) 8 1 1)
    if fld old 4 4 = x.sVal.toNat then c else c.peEv p (bit 24)
  else c

/-- The K1/K2 pair accepted after K_ACC frames and shown in PE_K1K2 (R152). -/
def Core.kAccept (c : Core) (p : Nat) : Core :=
  let x := c.port p
  let n := max 3 (c.gf (pe p 0x50) 8 3)
  if n ≤ x.kRun then
    c.wr (pe p 0x210) (setFld (setFld (c.rd (pe p 0x210)) 0 8 (x.kVal.extractLsb' 8 8).toNat) 8 8
      (x.kVal.extractLsb' 0 8).toNat)
  else c

/-- The signal label accepted after 5 identical blocks (section 5.5). -/
def Core.labelAccept (c : Core) (o : ObjRef) : Core :=
  let x := c.obj o.key
  if x.svc && decide (5 ≤ x.slRun) then
    let k := c.statKey o.key
    let old := fld (c.trd k) 14 8
    let c := c.tsf k 14 8 x.slVal.toNat
    if old = x.slVal.toNat then c
    else c.tev (trib o.idx.val 6) (if c.ttype o.idx.val = 2 ∧ isPath o.idx.val = true then bit 29 else bit 11)
  else c

/-- A Tributary that is a member of a sink group in effect: its label is the extended one of K4 (R216). -/
def Core.extLabel (c : Core) (i : Nat) : Bool :=
  c.isTu i && c.groups.any fun q => bitOf (q.2.eff.getD 0 0) 0 && !bitOf (q.2.eff.getD 0 0) 1 &&
    (q.2.eff.drop 3).any fun w => decide (fld w 0 18 ≤ i) && decide (i < fld w 0 18 + fld w 18 9)

/-! ## Detection of defects (Table 5-10) -/

/-- The accepted label mismatches the expected one (ranks 20 and 28); the whole of EXP_SL for a group member (R216). -/
def Core.plmNow (c : Core) (o : ObjRef) : Bool :=
  let acc := fld (c.trd (c.statKey o.key)) 14 8
  let w := c.trc (trib o.idx.val 0)
  let exp := if c.isTu o.idx.val && !c.extLabel o.idx.val then fld w 16 3 else fld w 16 8
  acc != exp && acc != 0 && acc != 1 && exp != 0

/-- What a port's detections say of a defect: present, absent, or undecided. -/
def Core.portDetect (c : Core) (p : Nat) (d : Defect) : Option Bool :=
  let x := c.port p
  let otu := isOtu (c.rate p)
  let stat (v : Fin 8) (n : Nat) : Option Bool :=
    if otu && x.statVal = v && decide (3 ≤ x.statRun) then some true else if 3 ≤ n then some false else none
  match d with
  | .smTim => some (otu && c.gb (pe p 0x54) 4 && x.smBad)
  | .rsTim => some (c.gb (pe p 0x54) 0 && x.j0Bad)
  | .oduAis => stat 7 x.not7
  | .oduOci => stat 6 x.not6
  | .oduLck => stat 5 x.not5
  | .opuPlm => if otu && decide (3 ≤ x.ptRun) then some (c.gb (pe p 0x50) 29 && x.ptAcc != 2 && x.ptAcc != 3) else none
  | .msAis => if x.k2Val = 7 ∧ 3 ≤ x.k2Run then some true else if 3 ≤ x.notAisRun then some false else none
  | _ => none

/-- X of a VC-4-Xc TYPE, 1 for the other Path types (Table 6-4). -/
def concX (t : Nat) : Nat := match t with | 3 => 4 | 4 => 16 | 5 => 64 | _ => 1

/-- The interpreter state of an object, a VC-4-Xc's by the worst of its positions (R191). -/
def Core.effItp (c : Core) (k : Nat) : PtrSt :=
  let i := k / 4
  let all := (List.range (concX (if isPath i then c.ttype i else 0))).map fun j =>
    if j = 0 then (c.obj k).itp else (c.obj (okey (i + j) 0)).itp
  if all.contains .ais then .ais else if all.contains .lop then .lop else (c.obj k).itp

/-- A Path that lies, in whole or in part, outside the N positions of its port's rate: it is neither received nor sent (R20, R98,
R175). With no rate sensed or forced the port has no N. -/
def Core.unused (c : Core) (i : Nat) : Bool :=
  let n := rateN (c.rate (i / 64))
  isPath i && decide (n ≠ 0) && decide (n < i % 64 + concX (c.ttype i))

/-- Paths outside the N positions are in AU-LOP until the host reconfigures them (R98). -/
def Core.unusedLop (c : Core) : Core :=
  forL (c.inService.filter fun k => c.unused (k / 4)) (fun k c => c.updObj k fun x => { x with
    itp := .lop, goto := none, rx := {}, present := markDefect x.present .auLop true }) c

/-- What an object's detections say of a defect. -/
def Core.objDetect (c : Core) (o : ObjRef) (d : Defect) : Option Bool :=
  let x := c.obj o.key
  let i := o.idx.val
  let path := isPath i
  let itp := c.effItp o.key
  let ptr (st : PtrSt) : Option Bool :=
    if itp = st then some true else if itp = .norm ∨ itp = .conc then some false else none
  let off := c.unused i
  if !x.svc || !c.received i then none
  else match d with
    | .auAis => if path then (if itp = .lop then some false else ptr .ais) else none
    | .auLop => if path then (if off then some true else if itp = .ais then some false else ptr .lop) else none
    | .tuAis => if path then none else (if itp = .lop then some false else ptr .ais)
    | .tuLop => if path then none else (if itp = .ais then some false else ptr .lop)
    | .hpUneq => if path then (if 5 ≤ x.zRun then some true else if 5 ≤ x.nzRun then some false else none) else none
    | .lpUneq => if path then none else (if 5 ≤ x.zRun then some true else if 5 ≤ x.nzRun then some false else none)
    | .hpTim => if path then some (bitOf (c.trc (trib i 0)) 14 && x.timBad) else none
    | .lpTim => if path then none else some (bitOf (c.trc (trib i 0)) 14 && x.timBad)
    | .hpPlm => if path then some (c.plmNow o) else none
    | .lpPlm => if path then none else some (c.plmNow o)
    | _ => none

/-- A defect declared, or cleared, at a boundary at which its detection says so (R153). -/
def Core.declare (c : Core) (t : Target) (d : Defect) (on : Bool) : Core :=
  let det := match t with | .port p => c.portDetect p.val d | .obj o => c.objDetect o d
  if det = some on then c.setDefect t d on else c

/-- A remote indication declared or cleared after five blocks (Table 5-11). -/
def Core.remoteChange (c : Core) (t : Target) (r : Remote) : Core :=
  let mark (l : List Remote) (on : Option Bool) : List Remote :=
    match on with
    | some true => if l.contains r then l else l ++ [r]
    | some false => l.filter (· ≠ r)
    | none => l
  match t with
  | .port p =>
    let x := c.port p.val
    let on : Option Bool := match r with
      | .msRdi => if x.k2Val = 6 ∧ 5 ≤ x.k2Run then some true else if 5 ≤ x.notRdiRun then some false else none
      | .smBdi => if 5 ≤ x.smBdiRun then some x.smBdiVal else none
      | .pmBdi => if 5 ≤ x.pmBdiRun then some x.pmBdiVal else none
      | _ => none
    (c.setPort p.val { x with remote := mark x.remote on }).refresh p.val
  | .obj o =>
    let x := c.obj o.key
    let path := isPath o.idx.val
    let on : Option Bool := match r with
      | .hpRdi => if path && decide (5 ≤ x.rdiRun) then some x.rdiVal else none
      | .lpRdi => if !path && decide (5 ≤ x.rdiRun) then some x.rdiVal else none
      | .lpRfi => if c.ttype o.idx.val = 8 ∧ 5 ≤ x.rfiRun then some x.rfiVal else none
      | _ => none
    (c.setObj o.key { x with remote := mark x.remote on }).refresh (c.rxPort o.idx.val)

/-! ## Excessive errors and degrade (R143, R144, R501) -/

/-- EXC_SET, EXC_CLR, DEG_THR and DEG_M of a threshold word (Tables 5-22, 6-5). -/
def excSet (w : Word) (n : Nat) : Nat := fld w 0 8 * n
def excClr (w : Word) (n : Nat) : Nat := min (fld w 8 8) (fld w 0 8) * n
def degM (w : Word) : Nat := clamp 2 10 (fld w 28 4)

/-- The judgement of an ended window: declare, clear, or leave; EXC_SET = 0 disables EXC (R143). -/
def judgeExc (w : Word) (n : Nat) (due : Nat × Bool) : Option Bool :=
  if fld w 0 8 = 0 then some false
  else if due.2 then none
  else if excSet w n ≤ due.1 then some true else if due.1 < excClr w n then some false else none

/-- The end of an excessive-error window at its boundary (R143). -/
def Core.excWindowEnd (c : Core) (t : Target) : Core :=
  let go (w : Word) (n : Nat) (j : Judge) (d : Defect) (clear : Core) : Core :=
    match j.due with
    | none => c
    | some q => match judgeExc w n q with | some on => clear.setDefect t d on | none => clear
  match t with
  | .port p =>
    let x := c.port p.val
    go (c.rd (pe p.val 0x6C)) (rateN (c.rate p.val)) x.judge .msExc (c.setPort p.val { x with judge := { x.judge with due := none } })
  | .obj o =>
    let x := c.obj o.key
    go (c.trc (trib o.idx.val 2)) 1 x.judge (if isPath o.idx.val then .hpExc else .lpExc)
      (c.setObj o.key { x with judge := { x.judge with due := none } })

/-- A PM second of a degrade judgement: the new judgement and what it says (R144). -/
def judgeDeg (w : Word) (n : Nat) (j : Judge) : Judge × Option Bool :=
  let thr := fld w 16 12 * n
  let clean := { j with secDue := none }
  let sec := j.secDue.getD (0, true)
  if thr = 0 then ({ clean with badRun := 0, goodRun := 0 }, some false)
  else if sec.2 then (clean, none)
  else if thr ≤ sec.1 then
    ({ clean with badRun := j.badRun + 1, goodRun := 0 }, if degM w ≤ j.badRun + 1 then some true else none)
  else ({ clean with goodRun := j.goodRun + 1, badRun := 0 }, if degM w ≤ j.goodRun + 1 then some false else none)

/-! ## Performance monitoring (section 5.8) -/

/-- The PM second that ends at the running frame's beginning, if its end has not been taken yet. -/
def Core.secondDue (c : Core) : Option Nat :=
  if c.d06 && c.frame % 8000 = 0 && decide (c.pmSec < c.frame / 8000) && c.harvest.isNone then some (c.frame / 8000 - 1)
  else none

/-- The boundary that ends a PM second, as the frame before it closes: the counters change banks (R164, R172), so that the frame that
begins there counts into the next second. A port is in service, for VALID of its record, with EN = 1 and not held in OFF at that boundary:
DESIGN CHOICE, R166 does not say. -/
def Core.pmBank (c : Core) : Core :=
  let shut (j : Judge) : Judge := { j with secDue := some (j.secSum, j.secSf), secSum := 0, secSf := false }
  let done (a : PmAcc) (valid : Bool) : PmAcc := { a with valid := valid, suspect := a.suspect || decide (0 < c.pmSuspect) }
  let c := forN 96 (fun p c => c.updPort p fun x => { x with judge := shut x.judge, pmDone := done x.pm (c.portLive p), pm := {} }) c
  let c := forL (c.objs.map (·.1)) (fun k c => c.updObj k fun x =>
    { x with judge := shut x.judge, pmDone := done x.pm x.svc, pm := {} }) c
  { c with ceDone := c.ceSec, lateDone := c.lateSec, ceSec := 0, lateSec := 0, pmSuspect := c.pmSuspect - 1 }

/-- The end of a PM second: degrade is judged, the rate thresholds of the Reservoir are compared, and the ended second's counts wait for
the harvest (R144, R164, R270). -/
def Core.pmSecondEnd (c : Core) : Core :=
  match c.secondDue with
  | none => c
  | some sec =>
    let c := forN 96 (fun p c =>
      let x := c.port p
      let r := judgeDeg (c.rd (pe p 0x6C)) (rateN (c.rate p)) x.judge
      c.setPort p { x with
        judge := r.1, pmHeld := x.pmDone, pmDone := {}
        present := match r.2 with | some on => markDefect x.present .msDeg on | none => x.present }) c
    let c := forL (c.objs.map (·.1)) (fun k c =>
      let x := c.obj k
      let r := judgeDeg (c.trc (trib (k / 4) 2)) 1 x.judge
      c.setObj k { x with
        judge := r.1, pmHeld := x.pmDone, pmDone := {}
        present := match r.2 with
          | some on => markDefect x.present (if isPath (k / 4) then .hpDeg else .lpDeg) on
          | none => x.present }) c
    let c := forN 96 (fun p c => c.refresh p) c
    let ce := c.gf (rsv 0x48) 0 16
    let late := c.gf (rsv 0x48) 16 16
    let c := if ce ≠ 0 ∧ ce ≤ c.ceDone then (c.ev (rsv 0x408) (bit 3)).report 103 else c
    let c := if late ≠ 0 ∧ late ≤ c.lateDone then (c.ev (rsv 0x408) (bit 4)).report 104 else c
    { c with pmSec := sec + 1, harvest := some sec, ceDone := 0, lateDone := 0 }

/-- FLAGS of a PM record (Table 5-14). -/
def PmAcc.flags (x : PmAcc) : Nat :=
  (if x.valid then 1 else 0) + (if x.suspect then 2 else 0) + (if x.defSec then 4 else 0) + (if x.feSec then 8 else 0)

/-- A saturating little-endian field. -/
def leSat (n v : Nat) : List Byte := le n (min v (2 ^ (8 * n) - 1))

/-- Port, Path and Tributary records (Tables 5-14 to 5-16). -/
def portRecord (sec : Nat) (x : PmAcc) : List Byte :=
  le 4 sec ++ le 4 x.flags ++ le 4 x.defOr.toNat ++ ((List.range 12).flatMap fun k => leSat 4 (x.a.getD k 0)) ++ le 4 0
def pathRecord (sec : Nat) (x : PmAcc) : List Byte :=
  le 4 sec ++ le 4 x.flags ++ le 4 x.defOr.toNat ++ ((List.range 5).flatMap fun k => leSat 4 (x.a.getD k 0))
def tribRecord (sec : Nat) (x : PmAcc) : List Byte :=
  le 2 sec ++ le 2 x.flags ++ leSat 2 (x.a.getD 0 0) ++ leSat 2 (x.a.getD 1 0) ++ le 2 x.defOr.toNat ++
    leSat 1 (x.a.getD 2 0) ++ leSat 1 (x.a.getD 3 0) ++ leSat 2 (x.a.getD 4 0) ++ le 2 0

/-- The held PM counts of a Path: of its object, or the sums over the three VC-3s of an AU-3 position (R185). -/
def Core.pathPm (c : Core) (i : Nat) : PmAcc :=
  if c.ttype i = 2 then
    let xs := [1, 2, 3].map fun k => (c.obj (okey i k)).pmHeld
    { a := (List.range 5).map fun j => sumL (xs.map fun x => x.a.getD j 0)
      defOr := xs.foldl (fun w x => w ||| x.defOr) 0
      defSec := xs.any (·.defSec), feSec := xs.any (·.feSec), suspect := xs.any (·.suspect), valid := xs.any (·.valid) }
  else (c.obj (okey i 0)).pmHeld

/-- Record number n of a harvest: ports 0–95, then Paths and Tributaries by TRIB index; its place in the slot and its
bytes (Table 5-13, R166). -/
def Core.pmRecord (c : Core) (sec n : Nat) : Nat × List Byte :=
  if n < 96 then (n * 64, portRecord sec (c.port n).pmHeld)
  else
    let i := n - 96
    if i < 6144 then (0x1800 + i * 32, pathRecord sec (c.pathPm i))
    else (0x31800 + (i - 6144) * 16, tribRecord sec (c.obj (okey i 0)).pmHeld)

/-- The writes of the first `n` records of a harvest and of its slot descriptor (Table 5-13); none to a stack that may not be used
(R241). LAYOUT = 1 is written with the first harvest and reads 0 before it: DESIGN CHOICE, R165 does not say when (log entry 106). -/
def Core.harvestOps (c : Core) (sec n status : Nat) : List MemOp :=
  let area := orBase + 0x10000000
  let slot := area + 0x1000 + (sec % 64) * 0x240000
  let recs := (List.range n).map fun r => let q := c.pmRecord sec r; MemOp.write (slot + q.1) q.2
  if !c.orReady then []
  else recs ++ [.write (area + 0x100 + (sec % 64) * 16) (le 8 sec ++ le 4 status ++ le 4 n), .write area (le 8 sec),
    .write (area + 8) (le 4 1)]

/-- The harvest of the ended second, in its order (R166); past the boundary that ends the next second it has stopped (R167). -/
def Core.harvestAll (c : Core) (_m : List Host.Cell) : Core × List MemOp :=
  match c.harvest with
  | some sec =>
    if (sec + 2) * 8000 ≤ c.frame then (c, []) else (({ c with harvest := none } : Core).srExit, c.harvestOps sec 137312 2)
  | none => (c, [])

/-- A harvest overtaken by the boundary that ends the next second: it stops with WRITTEN as it stands, STATUS = LATE
(R167). -/
def Core.harvestLate (c : Core) (_m : List Host.Cell) (written : Nat) : Core × List MemOp :=
  match c.harvest with
  | some sec =>
    if (sec + 2) * 8000 ≤ c.frame ∧ written < 137312 then
      let n := min (c.lateCount + 1) 0xFFFFFFFF
      (({ c with harvest := none, lateCount := n } : Core).srExit, c.harvestOps sec written 4 ++ (if c.orReady then [.write (orBase + 0x1000000C) (le 4 n)] else []))
    else (c, [])
  | none => (c, [])

/-- A harvest still running at the boundary that ends the next second stops there; how far it came is not stated and is a
free value (R167). -/
def Core.harvestMiss (c : Core) (m : List Host.Cell) : Core × List MemOp :=
  match c.harvest with
  | some sec => if (sec + 2) * 8000 ≤ c.frame then c.fresh.harvestLate m (Config.freeNat c.freeCtr % 137312) else (c, [])
  | none => (c, [])

/-! ## The VCs received (Tables 5-3, 5-4) -/

/-- Bytes of the VC of an object, or of its VC multiframe for a TU-11, TU-12 or TU-2 (Table 8-3). -/
def Core.vcLen (c : Core) (k : Nat) : Nat :=
  match c.ttype (k / 4) with | 2 => 765 | 8 => 104 | 9 => 140 | 10 => 428 | 11 => 765 | t => 2349 * concX t

/-- How many bytes lie between two path overhead bytes of a VC: a row, or a quarter of a multiframe. -/
def Core.pohStep (c : Core) (k : Nat) : Nat := c.vcLen k / (if c.isTu (k / 4) then 4 else 9)

/-- The extended signal label that the K4 bytes of a group member, newest first, have just completed: bit 1 carries the alignment signal
0b01111111110 and then the eight bits of the label (R216, G.707). -/
def extLabelOf (k4 : List Byte) : Option Byte :=
  let bits := (k4.take 19).reverse.map fun (b : Byte) => b.getLsbD 7
  if bits.length = 19 ∧ bitsNat (bits.take 11) = 0x3FE then some (BitVec.ofNat 8 (bitsNat (bits.drop 11))) else none

/-- The label of a received VC, none where a group member's extended label has not come again (R216). A member whose V5 label is not
0b101 carries no extended label; its V5 label is then the one accepted. -/
def Core.vcLabel (c : Core) (k : Nat) (vc : List Byte) (k4 : List Byte) : Option Byte :=
  let i := k / 4
  let v5 : Byte := (vc.getD 0 0 >>> 1) &&& 7
  if !c.isTu i then some (vc.getD (2 * c.pohStep k) 0)
  else if c.extLabel i && v5 = 5 then extLabelOf k4
  else some v5

/-- Parity errors of a received VC against the one before it: B3, or BIP-2 of V5 (Table 5-6). -/
def Core.vcErrors (c : Core) (k : Nat) (vc : List Byte) : Nat :=
  match (c.obj k).rx.bip with
  | none => 0
  | some b => if c.isTu (k / 4) then ones 2 (bip2 b ^^^ (vc.getD 0 0).toNat / 64) else bitDiff b (vc.getD (c.pohStep k) 0)

/-- The E1 monitor fed with a received VC-12, and its counts taken into the TRIB entry (section 4.9). -/
def Core.e1Block (c : Core) (k : Nat) (vc : List Byte) : Core :=
  let i := k / 4
  if !c.e1On i then c
  else
    let x := c.obj k
    let e := (demapE1 vc).foldl (E1Rx.bit (c.crc4Thr i)) (if x.e1rx.st = .off then { x.e1rx with st := .search } else x.e1rx)
    ((c.tcAdd i 5 e.bad).tcAdd i 6 e.ebits).setObj k { x with e1rx := { e with bad := 0, ebits := 0 } }

/-- A VC, or a VC multiframe, received whole: parity and REI counted, label, RDI, RFI, trace and H4 read, and the REI to be sent for it
(R129, R140–R142, R147, R158). A block under signal fail in any of its frames is answered with REI 0. -/
def Core.vcBlock (c : Core) (k : Nat) (vc : List Byte) : Core :=
  let i := k / 4
  let x := c.obj k
  let sf := c.objSfX k
  let tu := c.isTu i
  let d := c.pohStep k
  let top := if tu then 1 else 8
  let v5 := vc.getD 0 0
  let g1 := vc.getD (3 * d) 0
  let bip := c.vcErrors k vc
  let got := if tu then (v5.toNat / 32 % 2) else g1.toNat / 16
  let rei := if got ≤ top then got else 0
  let rdi := if tu then v5.getLsbD 0 else g1.getLsbD 3
  let rfi := tu && v5.getLsbD 4
  let k4 := if tu then (vc.getD (3 * d) 0 :: x.rx.k4).take 32 else []
  let back := bitOf (c.rd (pe (c.rxPort i) 0x68)) (if isPath i then 23 else 25)
  let frozen := x.itp != .norm || x.reported.contains .auAis || x.reported.contains .auLop
  let uneq := (if tu then (v5 >>> 1) &&& 7 else vc.getD (2 * d) 0) = 0
  let lab := c.vcLabel k vc k4
  let h4v := if frozen then { x.h4 with last := none, want := (x.h4.want + 1) % 4 }
    else x.h4.value 4 (c.mfOomN (c.portOf i)) ((vc.getD (5 * d) 0).toNat % 4)
  let c := if sf then c else (c.tcAdd i 0 bip).tcAdd i 1 rei
  (c.setObj k { x with
    rx := { x.rx with bip := some (bip8 vc), sf := false, k4 := k4
                      got := x.rx.got ++ [vc.getD (if tu then 3 * d else 5 * d) 0]
                      trace := x.rx.trace.byte (bitOf (c.trc (trib i 0)) 13) (vc.getD (if tu then d else 0) 0) }
    h4 := if isPath i then h4v else x.h4
    slVal := lab.getD x.slVal, slRun := match lab with | some l => runOf x.slVal x.slRun l | none => x.slRun
    zRun := if uneq then x.zRun + 1 else 0
    nzRun := if uneq then 0 else x.nzRun + 1
    rdiVal := rdi, rdiRun := runOf x.rdiVal x.rdiRun rdi
    rfiVal := rfi, rfiRun := runOf x.rfiVal x.rfiRun rfi
    judge := if sf then x.judge
      else { x.judge with winSum := x.judge.winSum + bip, secSum := x.judge.secSum + bip }
    txRei := if sf || x.rx.sf || !back then 0 else min bip top
    pm := { x.pm with a := if sf then x.pm.a else (addAt 0 bip (addAt 1 rei x.pm.a)).take 5 } }).e1Block k vc

/-- The bytes of a frame in pieces, each with whether a VC begins with it. -/
def pieces (starts : List Nat) (bs : List Byte) : List (Bool × List Byte) :=
  let cuts := starts.filter (· < bs.length)
  (false, bs.take (cuts.headD bs.length)) ::
    cuts.zipIdx.map fun q => (true, (bs.drop q.1).take (cuts.getD (q.2 + 1) bs.length - q.1))

/-- A piece joined to the VC in progress; a VC cut short by a new start is dropped. A completed VC is kept for its signature with the
stream position and the frame of its first byte (R283). -/
def Core.feedVc (c : Core) (k : Nat) (s : Bool × List Byte) : Core :=
  let x := c.obj k
  let rx := if s.1 then
      { x.rx with part := [], sync := true, first := (x.rx.pos, c.frame), bip := if x.rx.part = [] then x.rx.bip else none } else x.rx
  let part := rx.part ++ s.2
  let rx := { rx with pos := (rx.pos + s.2.length) % 2 ^ 32 }
  let n := c.vcLen k
  if !rx.sync then c.setObj k { x with rx := rx }
  else if part.length < n then c.setObj k { x with rx := { rx with part := part } }
  else
    let rx := { rx with part := part.drop n, first := ((rx.first.1 + n) % 2 ^ 32, c.frame), done := rx.done ++ [(part.take n, rx.first)] }
    (c.setObj k { x with rx := rx }).vcBlock k (part.take n)

/-- The object whose transmitted signal an object receives in internal loopback: a Path's own, or the transmit Tributary in the same
place (R81). -/
def Core.mirror (c : Core) (k : Nat) : Option Nat :=
  if isPath (k / 4) then some k
  else
    let w3 (j : Nat) := fld (c.trc (trib j 3)) 0 21
    c.inService.find? fun j => !isPath (j / 4) && !c.received (j / 4) && c.ttype (j / 4) = c.ttype (k / 4) && w3 (j / 4) = w3 (k / 4)

/-- In internal loopback an object receives what the port's own transmit side sent in the frame: the same Path, or the transmit Tributary
in the same place (R81). -/
def Core.looped (c : Core) (q : ObjIn) : ObjIn :=
  let i := q.obj.idx.val
  if !c.loopInt (c.rxPort i) then q
  else
    let src := (c.mirror q.obj.key).bind fun j => c.rsvS.out.find? fun s => s.key = j
    match src with
    | some s =>
      let n := c.vcLen q.obj.key
      let at_ := (n - s.phase % n) % n
      { q with bytes := s.bytes.map (·.2), starts := [at_, at_ + n] }
    | none => { q with bytes := [], starts := [] }

/-- The object inputs of the frame that ends; a Path at a position its port does not carry is not received (R98). -/
def Core.objFrameIn (c : Core) (q : ObjIn) : Core :=
  let k := q.obj.key
  let i := q.obj.idx.val
  let q := c.looped q
  if !(c.obj k).svc || !c.received i || c.unused (c.pathOf i) then c
  else (pieces q.starts q.bytes).foldl (fun c s => c.feedVc k s)
    (c.updObj k fun x => { x with rx := { x.rx with got := [], done := [], pos := x.stream } })

/-- The end of a frame for an object in service: signal fail into its window, second and PM flags, H4 frames
(R131, R143, R144, R156). -/
def Core.objFrameEnd (c : Core) (k : Nat) : Core :=
  let x := c.obj k
  let sfx := c.objSfX k
  let st := fld (c.trd (c.statKey k)) 22 9
  let rfi := if isPath (k / 4) then 0 else fld (c.trd (trib (k / 4) 6)) 16 1
  let held := x.itp != .norm || x.reported.contains .auAis || x.reported.contains .auLop
  let show_ (c : Core) : Core := if isPath (k / 4) && held && x.h4.inMf then c.showH4 k else c
  show_ <| c.setObj k { x with
    judge := { x.judge with winSf := x.judge.winSf || sfx, secSf := x.judge.secSf || sfx }
    h4 := if held then { x.h4.out with oomF := x.h4.oomF, mfF := x.h4.mfF } else x.h4.frame
    pm := { x.pm with
      defOr := x.pm.defOr ||| BitVec.ofNat 32 (st % 256 + rfi * 256 + st / 256 * 512)
      defSec := x.pm.defSec || 256 ≤ st
      feSec := x.pm.feSec || st / 128 % 2 = 1 || rfi = 1
      suspect := x.pm.suspect || c.stale (0x20 + c.portOf (k / 4)) }
    rx := { x.rx with sf := x.rx.sf || sfx }
    timBad := x.timBad && bitOf (c.trc (trib (k / 4) 0)) 14 }

/-- The end of a frame for a port (R143, R156). -/
def Core.portFrameEnd (c : Core) (p : Nat) : Core :=
  let x := c.port p
  let sfx := c.portSfX p
  let w := c.rd (pe p 0x204)
  c.setPort p { x with
    judge := { x.judge with winSf := x.judge.winSf || sfx, secSf := x.judge.secSf || sfx }
    pm := { x.pm with
      defOr := x.pm.defOr ||| w
      defSec := x.pm.defSec || c.portSf p
      feSec := x.pm.feSec || (w &&& 0x38000) != 0
      suspect := x.pm.suspect || c.stale (0x20 + p) }
    j0Bad := x.j0Bad && c.gb (pe p 0x54) 0, smBad := x.smBad && c.gb (pe p 0x54) 4
    dccR := if c.tapOn p false then x.dccR else x.dccR.stop
    dccM := if c.tapOn p true then x.dccM else x.dccM.stop }

/-- Excessive-error windows that end at the boundary beginning frame `n` (section 5.2): 8 frames at the port and HO
layers, 32 frames at the LO layer. -/
def Core.windows (c : Core) (n : Nat) : Core :=
  let shut (j : Judge) : Judge := { j with due := some (j.winSum, j.winSf), winSum := 0, winSf := false }
  if n % 8 = 0 then
    let c := forN 96 (fun p c => if c.portLive p then c.updPort p fun x => { x with judge := shut x.judge } else c) c
    forL c.inService (fun k c =>
      if isPath (k / 4) ∨ c.ttype (k / 4) = 11 ∨ n % 32 = 0 then c.updObj k fun x => { x with judge := shut x.judge } else c) c
  else c

/-- LOS at a boundary (R157), with OOF and C_OOF as the port shows them (Table 5-10, ranks 3 and 11). `dark` is the longest time in µs for
which the received data had held no transition at some time of the frame that ends. -/
def Core.losOof (c : Core) (p : Nat) (dark : Nat) : Core :=
  let st := c.pst p
  let los := !c.energy p || (c.gb (pe p 0x50) 0 && decide (clamp 3 100 (c.gf (pe p 0x50) 1 7) ≤ dark))
  let oof := decide (2 ≤ st ∧ st ≤ 4)
  let coof := isOtu (c.rate p) && decide (5 ≤ st) && (c.port p).cl.lock.isNone
  c.updPort p fun x => { x with
    present := markDefect (markDefect (markDefect x.present .los los) .oof oof) .cOof coof
    cl := { x.cl with shown := x.cl.lock.isSome } }

def execTtiAccept (t : Trace) (bytes : List Byte) (s : State) : Host.Outcome State Fault Refusal :=
  s.onSeen (fun c => decide (c.traceHeard t = bytes)) (·.ttiAccept t)
def execSsmAccept (p : Port) (s : State) : Host.Outcome State Fault Refusal := s.on (·.ssmAccept p.val)
def execSignalLabelAccept (o : ObjRef) (s : State) : Host.Outcome State Fault Refusal := s.on (·.labelAccept o)
def execDefectDeclare (t : Target) (d : Defect) (s : State) : Host.Outcome State Fault Refusal :=
  s.on (·.declare t d true)
def execDefectClear (t : Target) (d : Defect) (s : State) : Host.Outcome State Fault Refusal :=
  s.on (·.declare t d false)
def execExcWindowEnd (t : Target) (s : State) : Host.Outcome State Fault Refusal := s.on (·.excWindowEnd t)
def execRemoteIndicationChange (t : Target) (r : Remote) (s : State) : Host.Outcome State Fault Refusal :=
  s.on (·.remoteChange t r)
def execPmSecondEnd (s : State) : Host.Outcome State Fault Refusal := s.on (·.pmSecondEnd)
def execHarvest (s : State) : Host.Outcome State Fault Refusal := s.onMem (·.harvestAll ·)
def execHarvestLate (n : Nat) (s : State) : Host.Outcome State Fault Refusal := s.onMem (·.harvestLate · n)

end Sys2Proof.Machine
end

