-- ==== Sys2Proof/Machine/Mapping.lean ====
section
/-! DEFINITION. TRIB entries in and out of service, pointer interpretation and generation, PRBS pairs (Mapping,
Tributaries and Pointers). -/

namespace Sys2Proof.Machine

/-! ## Checks for service (Table 6-3) -/

/-- VALID of a TRIB entry. -/
def Core.tvalid (c : Core) (i : Nat) : Bool := bitOf (c.trd (trib i 0)) 0

/-- The Path entry that covers a continuation position (Table 6-3, R179). -/
def Core.coveredBy (c : Core) (i : Nat) : Option Nat :=
  [4, 16, 64].findSome? fun x =>
    let h := i / x * x
    if h ≠ i ∧ h / 64 = i / 64 ∧ c.tvalid h = true ∧ concX (c.ttype h) = x then some h else none

/-- The checks of a Path that is not a continuation. -/
def Core.pathOk (c : Core) (i : Nat) : Bool :=
  let t := c.ttype i
  let x := concX t
  c.tvalid i && decide (1 ≤ t ∧ t ≤ 5) && decide (i % 64 % x = 0) &&
    ((List.range x).drop 1).all fun j => c.tvalid (i + j) && c.ttype (i + j) = 6

/-- The checks of any Path entry; a continuation is in service exactly when the entry that covers it is. -/
def Core.pathServes (c : Core) (i : Nat) : Bool :=
  if c.ttype i = 6 then c.tvalid i && (match c.coveredBy i with | some h => c.pathOk h | none => false) else c.pathOk i

/-- The window of a port (Table 6-12, R180). -/
def Core.inWindow (c : Core) (p i : Nat) : Bool :=
  let base := max 6144 (c.gf (pe p 0x5C) 0 18)
  decide (base ≤ i) && decide (i < base + min 5376 (c.gf (pe p 0x60) 0 13)) && decide (i ≤ 137215)

/-- PARENT, TUG3, TUG2, TU and DIR of a Tributary. -/
def Core.place (c : Core) (i : Nat) : Nat × Nat × Nat × Nat × Nat :=
  let w := c.trc (trib i 3)
  (fld w 0 13, fld w 13 2, fld w 15 3, fld w 18 3, fld (c.trc (trib i 0)) 11 1)

/-- The checks of a Tributary but for its place being free. On a SONET port a VC-4 is carried whole, so that nothing is in service
in one (R176). -/
def Core.tribOk (c : Core) (i : Nat) : Bool :=
  let t := c.ttype i
  let (q, g3, g2, tu, dir) := c.place i
  let w0 := c.trc (trib i 0)
  let pt := c.ttype q
  let sdh := c.gf (pe (q / 64) 0x208) 4 2 ≠ 2
  c.tvalid i && decide (8 ≤ t ∧ t ≤ 11) && decide (q < 6144) && c.pathServes q && decide (1 ≤ g3) &&
    ((pt = 1 && sdh && bitOf (c.trc (trib q 0)) 5) || (pt = 2 && bitOf (c.trc (trib q 0)) (4 + g3))) &&
    (if t = 11 then pt = 1 && g2 = 0 && tu = 0
     else decide (1 ≤ g2 ∧ g2 ≤ 7) && decide (1 ≤ tu ∧ tu ≤ (match t with | 8 => 4 | 9 => 3 | _ => 1))) &&
    c.inWindow (q / 64) i && (!bitOf w0 10 || (t = 9 && dir = 0))

/-- Two Tributaries claim one place (Table 6-3, R181). -/
def Core.clash (c : Core) (i j : Nat) : Bool :=
  let (q, g3, g2, tu, dir) := c.place i
  let (q', g3', g2', tu', dir') := c.place j
  q = q' && dir = dir' && g3 = g3' &&
    (c.ttype i = 11 || c.ttype j = 11 || (g2 = g2' && (c.ttype i ≠ c.ttype j || tu = tu')))

/-- Every index whose TRIB entry has VALID = 1. -/
def Core.validIdx (c : Core) : List Nat :=
  ((Sparse.range (trib 0 0) (trib 137216 0) c.tbl).filter fun q => q.1 % 16 = 0 && bitOf q.2 0).map
    fun q => (q.1 - trib 0 0) / 16

/-- The Tributaries in service: those that keep their place first, then the others by index (R181). -/
def Core.tribsServing (c : Core) : List Nat :=
  let ok := c.validIdx.filter fun i => decide (6144 ≤ i) && c.tribOk i
  let old := ok.filter fun i => (c.obj (okey i 0)).svc
  let new := ok.filter fun i => !(c.obj (okey i 0)).svc
  (old ++ new).foldl (fun acc i => if acc.any (c.clash i) then acc else acc ++ [i]) []

/-- The object keys of a serving entry: one, or the three VC-3s of an AU-3 position. -/
def Core.entryKeys (c : Core) (i : Nat) : List Nat :=
  if c.ttype i = 2 ∧ isPath i = true then [okey i 1, okey i 2, okey i 3] else [okey i 0]

/-- An object entering service: its interpreter in LOP, its generator due to send pointer 0 with NDF; a Tributary shows its parent's
H4_STATE (R131, R191, R193). -/
def Core.enter (c : Core) (k : Nat) : Core :=
  let x := c.obj k
  let c := c.setObj k { svc := true, gNdf := true, gOn := true, pm := { x.pm with suspect := true }, pmHeld := x.pmHeld }
  let c := c.tsf (c.statKey k) 10 2 2
  if isPath (k / 4) then c else c.tsf (c.statKey k) 12 1 (if (c.obj (c.pathObj (k / 4))).h4.inMf then 1 else 0)

/-- An object leaving service: its LV fields read their reset values, counters and events are kept (R183); an empty HO
position is due to send pointer 0 with NDF (R197). -/
def Core.leave (c : Core) (k : Nat) : Core :=
  let x := c.obj k
  let c := c.twr (c.statKey k) 0
  let c := if isPath (k / 4) then c else c.twr (trib (k / 4) 6) (c.trd (trib (k / 4) 6) &&& ~~~0x000F0000)
  c.setObj k { gNdf := isPath (k / 4), pm := { x.pm with suspect := true }, pmHeld := x.pmHeld }

/-- The checks of every entry at a boundary (R178, R182): service begins and ends, STRUCT_ERR follows. -/
def Core.serviceCheck (c : Core) : Core :=
  let valid := c.validIdx
  let paths := valid.filter fun i => isPath i && c.pathServes i
  let serving := paths ++ c.tribsServing
  let keys := serving.flatMap c.entryKeys
  let gone := c.inService.filter fun k => !keys.contains k
  let c := forL gone (fun k c => c.leave k) c
  let c := forL (keys.filter fun k => !(c.obj k).svc) (fun k c => c.enter k) c
  let c := forL valid (fun i c => c.tsf (trib i 6) 31 1 (if serving.contains i then 0 else 1)) c
  forL (((Sparse.range (trib 0 0) (trib 137216 0) c.tbl).filter fun q =>
      q.1 % 16 = 6 && bitOf q.2 31 && !bitOf (c.trd (q.1 - 6)) 0).map (·.1)) (fun k c => c.tsf k 31 1 0) c

/-! ## Pointer interpretation (section 6.4) -/

/-- The pointer classes of Table 6-7. -/
inductive PtrClass where
  | aisInd | ci | ndfEn | inc | dec | norm | new | inv
  deriving DecidableEq, Repr

/-- The largest pointer value of a TYPE (R189). -/
def ptrMax (t : Nat) : Nat := match t with | 8 => 103 | 9 => 139 | 10 => 427 | 11 => 764 | _ => 782

/-- The class of a received pointer word, in the first matching row of Table 6-7. The I bits are bits 9, 7, 5, 3 and 1 of
the pointer value, the D bits the others. -/
def ptrClass (max : Nat) (cont : Bool) (cur : Option Nat) (near : Bool) (ssBad : Bool) (w : BitVec 16) : PtrClass :=
  let ndf := (w.extractLsb' 12 4).toNat
  let v := (w.extractLsb' 0 10).toNat
  let en := ones 4 (ndf ^^^ 9) ≤ 1
  let off := ones 4 (ndf ^^^ 6) ≤ 1
  if w = 0xFFFF then .aisInd
  else if ssBad then .inv
  else if cont && ndf = 9 && v = 1023 then .ci
  else if en && v ≤ max then .ndfEn
  else match cur with
    | some q =>
      let d := v ^^^ q
      let i5 := ones 10 (d &&& 0x2AA)
      let d5 := ones 10 (d &&& 0x155)
      if off && 3 ≤ i5 && d5 ≤ 2 then (if near then .inv else .inc)
      else if off && 3 ≤ d5 && i5 ≤ 2 then (if near then .inv else .dec)
      else if off && v = q then .norm
      else if off && v ≤ max then .new
      else .inv
    | none => if off && v ≤ max then .new else .inv

/-- The consecutive counts of an interpreter after a class. -/
def Obj.count (x : Obj) (cl : PtrClass) (v : Nat) : Obj :=
  { x with
    nAis := if cl = .aisInd then x.nAis + 1 else 0
    nInv := if cl = .inv then x.nInv + 1 else 0
    nNdf := if cl = .ndfEn then x.nNdf + 1 else 0
    nOth := if cl = .aisInd ∨ cl = .ci then 0 else x.nOth + 1
    nCi := if cl = .ci then x.nCi + 1 else 0
    nNew := if cl = .new then (if x.newVal = v then x.nNew + 1 else 1) else 0
    newVal := if cl = .new ∨ cl = .ndfEn then v else x.newVal
    since := x.since + 1 }

/-- The state that the counts call for (Table 6-8); a continuation position has its own rows. -/
def Obj.next (x : Obj) (cont : Bool) (aisN lopN : Nat) (cl : PtrClass) : Option PtrSt :=
  if cont then
    match x.itp with
    | .ais => if 3 ≤ x.nCi then some .conc else if lopN ≤ x.nOth then some .lop else none
    | .lop => if aisN ≤ x.nAis then some .ais else if 3 ≤ x.nCi then some .conc else none
    | _ => if aisN ≤ x.nAis then some .ais else if lopN ≤ x.nOth then some .lop else none
  else match x.itp with
    | .ais => if cl = .ndfEn ∨ 3 ≤ x.nNew then some .norm else if lopN ≤ x.nInv then some .lop else none
    | .lop => if 3 ≤ x.nNew then some .norm else if aisN ≤ x.nAis then some .ais else none
    | _ => if aisN ≤ x.nAis then some .ais else if lopN ≤ x.nInv ∨ lopN ≤ x.nNdf then some .lop else none

/-- PTR shown for an object (W5 [9:0]). -/
def Core.showPtr (c : Core) (k v : Nat) : Core := c.tsf (c.statKey k) 0 10 v

/-- The interpreter of an object runs: in service, received, within the port's N positions, and for a TU-11, TU-12 or TU-2 with its
Path's pointer in NORM and no AU-AIS or AU-LOP (R20, R98, R191, R192). -/
def Core.interprets (c : Core) (k : Nat) : Bool :=
  let i := k / 4
  (c.obj k).svc && !c.unused (c.pathOf i) && (isPath i || (fld (c.trc (trib i 0)) 11 1 = 0 &&
    (!c.isTu i || let q := c.obj (c.pathObj i)
     q.itp = .norm && !q.reported.contains .auAis && !q.reported.contains .auLop)))

/-- A pointer justification accepted or generated: counters of the entry and of its PM record (R187). -/
def Core.pje (c : Core) (k : Nat) (up : Bool) : Core :=
  let add (l : List Nat) : List Nat :=
    (List.range 5).map fun j => l.getD j 0 + (if j = (if up then 2 else 3) then 1 else 0)
  (c.tcAdd (k / 4) (if up then 2 else 3) 1).updObj k fun x => { x with pm := { x.pm with a := add x.pm.a } }

/-- The pointer word an object receives: the one on the line, or in internal loopback the one last sent in its place (R81). -/
def Core.wordIn (c : Core) (k : Nat) (w : BitVec 16) : BitVec 16 :=
  if c.loopInt (c.rxPort (k / 4)) then (match c.mirror k with | some j => (c.obj j).gOut | none => 0) else w

/-- One received pointer word (R189, R190): values accepted in NORM take effect, and a state the counts call for is
noted for the state change. -/
def Core.pointerReceive (c : Core) (o : ObjRef) (w : BitVec 16) : Core :=
  let k := o.key
  let i := o.idx.val
  let w := c.wordIn k w
  if !c.interprets k then c
  else
    let p := c.portOf i
    let cfg := c.rd (pe p 0x58)
    let x := c.obj k
    let cont := isPath i && c.ttype i = 6
    let mx := ptrMax (c.ttype i)
    let ss := (w.extractLsb' 10 2).toNat
    let ssBad := bitOf cfg 7 && ss != (if c.gf (pe p 0x208) 4 2 = 2 then 0 else 2)
    let cl := ptrClass mx cont (if x.itp = .norm then x.cur else none) (x.since < 3) ssBad w
    let v := (w.extractLsb' 0 10).toNat
    let y := x.count cl v
    let nx := y.next cont (clamp 3 5 (fld cfg 4 3)) (clamp 8 10 (fld cfg 0 4)) cl
    let c := c.setObj k { y with goto := nx }
    let c := if cl = .inv then
        (if isPath i then c.ev (pe p 0x40C) (bit 3) else c).tev (trib i 6)
          (if c.ttype i = 2 ∧ isPath i = true then 0 else bit 14)
      else c
    if x.itp = .norm ∧ nx = none ∧ cont = false then
      let q := x.cur.getD 0
      let accept (n : Nat) (c : Core) : Core :=
        (c.updObj k fun x => { x with cur := some n, since := 0, nNew := 0 }).showPtr k n
      match cl with
      | .inc => (accept (if mx ≤ q then 0 else q + 1) c).pje k true
      | .dec => (accept (if q = 0 then mx else q - 1) c).pje k false
      | .ndfEn =>
        let c := (accept v c).tev (trib i 6) (if c.ttype i = 2 ∧ isPath i = true then bit 30 else bit 13)
        if isPath i then c.ev (pe p 0x40C) (bit 2) else c
      | .new => if 3 ≤ y.nNew then accept v c else c
      | _ => c
    else c

/-- An interpreter enters a state: its value is that of the pointer that led there, its counts start again (Table 6-8). -/
def Obj.enterPtr (x : Obj) (st : PtrSt) : Obj :=
  { x with
    itp := st, goto := none, cur := if st = .norm then some x.newVal else none, since := 0
    nAis := 0, nInv := 0, nNdf := 0, nOth := 0, nCi := 0, nNew := 0 }

/-- The interpreter of an object on the port of its MSP pair that is not selected takes a pointer word: state and value only, without
status, events and counts (R299). -/
def Core.pointerOther (c : Core) (o : ObjRef) (w : BitVec 16) : Core :=
  let k := o.key
  let i := o.idx.val
  let spare (j : Nat) : Obj := Sparse.get (fun _ => {}) c.spare j
  let runs := (c.obj k).svc && !c.unused (c.pathOf i) && (isPath i ||
    (fld (c.trc (trib i 0)) 11 1 = 0 && (!c.isTu i || (spare (c.pathObj i)).itp = .norm)))
  if !runs then c
  else
    let cfg := c.rd (pe (c.portOf i) 0x58)
    let x := spare k
    let cont := isPath i && c.ttype i = 6
    let mx := ptrMax (c.ttype i)
    let ssBad := bitOf cfg 7 && (w.extractLsb' 10 2).toNat != (if c.gf (pe (c.portOf i) 0x208) 4 2 = 2 then 0 else 2)
    let cl := ptrClass mx cont (if x.itp = .norm then x.cur else none) (x.since < 3) ssBad w
    let v := (w.extractLsb' 0 10).toNat
    let y := x.count cl v
    let q := x.cur.getD 0
    let accept (n : Nat) : Obj := { y with cur := some n, since := 0, nNew := 0 }
    let z : Obj := match y.next cont (clamp 3 5 (fld cfg 4 3)) (clamp 8 10 (fld cfg 0 4)) cl with
      | some st => y.enterPtr st
      | none =>
        if x.itp = .norm ∧ cont = false then
          match cl with
          | .inc => accept (if mx ≤ q then 0 else q + 1)
          | .dec => accept (if q = 0 then mx else q - 1)
          | .ndfEn => accept v
          | .new => if 3 ≤ y.nNew then accept v else y
          | _ => y
        else y
    { c with spare := Sparse.put (fun _ => {}) c.spare k z }

/-- Code of PTR_STATE. -/
def PtrSt.code : PtrSt → Nat | .norm => 0 | .ais => 1 | .lop => 2 | .conc => 3

/-- The interpreter changes state (Table 6-8); its H4 machine and E1 monitor follow (R130, R132). -/
def Core.pointerStateChange (c : Core) (o : ObjRef) : Core :=
  let k := o.key
  let i := o.idx.val
  let x := c.obj k
  match x.goto with
  | none => c
  | some st =>
    let c := c.setObj k { x.enterPtr st with
      h4 := if st = .norm then x.h4 else { x.h4.out with last := none }
      rx := if st = .norm then x.rx else {}
      e1 := if st = .norm ∧ (!isPath i && bitOf (c.trc (trib i 0)) 10) = true then .search else .off
      e1rx := {} }
    let c := c.tsf (c.statKey k) 10 2 st.code
    let c := if isPath i then c.showH4 k else c
    let c := if isPath i then c else c.tsf (trib i 6) 17 3 (c.obj k).e1.code
    let ndf := st = .norm && x.nNdf != 0
    let c := if ndf then c.tev (trib i 6) (if c.ttype i = 2 ∧ isPath i = true then bit 30 else bit 13) else c
    let c := if ndf && isPath i then c.ev (pe (i / 64) 0x40C) (bit 2) else c
    if st = .norm then c.showPtr k x.newVal else c

/-- The interpreter of an object changes places with the one that ran on the other port of its MSP pair (R299): its state and value show,
and where it does not go on in NORM its H4 machine and E1 monitor follow as at a change of state. -/
def Core.switchPtr (c : Core) (k : Nat) : Core :=
  let take (x y : Obj) : Obj := { x with
    itp := y.itp, cur := y.cur, since := y.since, newVal := y.newVal, goto := none
    nAis := y.nAis, nInv := y.nInv, nNdf := y.nNdf, nOth := y.nOth, nCi := y.nCi, nNew := y.nNew }
  let x := c.obj k
  let y : Obj := Sparse.get (fun _ => {}) c.spare k
  let left := match x.goto with | some st => x.enterPtr st | none => x
  let z := take x y
  let z := if x.itp = .norm ∧ y.itp = .norm then z else { z with
    h4 := if y.itp = .norm then z.h4 else { z.h4.out with last := none }
    rx := if y.itp = .norm then z.rx else {}
    e1 := if y.itp = .norm ∧ (!isPath (k / 4) && bitOf (c.trc (trib (k / 4) 0)) 10) = true then .search else .off
    e1rx := {} }
  let c := { c.setObj k z with spare := Sparse.put (fun _ => {}) c.spare k (take {} left) }
  let c := c.tsf (c.statKey k) 10 2 y.itp.code
  let c := if isPath (k / 4) then c.showH4 k else c.tsf (trib (k / 4) 6) 17 3 z.e1.code
  match y.cur with | some v => c.showPtr k v | none => c

/-- PE_PTR: HO VCs in service by pointer state (Table 6-13). -/
def Core.countPtr (c : Core) (p : Nat) : Core :=
  let ks := (c.onPort p).filter fun k => isPath (k / 4) && c.ttype (k / 4) ≠ 6
  let n (st : PtrSt) := min 255 (ks.filter fun k => c.effItp k = st).length
  c.wr (pe p 0x20C) (BitVec.ofNat 32 (n .norm + n .ais * 256 + n .lop * 65536))

/-! ## Pointer generation (section 6.5) -/

/-- The unit U of an object in bytes. -/
def genUnit (t : Nat) : Nat := match t with | 1 => 3 | 3 => 12 | 4 => 48 | 5 => 192 | _ => 1

/-- A pointer word: NDF enabled or not, SS bits and value. -/
def ptrWord (ndf : Bool) (ss v : Nat) : BitVec 16 := BitVec.ofNat 16 ((if ndf then 9 else 6) * 4096 + ss * 1024 + v)

/-- The SS bits a port sends (R200). -/
def Core.txSs (c : Core) (p : Nat) : Nat := if c.gf (pe p 0x208) 4 2 = 2 then 0 else 2

/-- The pointer word of a continuation position, and of an HO position with no Path in service (R197, R199, R200). -/
def Core.fillWord (c : Core) (k : Nat) : BitVec 16 :=
  let i := k / 4
  let p := i / 64
  if (c.obj k).svc then
    (if (match c.coveredBy i with | some h => (c.obj (okey h 0)).gHeld | none => false) then 0xFFFF else ptrWord true (c.txSs p) 1023)
  else if c.gb (pe p 0x64) 16 then 0xFFFF else ptrWord (c.obj k).gNdf (c.txSs p) 0

/-- One block of a pointer generator (R193–R195, R197, R199, R200). Since the block before, its depth has moved by the bytes its source
gave beyond the mean. A re-centre moves the value by the whole units of the depth and leaves a depth of 0: DESIGN CHOICE for a depth
that is no multiple of U, R195 says only that the value brings it to 0. -/
def Core.pointerGenerate (c : Core) (o : ObjRef) : Core :=
  let k := o.key
  let i := o.idx.val
  let x := c.obj k
  let p := c.portOf i
  let mx := ptrMax (c.ttype i)
  let tx := isPath i || fld (c.trc (trib i 0)) 11 1 = 1
  let ss := c.txSs p
  if isPath i && (!x.svc || c.ttype i = 6) then c.setObj k { x with gNdf := false, gOut := c.fillWord k }
  else if !x.svc || !tx || c.unused (c.pathOf i) then c
  else if x.gHeld then c.setObj k { x with gOut := 0xFFFF, tx := { x.tx with moved := 0, just := 0 } }
  else if x.gNdf then
    let c := c.setObj k { x with
      gNdf := false, gVal := 0, gSince := 0, depth := 0, gOut := ptrWord true ss 0, tx := { x.tx with moved := 0, just := 0 } }
    if isPath i then c else c.showPtr k 0
  else
    let u : Int := genUnit (c.ttype i)
    let d := x.depth + x.tx.moved
    let space := max 4 (c.gf (pe p 0x58) 8 6)
    let since := x.gSince + 1
    let may := decide (space ≤ since) || (decide (2 * u ≤ (d.natAbs : Int)) && decide (4 ≤ since))
    let hard := may && decide (since < space)
    let put (v : Nat) (d : Int) (n : Nat) (out : BitVec 16) (just : Int) (c : Core) : Core :=
      let c := c.updObj k fun x => { x with
        gVal := v, depth := d, gSince := n, gOut := out, tx := { x.tx with moved := 0, just := just } }
      if isPath i then c else c.showPtr k v
    if 8 * u ≤ (d.natAbs : Int) then
      let v := (((x.gVal : Int) - d / u) % ((mx : Int) + 1)).toNat
      (put v 0 0 (ptrWord true ss v) 0 c).ev (pe p 0x40C) (bit 5)
    else if may && (decide (d ≤ -u) || decide (u ≤ d)) then
      let up := decide (d ≤ -u)
      let v := if up then (if mx ≤ x.gVal then 0 else x.gVal + 1) else (if x.gVal = 0 then mx else x.gVal - 1)
      let c := put v (if up then d + u else d - u) 0 (ptrWord false ss (x.gVal ^^^ (if up then 0x2AA else 0x155))) (if up then u else -u) c
      let c := if hard then c.ev (pe p 0x40C) (bit 4) else c
      if isPath i then c.cn (pe p (if up then 0x50C else 0x510)) 1 else c.pje k up
    else put x.gVal d since (ptrWord false ss x.gVal) 0 c

/-! ## PRBS pairs (section 6.6) -/

/-- Whether a side's object is usable, as a refusal cause of Table 6-9: 0 none, 1 or 2 not in service for the direction,
4 SUB invalid (R202). -/
def Core.sideCause (c : Core) (i sub : Nat) (gen : Bool) : Nat :=
  let au3 := isPath i && c.ttype i = 2
  let k := okey i sub
  let nope := if gen then 1 else 2
  if 137216 ≤ i then nope
  else if (au3 && sub = 0) || (!au3 && sub != 0) then 4
  else if isPath i then (if c.ttype i = 6 || !(c.obj k).svc then nope else 0)
  else if (c.obj k).svc && fld (c.trc (trib i 0)) 11 1 = (if gen then 1 else 0) then 0 else nope

/-- The generator and analyzer objects of a pair. -/
def Core.genKey (c : Core) (k : Nat) : Nat × Nat := (fld (c.trd (prbs k 1)) 0 18, fld (c.trd (prbs k 0)) 7 2)
def Core.anaKey (c : Core) (k : Nat) : Nat × Nat := (fld (c.trd (prbs k 2)) 0 18, fld (c.trd (prbs k 0)) 9 2)

/-- The checks of one pair at a boundary (R202). -/
def Core.prbsCheckOne (c : Core) (k : Nat) : Core :=
  let w := c.trd (prbs k 0)
  let g := c.genKey k
  let a := c.anaKey k
  let taken := (List.range k).any fun j => bitOf (c.trd (prbs j 4)) 1 && c.genKey j = g
  let gc := if !bitOf w 0 then 0 else match c.sideCause g.1 g.2 true with | 0 => if taken then 3 else 0 | n => n
  let ac := if !bitOf w 1 then 0 else c.sideCause a.1 a.2 false
  let gAct := bitOf w 0 && gc = 0
  let aAct := bitOf w 1 && ac = 0
  let cause := if gc ≠ 0 then gc else ac
  let old := c.trd (prbs k 4)
  c.twr (prbs k 4) (BitVec.ofNat 32 ((if bitOf old 0 && aAct then 1 else 0) + (if gAct then 2 else 0) +
    (if aAct then 4 else 0) + (if cause ≠ 0 then 8 + 16 * cause else 0)))
def Core.prbsCheck (c : Core) : Core := forN 64 (fun k c => c.prbsCheckOne k) c

/-- What a pair's machines hold (R203, R204). -/
def Core.pat (c : Core) (k : Nat) : Prbs := Sparse.get (fun _ => {}) c.prbsS k
def Core.setPat (c : Core) (k : Nat) (x : Prbs) : Core := { c with prbsS := Sparse.put (fun _ => {}) c.prbsS k x }

/-- Sync of an analyzer shown as gained and as lost, once its machine has gained or lost it (R204). -/
def Core.prbsGain (c : Core) (k : Nat) : Core :=
  if bitOf (c.trd (prbs k 4)) 2 && !bitOf (c.trd (prbs k 4)) 0 && (c.pat k).inSync then
    (c.tev (prbs k 4) (bit 0)).tev (prbs k 5) (bit 0)
  else c
def Core.prbsLost (c : Core) (k : Nat) : Core :=
  ((c.tsf (prbs k 4) 0 1 0).tev (prbs k 5) (bit 1)).twr (prbs k 9) (satFld (c.trd (prbs k 9)) 0 16 1)
def Core.prbsLoss (c : Core) (k : Nat) : Core :=
  if bitOf (c.trd (prbs k 4)) 0 && (c.pat k).lost then (c.setPat k { c.pat k with lost := false }).prbsLost k else c

/-- A refused write through the aperture, recorded on the RSV page with the low bits of its aperture offset (R72). -/
def Core.ignAp (c : Core) (o cause : Nat) : Core := c.ign (rsv (o % 0x1000)) cause

/-- A write of SINGLE: accepted while SINGLE_BUSY = 0, else refused with cause 0x8; the next frame's pattern carries the
inverted bit (R201, R203, R70). -/
def Core.prbsSingle (c : Core) (k : Nat) : Core :=
  if bitOf (c.trd (prbs k 3)) 1 then c.ignAp (k * 256 + 12) 8 else c.tsf (prbs k 3) 1 1 1

/-- SINGLE_BUSY ends at the boundary after the inverted bit, or where no generator runs. -/
def Core.prbsSingleEnd (c : Core) : Core :=
  forN 64 (fun k c =>
    if bitOf (c.trd (prbs k 3)) 1 && ((c.pat k).done || !bitOf (c.trd (prbs k 4)) 1) then
      (c.tsf (prbs k 3) 1 1 0).setPat k { c.pat k with done := false }
    else c) c

/-- A pair's generator alone: its analyzer starts afresh. -/
def Prbs.send (x : Prbs) : Prbs := { gen := x.gen, genN := x.genN, done := x.done }

/-- One received bit of an analyzer (R204): out of sync the register is loaded from the received bits and 64 correct bits in a row give
sync; in sync the register runs on its own, and the 16th errored bit of a block of 64 loses it. The register, once loaded, takes every
received bit until sync is gained: DEDUCED. -/
def Prbs.bit (code : Nat) (x : Prbs) (b : Bool) : Prbs × Nat × Nat :=
  let len := (patTaps code).1
  let p := patNext code x.reg
  if x.inSync then
    let e := if p.1 = b then 0 else 1
    if 16 ≤ x.err + e then ({ x.send with lost := true }, 1, e)
    else ({ x with reg := p.2, cmp := (x.cmp + 1) % 64, err := if x.cmp = 63 then 0 else x.err + e }, 1, e)
  else
    let reg := (2 * x.reg + (if b then 1 else 0)) % 2 ^ len
    if x.fill < len then ({ x with reg := reg, fill := x.fill + 1 }, 0, 0)
    else
      let good := if p.1 = b then x.good + 1 else 0
      ({ x with reg := reg, good := good, inSync := decide (64 ≤ good), cmp := 0, err := 0 }, 0, 0)

/-- The place in its VC of a byte is one of path overhead (R203). -/
def Core.isPoh (c : Core) (k o : Nat) : Bool := o % c.pohStep k = 0

/-- The bytes but path overhead that an object receives in a frame, from the first VC that begins (R204). -/
def Core.payloadIn (c : Core) (q : ObjIn) : List Byte :=
  let k := q.obj.key
  let x := (c.obj k).rx
  let n := c.vcLen k
  ((pieces q.starts q.bytes).foldl (fun (a : List Byte × Bool × Nat) (s : Bool × List Byte) =>
    let on := a.2.1 || s.1
    let off := if s.1 then 0 else a.2.2
    (a.1 ++ (if on then (s.2.zipIdx.filter fun b => !c.isPoh k ((off + b.2) % n)).map (·.1) else []), on, (off + s.2.length) % n))
    ([], x.sync, x.part.length)).1

/-- A running analyzer in the frame that ends: under signal fail it loses sync if it had it and counts nothing, else it compares what its
object received (R204). -/
def Core.prbsFrame (c : Core) (fi : FrameIn) (k : Nat) : Core :=
  let a := c.anaKey k
  let o := okey a.1 a.2
  let w := c.trd (prbs k 4)
  if !bitOf w 2 then (if c.pat k = {} then c else c.setPat k (c.pat k).send)
  else if c.objSf o then
    let c := c.setPat k (c.pat k).send
    if bitOf w 0 then c.prbsLost k else c
  else match fi.objs.find? fun q => q.obj.key = o with
    | none => c
    | some q =>
      let inv := bitOf (c.trd (prbs k 0)) 6
      let code := fld (c.trd (prbs k 0)) 2 3
      let r := (toBits (c.payloadIn (c.looped q))).foldl (fun (r : Prbs × Nat × Nat) b =>
        let s := r.1.bit code (b != inv)
        (s.1, r.2.1 + s.2.1, r.2.2 + s.2.2)) (c.pat k, 0, 0)
      let c := c.setPat k r.1
      let n := min ((c.trd (prbs k 6)).toNat + (c.trd (prbs k 7)).toNat * 2 ^ 32 + r.2.1) (2 ^ 64 - 1)
      let c := (c.twr (prbs k 6) (BitVec.ofNat 32 n)).twr (prbs k 7) (BitVec.ofNat 32 (n / 2 ^ 32))
      let c := c.twr (prbs k 8) (satAdd (c.trd (prbs k 8)) r.2.2)
      if r.2.2 = 0 then c else c.tev (prbs k 5) (bit 2)

def execPointerStateChange (o : ObjRef) (s : State) : Host.Outcome State Fault Refusal := s.on (·.pointerStateChange o)
def execPointerGenerate (o : ObjRef) (moved : Int) (s : State) : Host.Outcome State Fault Refusal :=
  s.onSeen (fun c => decide ((c.obj o.key).tx.moved = moved)) (·.pointerGenerate o)
def execPrbsSyncGain (k : Fin 64) (s : State) : Host.Outcome State Fault Refusal := s.on (·.prbsGain k.val)
def execPrbsSyncLoss (k : Fin 64) (s : State) : Host.Outcome State Fault Refusal := s.on (·.prbsLoss k.val)
def execPrbsSingle (k : Fin 64) (s : State) : Host.Outcome State Fault Refusal := s.on (·.prbsSingle k.val)

end Sys2Proof.Machine
end

