-- ==== Sys2Proof/Machine/Vcat.lean ====
section
/-! DEFINITION. Groups, their alignment in the Confluence and LCAS (Virtual Concatenation and LCAS). -/

namespace Sys2Proof.Machine

def Core.group (c : Core) (g : Nat) : Grp := Sparse.get (fun _ => {}) c.groups g
def Core.setGroup (c : Core) (g : Nat) (x : Grp) : Core := { c with groups := Sparse.put (fun _ => {}) c.groups g x }
def Core.slot (c : Core) (g s : Nat) : Slot := Sparse.get (fun _ => {}) c.slots (g * 256 + s)
def Core.setSlot (c : Core) (g s : Nat) (x : Slot) : Core :=
  { c with slots := Sparse.put (fun _ => {}) c.slots (g * 256 + s) x }
def Core.updSlot (c : Core) (g s : Nat) (f : Slot → Slot) : Core := c.setSlot g s (f (c.slot g s))

/-- The definition words of a GROUP entry, definition bits only: W0, W1, W2, W4–W11 (Table 7-3, R212). -/
def Core.staged (c : Core) (g : Nat) : List Word :=
  let m (w : Nat) : Word := match w with | 0 => 0x3FF | 1 => 0x1FFF07FF | 2 => 0x3FFFF | 3 => 0 | _ => 0x1FFFFFFF
  [0, 1, 2, 4, 5, 6, 7, 8, 9, 10, 11].map fun w => c.trd (grp g w) &&& m w

/-- Words of a definition. -/
def gw (d : List Word) (n : Nat) : Word := d.getD n 0
def gValid (d : List Word) : Bool := bitOf (gw d 0) 0
def gSource (d : List Word) : Bool := bitOf (gw d 0) 1
def gType (d : List Word) : Nat := fld (gw d 0) 2 3
def gLcas (d : List Word) : Bool := bitOf (gw d 0) 5
def gMode (d : List Word) : Bool := bitOf (gw d 0) 6
def gLat (d : List Word) : Bool := bitOf (gw d 0) 7
def gFeedKind (d : List Word) : Nat := fld (gw d 0) 8 2
def gDdMax (d : List Word) : Nat := min 1024 (fld (gw d 1) 0 11)
def gRev (d : List Word) : Option Nat := if bitOf (gw d 1) 28 then some (fld (gw d 1) 16 12) else none
def gFeed (d : List Word) : Nat := fld (gw d 2) 0 18

/-- The member objects of a definition in slot order, by object key (R209). -/
def Core.members (_c : Core) (d : List Word) : List Nat :=
  (d.drop 3).flatMap fun w =>
    let start := fld w 0 18
    let len := fld w 18 9
    let sub := fld w 27 2
    if gType d = 2 ∧ isPath start = true then
      (((List.range (len + 1)).flatMap fun j => [okey (start + j) 1, okey (start + j) 2, okey (start + j) 3]).drop (sub - 1)).take len
    else (List.range len).map fun j => okey (start + j) 0

/-- NSLOT of a definition. -/
def Core.nslot (c : Core) (d : List Word) : Nat := (c.members d).length

/-- Whether an object may be a member of a group (Table 7-2, R209). -/
def Core.memberOk (c : Core) (d : List Word) (k : Nat) : Bool :=
  let i := k / 4
  let t := c.ttype i
  let st := c.trc (trib i 0)
  let dir := fld st 11 1 = (if gSource d then 1 else 0)
  decide (i < 137216) && (match gType d with
    | 1 => isPath i && t = 1 && !bitOf st 5
    | 2 => (isPath i && t = 2 && !bitOf st (4 + k % 4)) || (!isPath i && t = 11 && dir)
    | 3 => t = 10 && dir
    | 4 => t = 9 && dir
    | 5 => t = 8 && dir
    | _ => false)

/-- The most slots of a TYPE (Table 7-2). -/
def gLimit (t : Nat) : Nat := if t ≤ 2 then 256 else 64

/-- Whether the two groups of a partnership name each other rightly (R227). -/
def Core.partnerOk (c : Core) (g : Nat) : Bool :=
  let d := (c.group g).eff
  match gRev d with
  | none => true
  | some h =>
    let e := (c.group h).eff
    gValid e && gRev e = some g && gSource d != gSource e && gType d = gType e && gMode d && gMode e

/-- CFG_CAUSE of a definition in effect, 0 where every check passes (R213, R232). `claimed` are the objects of lower
groups of the same direction. -/
def Core.groupCause (c : Core) (g : Nat) (claimed : List Nat) : Nat :=
  let d := (c.group g).eff
  let ms := c.members d
  let feedBad := gSource d && (
    if gFeedKind d = 1 then
      let e := (c.group (gFeed d)).eff
      !(gValid e && !gSource e && gType e = gType d && c.nslot e = ms.length)
    else !(gMode d && gType d = 1 && isPath (gFeed d) && concX (c.ttype (gFeed d)) = ms.length && decide (1 < ms.length)))
  let subBad := (d.drop 3).any fun w => fld w 18 9 ≠ 0 &&
    ((gType d = 2 && isPath (fld w 0 18)) != decide (fld w 27 2 ≠ 0))
  if gType d = 0 ∨ 6 ≤ gType d ∨ (if gSource d then gFeedKind d = 0 ∨ gFeedKind d = 3 else gFeedKind d ≠ 0) then 1
  else if ms.any fun k => !(c.memberOk d k && (c.obj k).svc) then 2
  else if ms.length = 0 ∨ gLimit (gType d) < ms.length ∨ subBad = true then 3
  else if ms.any claimed.contains then 4
  else if feedBad then 5
  else if c.partnerOk g then 0 else 6

/-- Groups with a definition in effect. -/
def Core.liveGroups (c : Core) : List Nat := (c.groups.filter fun q => gValid q.2.eff).map (·.1)

/-- STATE shown, with its event (W12, W14). -/
def Core.setGState (c : Core) (g st : Nat) : Core :=
  if fld (c.trd (grp g 12)) 0 3 = st then c else (c.tsf (grp g 12) 0 3 st).tev (grp g 14) (bit 0)

/-- A status bit of W12 with its change event in W14. -/
def Core.gFlag (c : Core) (g b e : Nat) (v : Bool) : Core :=
  if bitOf (c.trd (grp g 12)) b = v then c else (c.tsf (grp g 12) b 1 (if v then 1 else 0)).tev (grp g 14) (bit e)

/-- A bit of a 256-bit set in words `w`…`w + 7` of an entry. -/
def Core.gSet (c : Core) (g w s : Nat) : Bool := bitOf (c.trd (grp g (w + s / 32))) (s % 32)
def Core.setGSet (c : Core) (g w s e : Nat) (v : Bool) : Core :=
  if c.gSet g w s = v then c
  else (c.tsf (grp g (w + s / 32)) (s % 32) 1 (if v then 1 else 0)).tev (grp g 14) (bit e)

/-- The payload set of a group given anew; a change is one of W15 (R225, R226). -/
def Core.setUsed (c : Core) (g n : Nat) (f : Nat → Bool) : Core :=
  if (List.range n).all fun s => c.gSet g 24 s = f s then c
  else
    let c := forN n (fun s c => c.setGSet g 24 s 6 (f s)) c
    c.twr (grp g 15) (satFld (c.trd (grp g 15)) 0 16 1)

/-- A group off: its status, its sets and its measurements read zero, with their change events (R213). -/
def Core.groupOff (c : Core) (g : Nat) : Core :=
  let c := ((((c.setGState g 0).gFlag g 3 1 false).gFlag g 4 2 false).gFlag g 5 3 false).gFlag g 6 4 false
  let any (w : Nat) : Bool := (List.range 8).any fun j => c.trd (grp g (w + j)) != 0
  let c := if any 16 then c.tev (grp g 14) (bit 5) else c
  let c := if any 24 then c.tev (grp g 14) (bit 6) else c
  let c := forN 16 (fun w c => c.twr (grp g (16 + w)) 0) c
  ((c.tsf (grp g 12) 16 11 0).tsf (grp g 13) 9 18 0).setGroup g { c.group g with readPt := none }

/-- The checks of R213 over every group in effect, lower numbers first. -/
def Core.groupChecks (c : Core) : Core :=
  (c.liveGroups.foldl (fun (a : Core × List Nat × List Nat) g =>
    let d := (a.1.group g).eff
    let claimed := if gSource d then a.2.2 else a.2.1
    let cause := a.1.groupCause g claimed
    let c := (a.1.tsf (grp g 12) 9 1 (if cause = 0 then 0 else 1)).tsf (grp g 12) 10 3 cause
    let c := c.tsf (grp g 13) 0 9 (c.nslot d)
    let st := fld (c.trd (grp g 12)) 0 3
    let c := if cause ≠ 0 then c.groupOff g
      else if st = 0 then c.setGState g 1 else c
    let mine := claimed ++ c.members d
    (c, if gSource d then (a.2.1, mine) else (mine, a.2.2))) (c, [], [])).1

/-- Whether a group runs: in effect and with no failed check. -/
def Core.gRuns (c : Core) (g : Nat) : Bool := gValid (c.group g).eff && !bitOf (c.trd (grp g 12)) 9

/-- Whether a slot belongs to the payload set of its group: by the CTRL that governs now in a sink with LCAS, all slots of another sink,
and in a source what it sends as NORM, EOS or FIXED (R225, R226, R228, R229). -/
def Core.inSet (c : Core) (g s : Nat) : Bool :=
  let d := (c.group g).eff
  let v := (c.slot g s).ctrlNow
  if gSource d then (if gMode d then true else
      let q := (c.slot (gFeed d) s).ctrlNow
      q = some 2 || q = some 3 || q = some 0)
  else !gLcas d || v = some 2 || v = some 3

/-- FOP of a sink with LCAS (R231); it stays as it is until the row that changes the payload set (R226). -/
def Core.fopNow (c : Core) (g : Nat) : Bool :=
  let n := c.nslot (c.group g).eff
  let set := (List.range n).filter fun s => c.gSet g 24 s
  let sqs := set.map fun s => (c.slot g s).sqNow.toNat
  let eos := set.filter fun s => (c.slot g s).ctrlNow = some 3
  if (List.range n).any fun s => c.gSet g 24 s != c.inSet g s then bitOf (c.trd (grp g 12)) 5
  else !((List.range set.length).all fun v => (sqs.filter (· = v)).length = 1) ||
    !(eos.length = 1 && eos.all fun s => (c.slot g s).sqNow.toNat + 1 = set.length)

/-! ## VCAT overhead received (section 7.3) -/

/-- A group's members are Paths or VC-3s, whose overhead is H4; else it is K4 (R215). -/
def gHigh (d : List Word) : Bool := decide (gType d ≤ 2)

/-- Frames in one control packet, and VC frames in a block of a member (R215). -/
def gPacket (d : List Word) : Nat := if gHigh d then 16 else 128
def gBlock (d : List Word) : Nat := if gHigh d then 1 else 4

/-- Frames of the MFI range, 512 ms (R215). -/
def mfiRange : Nat := 4096

/-- A difference of delays within half the MFI range of zero (R218). -/
def mfiDiff (a : Int) : Int := (a + 2048) % 4096 - 2048

/-- The CRC-8 of an HO control packet, x^8 + x^2 + x + 1, over the fourteen H4 fields before it, oldest first, and the CRC-3 of an LO
packet, x^3 + x + 1, over its first 29 bits. Polynomials and reach are those of G.7042: PRESUMED, Table 7-4 names only the CRCs. -/
def crcHo (nibbles : List Byte) : Nat := crcBits 8 7 0 (nibbles.flatMap fun b => (bitsOf b).drop 4)
def crcLo (bits : List Bool) : Nat := crcBits 3 3 0 bits

/-- The high four bits of an H4 byte. -/
def hi4 (b : Byte) : Byte := b >>> 4

/-- A whole HO packet in the last H4 bytes, newest first (Table 7-4); MST 0 is OK (G.7042). -/
def pktHo (frame : Nat) (h : List Byte) : CtrlPkt :=
  let f (j : Nat) : Byte := hi4 (h.getD (15 - j) 0)
  let v (j : Nat) : Nat := (f j).toNat * 16 + (f (j + 1)).toNat
  let covered := (((h.take 22).drop 8).map hi4).reverse
  { frame := frame, sq := BitVec.ofNat 8 (v 14), ctrl := ⟨(f 2).toNat % 16, by omega⟩
    crcOk := decide (v 8 = crcHo covered)
    mst := (bitsOf (BitVec.ofNat 8 (v 10))).map (!·), mstAt := v 0 % 32 * 8, rsAck := (f 12).getLsbD 0 }

/-- A whole LO packet in the last K4 bytes, newest first. -/
def pktLo (frame : Nat) (h : List Byte) : CtrlPkt :=
  let bs := ((h.take 32).reverse).map fun (b : Byte) => b.getLsbD 6
  let n (lo len : Nat) : Nat := bitsNat ((bs.drop lo).take len)
  { frame := frame, sq := BitVec.ofNat 8 (n 5 6), ctrl := ⟨n 11 4 % 16, by omega⟩
    crcOk := decide (n 29 3 = crcLo (bs.take 29))
    mst := ((bs.drop 21).take 8).map (!·), mstAt := n 0 5 % 8 * 8, rsAck := bs.getD 20 false }

/-- One received H4 of a member (R217, R218): MFI1 drives the multiframe machine, and in multiframe the packet and the delay are
read. -/
def Slot.h4 (n frame : Nat) (x : Slot) (b : Byte) : Slot :=
  let mfi1 := b.toNat % 16
  let m := x.mf.value 16 n mfi1
  if !x.mf.inMf then { x with mf := m, hist := [] }
  else
    let h := (b :: x.hist).take 32
    let at2 := hi4 (h.getD mfi1 0)
    let at1 := hi4 (h.getD (mfi1 - 1) 0)
    let mfi := (at2.toNat * 16 + at1.toNat) * 16 + mfi1
    { x with
      mf := m, hist := h
      delay := if 1 ≤ mfi1 ∧ mfi1 < h.length then (frame + mfiRange - mfi) % mfiRange else x.delay
      pkt := if mfi1 = 15 ∧ 22 ≤ h.length then some (pktHo frame h) else x.pkt }

/-- The alignment signal of K4 bit 1 ends with the newest of the last K4 bytes (R217, G.707). -/
def k4Signal (h : List Byte) : Bool :=
  let bits := (h.take 11).reverse.map fun (b : Byte) => b.getLsbD 7
  bits.length = 11 && bitsNat bits = 0x3FE

/-- One received K4 of a member (R217, R218): the alignment signal stands at the eleventh of 32 multiframes; in multiframe the packet of
bit 2 and the delay are read. -/
def Slot.k4 (n frame : Nat) (x : Slot) (b : Byte) : Slot :=
  let h := (b :: x.hist).take 32
  let sig := k4Signal h
  if x.mf.inMf then
    let j := x.mf.want
    let bad := if j ≠ 10 then x.mf.bad else if sig then 0 else x.mf.bad + 1
    let x := { x with hist := h, mf := { x.mf with want := (j + 1) % 32, last := some j, bad := bad, failed := x.mf.failed || decide (n ≤ bad) } }
    if j = 31 ∧ h.length = 32 then
      let mfi := bitsNat (((h.reverse).map fun (b : Byte) => b.getLsbD 6).take 5) * 128 + 124
      { x with delay := (frame + mfiRange - mfi) % mfiRange, pkt := some (pktLo frame h) }
    else x
  else
    let next := x.mf.last.map fun l => (l + 1) % 32
    let run := if sig then (if next = some 10 then x.mf.run + 1 else 0) else if next = some 10 then 0 else x.mf.run
    { x with hist := h, mf := { x.mf with
      last := if sig then some 10 else if next = some 10 then none else next
      run := run, bad := if next = some 10 && !sig then x.mf.bad + 1 else x.mf.bad } }

/-- The members of the sink groups in effect: group, slot and object. -/
def Core.sinkSlots (c : Core) : List (Nat × Nat × Nat) :=
  (c.liveGroups.filter fun g => !gSource (c.group g).eff && c.gRuns g).flatMap fun g =>
    (c.members (c.group g).eff).zipIdx.map fun q => (g, q.2, q.1)

/-- The VCAT overhead of the frame that ends: every H4 or K4 that the members received, and the frame's class toward VC-LOM. A member under
signal fail is held (R217). -/
def Core.vcatRx (c : Core) : Core :=
  forL c.sinkSlots (fun q c =>
    let x := c.slot q.1 q.2.1
    let n := c.mfOomN (c.portOf (q.2.2 / 4))
    if c.objSf q.2.2 then (if x.hist = [] then c else c.setSlot q.1 q.2.1 { x with hist := [] })
    else
      let y := (c.obj q.2.2).rx.got.foldl (fun x b => if gHigh (c.group q.1).eff then x.h4 n c.frame b else x.k4 n c.frame b) x
      c.setSlot q.1 q.2.1 { y with mf := y.mf.frame }) c

/-! ## Status at a boundary (sections 7.4, 7.5) -/

/-- A slot of a sink at a boundary: the CTRL and SQ that govern, depth, and whether it is failed (R218, R221, R223, R226). -/
def Core.slotFrame (c : Core) (g s k : Nat) : Core :=
  let d := (c.group g).eff
  let x := c.slot g s
  let sf := c.objSf k
  let depth := match (c.group g).readPt with | some r => mfiDiff (r - x.delay) | none => 0
  let inRange := decide (0 ≤ depth) && decide (depth ≤ (gDdMax d : Int) + 1)
  let joined := (c.group g).readPt.isSome && x.mf.inMf
  let loa := if joined then x.loa || !inRange else x.loa
  let sqm := !gLcas d && gMode d && x.sqm
  let failed := sf || (x.lom && !sf) || loa || sqm
  let due := x.ctrlQ.filter fun q => decide (q.1 ≤ c.frame)
  c.setSlot g s { x with
    ctrlQ := x.ctrlQ.filter fun q => decide (c.frame < q.1)
    ctrlNow := match due.getLast? with | some q => some q.2.1 | none => x.ctrlNow
    sqNow := match due.getLast? with | some q => q.2.2 | none => x.sqNow
    depth := depth, loa := loa
    loaRun := if joined && inRange && x.loa then x.loaRun + 1 else 0
    failed := failed
    failRun := if failed then x.failRun + 1 else 0
    okRun := if failed then 0 else x.okRun + 1 }

/-- Losses of capacity and FOP of a group at a boundary (R224, R231, Table 7-5). -/
def Core.capacity (c : Core) (g : Nat) : Core :=
  let d := (c.group g).eff
  let n := c.nslot d
  let set := (List.range n).filter fun s => c.gSet g 24 s
  let bad s := (c.slot g s).failed
  let (plc, tlc) :=
    if gSource d then
      (match gRev d with
       | some _ => (set.any fun s => !(c.slot g s).mst, decide (set ≠ []) && set.all fun s => !(c.slot g s).mst)
       | none => (false, false))
    else if gLcas d then (set.any bad, set.all bad)
    else (false, (List.range n).any bad)
  let c := c.gFlag g 3 1 plc
  let c := c.gFlag g 4 2 tlc
  let c := c.gFlag g 5 3 (!gSource d && gLcas d && c.fopNow g)
  let c := c.gFlag g 6 4 (!gSource d && !gLcas d && gMode d && (List.range n).any fun s => (c.slot g s).sqm)
  let ok := ((List.range n).filter fun s => c.gSet g 16 s).length
  let used := ((List.range n).filter fun s => c.gSet g 24 s).length
  (c.tsf (grp g 13) 9 9 ok).tsf (grp g 13) 18 9 used

/-- The delays of the aligned slots of a sink, each against that of the first aligned one, whose delay comes first (R218). -/
def Core.alignedDelays (c : Core) (g : Nat) : Nat × List Int :=
  let al := (List.range (c.nslot (c.group g).eff)).filter fun s => (c.slot g s).mf.inMf
  let ref := (c.slot g (al.headD 0)).delay
  (ref, al.map fun s => mfiDiff ((c.slot g s).delay - ref))

/-- One group at a boundary (R213, R218–R221, R223–R225): the read point is set before the slots' depths are taken against it. -/
def Core.groupFrame (c : Core) (g : Nat) : Core :=
  if !c.gRuns g then c
  else
    let d := (c.group g).eff
    let ms := c.members d
    let n := ms.length
    if gSource d then
      let c := c.setUsed g n fun s => c.inSet g s
      let c := forN n (fun s c => c.setGSet g 16 s 5
        (if gMode d && (gRev d).isSome then (c.slot g s).mst else !(c.slot (gFeed d) s).failed)) c
      (c.setGState g (fld (c.trd (grp (gFeed d) 12)) 0 3 |> fun st => if gFeedKind d = 1 then st else 2)).capacity g
    else
      let (ref, ds) := c.alignedDelays g
      let hi := ds.foldl max (ds.headD 0)
      let lo := ds.foldl min (ds.headD 0)
      let c := c.tsf (grp g 12) 16 11 (min 2047 (hi - lo).toNat)
      let st := fld (c.trd (grp g 12)) 0 3
      let ready := decide (ds ≠ []) && ms.zipIdx.all fun q =>
        (c.slot g q.2).mf.inMf || c.objSf q.1 || (c.slot g q.2).lom
      let c := if st = 3 then c.setGState g 1 else c
      let c := if st = 1 ∧ ready = true then
          (c.setGroup g { c.group g with
            readPt := some ((ref : Int) + (if gLat d then lo + (gDdMax d : Int) else hi + 1)), loaRun := 0 }).setGState g 2
        else c
      let c := forL ms.zipIdx (fun q c => c.slotFrame g q.2 q.1) c
      let held := (List.range n).any fun s => (c.slot g s).mf.inMf && !(c.slot g s).loa
      let y := c.group g
      let c := c.setGroup g { y with
        loaRun := if st = 2 then (if held then 0 else y.loaRun + 1) else y.loaRun
        rsCnt := if y.rsPend then y.rsCnt + 1 else 0 }
      let c := if gMode d && gLcas d then c
        else forN n (fun s c => c.setGSet g 16 s 5 (!(c.slot g s).failed)) c
      let c := if gLcas d then c else c.setUsed g n fun _ => true
      c.capacity g

/-- Every group at a boundary, sinks before the sources they feed. -/
def Core.vcatFrame (c : Core) : Core :=
  let c := c.groupChecks
  let gs := c.liveGroups
  let c := forL (gs.filter fun g => !gSource (c.group g).eff) (fun g c => c.groupFrame g) c
  forL (gs.filter fun g => gSource (c.group g).eff) (fun g c => c.groupFrame g) c

/-- STAGED of every entry that has a definition, staged or in effect (R212). -/
def Core.showStaged (c : Core) (g : Nat) : Core :=
  let eff := (c.group g).eff
  let e := if eff = [] then List.replicate 11 0 else eff
  c.tsf (grp g 12) 7 1 (if c.staged g = e then 0 else 1)

/-- The definitions staged are taken at the boundary of a commit that names XMAP; a changed group re-aligns (R212,
R236). -/
def Core.takeGroups (c : Core) : Core :=
  let named := ((Sparse.range (grp 0 0) (grp 4096 0) c.tbl).map fun q => (q.1 - grp 0 0) / 32).eraseDups ++
    (c.groups.map (·.1))
  forL named.eraseDups (fun g c =>
    let new := c.staged g
    let x := c.group g
    let old := if x.eff = [] then List.replicate 11 0 else x.eff
    let c := if new = old then c
      else
        let c := (if gValid new then c else c.groupOff g).setGroup g { eff := if new.all (· = 0) then [] else new }
        let c := { c with slots := Sparse.clear (g * 256) (g * 256 + 256) c.slots }
        let c := forN 16 (fun w c => c.twr (grp g (16 + w)) 0) c
        let c := if gValid new then c else c.tsf (grp g 12) 9 4 0
        (c.setGState g (if gValid new then 1 else 0)).tsf (grp g 13) 0 32 0
    c.showStaged g) c

/-- A control packet of a sink slot that has been received whole (R222, R226–R228, R230). What it says governs the payload from the
frame after the one in which it ends at the read point. -/
def Core.controlPacket (c : Core) (g s : Nat) : Core :=
  let d := (c.group g).eff
  match (c.slot g s).pkt with
  | none => c
  | some k =>
    let c := c.updSlot g s fun x => { x with pkt := none }
    if !c.gRuns g || gSource d || decide (c.nslot d ≤ s) then c
    else if gLcas d && !k.crcOk then
      (c.tev (grp g 14) (bit 9)).twr (grp g 15) (satFld (c.trd (grp g 15)) 16 16 1)
    else
      let x := c.slot g s
      let changed := gLcas d && x.ctrl != k.ctrl
      let sqNew := gLcas d && x.sqAcc != k.sq
      let c := c.setSlot g s { x with
        sq := k.sq, sqRun := runOf x.sq x.sqRun k.sq
        sqAcc := if gLcas d then k.sq else x.sqAcc
        ctrl := if gLcas d then k.ctrl else x.ctrl
        ctrlQ := x.ctrlQ ++ [(k.frame + x.depth.toNat + 1, k.ctrl, k.sq)] }
      let c := if changed then c.tev (grp g 14) (bit 7) else c
      let c := if sqNew then c.setGroup g { c.group g with rsPend := true, rsCnt := 0 } else c
      let ack := if k.rsAck then 1 else 0
      let c := if fld (c.trd (grp g 13)) 27 1 = ack then c
        else (c.tsf (grp g 13) 27 1 ack).tev (grp g 14) (bit 8)
      match gRev d with
      | some h =>
        if c.partnerOk g then
          let c := forL k.mst.zipIdx (fun q c =>
            let m := k.mstAt + q.2
            if m < c.nslot (c.group h).eff then c.updSlot h m fun z => { z with mst := q.1 } else c) c
          if fld (c.trd (grp h 13)) 27 1 = ack then c else (c.tsf (grp h 13) 27 1 ack).tev (grp h 14) (bit 8)
        else c
      | none => c

/-- VCAT multiframe alignment of a member gained after MF_IF_N, or lost after MF_OOM_N, values; held under signal fail (R217). -/
def Core.vcMfAlign (c : Core) (g s : Nat) (gained : Bool) : Core :=
  let d := (c.group g).eff
  match (c.members d)[s]? with
  | some k =>
    let p := c.portOf (k / 4)
    let x := c.slot g s
    if !c.gRuns g || gSource d || c.objSf k then c
    else if gained then
      (if !x.mf.inMf && decide (c.mfIfN p ≤ x.mf.run) then c.setSlot g s { x with mf := x.mf.align (if gHigh d then 16 else 32) } else c)
    else if x.mf.inMf && decide (c.mfOomN p ≤ x.mf.bad) then c.setSlot g s { x with mf := x.mf.out, hist := [] }
    else c
  | none => c

/-- VC-LOM of a member declared or cleared after MF_LOM frames (R217). -/
def Core.vcLom (c : Core) (g s : Nat) : Core :=
  let d := (c.group g).eff
  match (c.members d)[s]? with
  | some k =>
    let n := c.mfLom (c.portOf (k / 4))
    let x := c.slot g s
    if !c.gRuns g || gSource d then c
    else if !x.lom && decide (n ≤ x.mf.oomF) then c.setSlot g s { x with lom := true }
    else if x.lom && decide (n ≤ x.mf.mfF) then c.setSlot g s { x with lom := false }
    else c
  | none => c

/-- Member LOA left after 16 frames within the range (R221). -/
def Core.loaClear (c : Core) (g s : Nat) : Core :=
  let x := c.slot g s
  if x.loa ∧ 16 ≤ x.loaRun then c.setSlot g s { x with loa := false, loaRun := 0 } else c

/-- Group LOA after 16 frames with no slot aligned at the read point: the read point is released (R221). -/
def Core.groupLoa (c : Core) (g : Nat) : Core :=
  if c.gRuns g && decide (16 ≤ (c.group g).loaRun) && fld (c.trd (grp g 12)) 0 3 = 2 then
    let c := (c.setGroup g { c.group g with readPt := none, loaRun := 0 }).setGState g 3
    forN (c.nslot (c.group g).eff) (fun s c => c.updSlot g s fun x => { x with loa := false, loaRun := 0 }) c
  else c

/-- SQ accepted after three identical packets in a TERM sink without LCAS; SQM follows (R222). -/
def Core.sqAccept (c : Core) (g s : Nat) : Core :=
  let d := (c.group g).eff
  let x := c.slot g s
  if c.gRuns g && !gSource d && gMode d && !gLcas d && decide (3 ≤ x.sqRun) && decide (s < c.nslot d) then
    c.setSlot g s { x with sqAcc := x.sq, sqm := x.sq.toNat != s }
  else c

/-- The payload set follows the accepted CTRL values from the next packet on (R225, R226). -/
def Core.payloadSet (c : Core) (g : Nat) : Core :=
  let d := (c.group g).eff
  let n := c.nslot d
  if !c.gRuns g || gSource d || !gLcas d then c
  else if (List.range n).all fun s => c.gSet g 24 s = c.inSet g s then c
  else (c.setUsed g n fun s => c.inSet g s).capacity g

/-- The MST a TERM sink with LCAS reports for a slot, shown as OK (R230). -/
def Core.mstFail (c : Core) (g s : Nat) : Core :=
  let d := (c.group g).eff
  let x := c.slot g s
  if c.gRuns g && !gSource d && gMode d && gLcas d && x.failed && c.gSet g 16 s &&
      decide (8 * fld (c.trc (grp g 3)) 0 8 ≤ x.failRun) then (c.setGSet g 16 s 5 false).capacity g else c
def Core.mstOk (c : Core) (g s : Nat) : Core :=
  let d := (c.group g).eff
  let x := c.slot g s
  if c.gRuns g && !gSource d && gMode d && gLcas d && !x.failed && !c.gSet g 16 s && decide (s < c.nslot d) &&
      decide (8000 * fld (c.trc (grp g 3)) 8 10 ≤ x.okRun) then (c.setGSet g 16 s 5 true).capacity g else c

/-- RS_ACK_TX toggles once a changed set of SQ values has stood through one MST cycle: 32 packets of 16 frames for HO members, 8 of 128
for LO (R215, R230). -/
def Core.rsAckToggle (c : Core) (g : Nat) : Core :=
  let y := c.group g
  let cyc := if gHigh y.eff then 512 else 1024
  if c.gRuns g && !gSource y.eff && gMode y.eff && gLcas y.eff && y.rsPend && decide (cyc ≤ y.rsCnt) then
    (c.setGroup g { y with rsPend := false, rsCnt := 0 }).tsf (grp g 13) 28 1 (1 - fld (c.trd (grp g 13)) 28 1)
  else c

/-- The CTRL a source sends in a slot: a FOLLOW relays its feed's, a FIXED sends FIXED, or NORM and EOS with LCAS (R228, R229). -/
def Core.ctrlSent (c : Core) (g s : Nat) : Nat :=
  let d := (c.group g).eff
  if !gMode d then (match (c.slot (gFeed d) s).ctrlNow with | some v => v.val | none => 0)
  else if !gLcas d then 0 else if s + 1 = c.nslot d then 3 else 2

/-- The SQ a source sends in a slot (R228, R229). -/
def Core.sqSent (c : Core) (g s : Nat) : Nat :=
  let d := (c.group g).eff
  if gMode d then s else (c.slot (gFeed d) s).sqNow.toNat

/-- A member record (Table 7-6). -/
def Core.memberRecord (c : Core) (g s k : Nat) : List Byte :=
  let d := (c.group g).eff
  let x := c.slot g s
  let b (n : Nat) (v : Bool) : Nat := if v then 2 ^ n else 0
  let src := gSource d
  let sq := if src then c.sqSent g s else x.sqAcc.toNat
  let ctrl : Nat := if src then c.ctrlSent g s else x.ctrl.val
  let mst := if src then x.mst else c.gSet g 16 s
  le 4 (sq + ctrl * 256 + b 12 (c.gSet g 16 s) + b 13 (c.gSet g 24 s) + b 14 mst + b 15 x.loa + b 16 (x.lom && !c.objSf k) + b 17 x.sqm +
    b 18 (c.objSf k) + (if src then 0 else (x.depth.toNat % 2048) * 2 ^ 20) + 2 ^ 31) ++ le 4 c.frame

/-- The member records of a group written into the Open Reservoir, every 64 frames (R235). -/
def Core.memberRecords (c : Core) (_m : List Host.Cell) (g : Nat) : Core × List MemOp :=
  let d := (c.group g).eff
  if gValid d && c.frame % 64 = 0 && c.orReady then
    (c.srExit, (c.members d).zipIdx.map fun q => .write (orBase + 0x1A000000 + g * 0x800 + q.2 * 8) (c.memberRecord g q.2 q.1))
  else (c, [])

def execVcatControlPacket (g : GroupNo) (sl : SlotNo) (k : CtrlPkt) (s : State) : Host.Outcome State Fault Refusal :=
  s.onSeen (fun c => decide ((c.slot g.val sl.val).pkt = some k)) (·.controlPacket g.val sl.val)
def execVcMfAlign (g : GroupNo) (sl : SlotNo) (b : Bool) (s : State) : Host.Outcome State Fault Refusal :=
  s.on (·.vcMfAlign g.val sl.val b)
def execVcLom (g : GroupNo) (sl : SlotNo) (s : State) : Host.Outcome State Fault Refusal := s.on (·.vcLom g.val sl.val)
def execMemberLoaClear (g : GroupNo) (sl : SlotNo) (s : State) : Host.Outcome State Fault Refusal :=
  s.on (·.loaClear g.val sl.val)
def execGroupLoa (g : GroupNo) (s : State) : Host.Outcome State Fault Refusal := s.on (·.groupLoa g.val)
def execSqAccept (g : GroupNo) (sl : SlotNo) (s : State) : Host.Outcome State Fault Refusal := s.on (·.sqAccept g.val sl.val)
def execPayloadSetChange (g : GroupNo) (s : State) : Host.Outcome State Fault Refusal := s.on (·.payloadSet g.val)
def execMstFail (g : GroupNo) (sl : SlotNo) (s : State) : Host.Outcome State Fault Refusal := s.on (·.mstFail g.val sl.val)
def execMstOk (g : GroupNo) (sl : SlotNo) (s : State) : Host.Outcome State Fault Refusal := s.on (·.mstOk g.val sl.val)
def execRsAckToggle (g : GroupNo) (s : State) : Host.Outcome State Fault Refusal := s.on (·.rsAckToggle g.val)
def execMemberRecordWrite (g : GroupNo) (s : State) : Host.Outcome State Fault Refusal :=
  s.onMem (·.memberRecords · g.val)

end Sys2Proof.Machine
end

