-- ==== Sys2Proof/Machine/Weir.lean ====
section
/-! DEFINITION. The sixteen queues of the Weir (Weir Queues for DCC and Notices) and the DCC taps (R169–R171). -/

namespace Sys2Proof.Machine

/-! ## Queues -/

def Core.queue (c : Core) (q : Nat) : Queue := Sparse.get (fun _ => {}) c.weirS.qs q
def Core.putQueue (c : Core) (q : Nat) (x : Queue) : Core :=
  { c with weirS := { c.weirS with qs := Sparse.put (fun _ => {}) c.weirS.qs q x } }

/-- TXQ and NOTE_Q (R345). -/
def Core.txq (c : Core) : Nat := c.gf (wq 0x40) 0 4
def Core.noteQ (c : Core) : Nat := c.gf (wq 0x40) 4 4

/-- The size of a queue in blocks; 0 where the queue is unused or its range is refused (R344). -/
def Core.qSize (c : Core) (q : Nat) : Nat :=
  if c.gb (wq 0x200) q then 0 else 64 * c.gf (wq (0x80 + 4 * q)) 10 11

/-- An event of a queue, and its bit of WQ_PEV where it is enabled (Table 11-4). -/
def Core.qEv (c : Core) (q : Nat) (m : Word) : Core :=
  let c := c.ev (wq (0x440 + 4 * q)) m
  if c.rd (wq (0x480 + 4 * q)) &&& m = 0 then c else c.ev (wq 0x400) (bit q)

/-- The committed, unpopped packet of highest PRIO, the earliest among those of that priority (R354). -/
def bestPkt (ps : List Pkt) : Option Pkt :=
  ps.foldl (fun (b : Option Pkt) k =>
    if !k.done then b
    else match b with
      | none => some k
      | some x => if fld x.hdr 13 3 < fld k.hdr 13 3 ∨ (fld x.hdr 13 3 = fld k.hdr 13 3 ∧ k.order < x.order) then some k else b) none

/-- The head of a queue: the claimed packet, or the best. -/
def Queue.head (x : Queue) : Option Pkt :=
  match x.claim with
  | some i => x.pkts.find? (·.id = i)
  | none => bestPkt x.pkts

/-- The read registers of the selected queue (Table 11-4, Table 11-5). -/
def Core.showHead (c : Core) : Core :=
  let x := c.queue (c.gf (wq 0xB00) 0 4)
  let h := x.head
  let c := c.wr (wq 0xB04) (match h with | some k => k.hdr | none => 0)
  let c := c.wr (wq 0xB08) (match h, x.claim with | some k, some _ => BitVec.ofNat 32 (k.seq + k.frame % 65536 * 65536) | _, _ => 0)
  (c.sb (wq 0xB0C) 9 h.isSome).sb (wq 0xB0C) 10 x.claim.isSome

/-- A queue given new contents: the tail passes what is free, the level, its peak, the crossings of the watermarks and
the counts follow (R351, R362–R364). -/
def Core.setQueue (c : Core) (q : Nat) (x : Queue) : Core :=
  let a := c.gf (wq (0x240 + 4 * q)) 0 17
  let bs := x.blocks.dropWhile (·.isNone)
  let n := bs.length
  let w := c.rd (wq (0xC0 + 4 * q))
  let hi := fld w 0 16
  let lo := fld w 16 16
  let c := c.putQueue q { x with
    blocks := bs
    hiDue := x.hiDue || (decide (hi ≠ 0) && decide (a < hi) && decide (hi ≤ n))
    loDue := x.loDue || (decide (lo < a) && decide (n ≤ lo)) }
  let c := c.wr (wq (0x240 + 4 * q)) (BitVec.ofNat 32 n)
  let c := c.wr (wq (0x280 + 4 * q)) (BitVec.ofNat 32 (max n (c.gf (wq (0x280 + 4 * q)) 0 17)))
  let done := (x.pkts.filter (·.done)).length
  let opn := (x.pkts.filter fun k => !k.done).length
  (c.wr (wq (0x2C0 + 4 * q)) (BitVec.ofNat 32 (min done 65535 + min opn 255 * 65536))).showHead

/-- Blocks of a packet (section 11.2). -/
def pktBlocks (len : Nat) : Nat := (len + 8 + 63) / 64

/-- A discarded packet's blocks: the write pointer returns to its first block where its last block is the last one taken
and no other packet's block lies between them, otherwise they become holes (R350). -/
def dropBlocks (id : Nat) (bs : List (Option Nat)) : List (Option Nat) :=
  let pre := bs.takeWhile (· ≠ some id)
  if bs.getLast? = some (some id) && (bs.drop pre.length).all (fun b => b = some id || b = none) then pre else bs.map fun b => if b = some id then none else b

/-- A packet discarded (R350): marked bad, or dropped whole, which takes a sequence number (R349, R352). -/
def Core.discard (c : Core) (q id : Nat) (whole : Bool) : Core :=
  let x := c.queue q
  let c := c.setQueue q { x with
    pkts := x.pkts.filter (·.id ≠ id), blocks := dropBlocks id x.blocks
    seq := if whole then (x.seq + 1) % 65536 else x.seq }
  (c.qEv q (if whole then bit 2 else bit 3)).cn (wq ((if whole then 0x500 else 0x540) + 4 * q)) 1

/-- A packet opened with no block yet. -/
def Core.openPkt (c : Core) (q src : Nat) (hdr : Word) (bytes : List Byte) (ended : Bool := true) : Core :=
  let x := c.queue q
  let k : Pkt := { id := c.weirS.nextId, src := src, hdr := hdr, bytes := bytes, need := pktBlocks bytes.length, ended := ended }
  let c := { c with weirS := { c.weirS with nextId := c.weirS.nextId + 1 } }
  c.putQueue q { x with pkts := x.pkts ++ [k] }

/-- Blocks taken at the write pointer, as many as are free of those the packet needs (R351, R352). -/
def Core.takeBlocks (c : Core) (q id : Nat) : Core :=
  let x := c.queue q
  match x.pkts.find? (·.id = id) with
  | none => c
  | some k =>
    let n := min k.need (c.qSize q - x.blocks.length)
    c.setQueue q { x with
      blocks := x.blocks ++ List.replicate n (some id)
      pkts := x.pkts.map fun j => if j.id = id then { j with need := j.need - n } else j }

/-- A packet committed: visible, numbered and stamped (R347–R349). -/
def Core.commitPkt (c : Core) (q id : Nat) : Core :=
  let x := c.queue q
  let s := (x.seq + 1) % 65536
  let o := c.weirS.nextOrder
  let c := { c with weirS := { c.weirS with nextOrder := o + 1 } }
  (c.setQueue q { x with
    seq := s
    pkts := x.pkts.map fun k => if k.id = id then { k with done := true, seq := s, frame := c.frame % 65536, order := o } else k }).qEv
    q (bit 4)

/-- An open packet that has `len` payload bytes now takes the blocks they need beyond those it holds. -/
def Core.growPkt (c : Core) (q id len : Nat) : Core :=
  let x := c.queue q
  let n := pktBlocks len - (x.blocks.filter (· = some id)).length
  (c.putQueue q { x with pkts := x.pkts.map fun k => if k.id = id then { k with need := n } else k }).takeBlocks q id

/-- A packet whose source has given all of it is committed once it needs no more blocks. -/
def Core.commitFit (c : Core) (q id : Nat) : Core :=
  if (c.queue q).pkts.any fun k => k.id = id && k.need = 0 && k.ended then c.commitPkt q id else c

/-- The open packet of a source, and its queue (R353). -/
def Core.openOf (c : Core) (src : Nat) : Option (Nat × Pkt) :=
  (List.range 16).findSome? fun q => ((c.queue q).pkts.find? fun k => !k.done && k.src = src).map fun k => (q, k)

/-- Open packets that need blocks take the free ones, after a release (Table 11-3, R351). -/
def Core.settleOpen (c : Core) (q : Nat) : Core :=
  forL (((c.queue q).pkts.filter fun k => !k.done && decide (0 < k.need)).map (·.id)) (fun i c =>
    (c.takeBlocks q i).commitFit q i) c

/-- A packet of a receive source, whole: committed where its blocks fit; a notice is dropped whole at once, a DCC frame
waits at the tail for PACKET_DROP (R345, R346, R352). -/
def Core.receivePkt (c : Core) (q src : Nat) (hdr : Word) (bytes : List Byte) (notice : Bool) : Core :=
  if !c.en 0xC then c
  else if q = c.txq ∨ c.qSize q = 0 then c.cn (wq (0x540 + 4 * q)) 1
  else
    let id := c.weirS.nextId
    let c := (c.openPkt q src hdr bytes).takeBlocks q id
    if notice && (c.queue q).pkts.any (fun k => k.id = id && k.need != 0) then c.discard q id true else c.commitFit q id

/-- An open packet that needs the tail block is dropped whole; what its source goes on to give of it is passed over (R352). -/
def Core.packetDrop (c : Core) (q src : Nat) : Core :=
  match (c.queue q).pkts.find? fun k => !k.done && k.src = src && decide (0 < k.need) with
  | some k =>
    if c.qSize q ≤ (c.queue q).blocks.length then
      let c := c.discard q k.id true
      if k.ended then c else { c with weirS := { c.weirS with skip := c.weirS.skip ++ [src] } }
    else c
  | none => c

/-- Every open packet that still needs the tail block is dropped whole (R352). -/
def Core.dropFull (c : Core) : Core :=
  forN 16 (fun q c =>
    let ks := (c.queue q).pkts.filter fun k => !k.done && decide (0 < k.need)
    if ks = [] then c else forL (ks.map (·.src)) (fun s c => c.packetDrop q s) (c.settleOpen q)) c

/-- HDR0 (Table 11-1). -/
def pktHdr (len prio kind port chan : Nat) : Word :=
  BitVec.ofNat 32 (len + prio * 2 ^ 13 + kind * 2 ^ 16 + port * 2 ^ 20 + chan * 2 ^ 27)

/-- EN = 1: every queue empty, sequence counts at 0, the ranges checked (R344, R349). EN = 0: every queue empty
(R346). -/
def Core.wqEnable (c : Core) (on : Bool) : Core :=
  let c := { c with weirS := { c.weirS with qs := [], host := none, sending := [], skip := [] } }
  let c := c.clearRegs (wq 0x240) (wq 0x300)
  let c := ((c.wr (wq 0xB18) 0).wr (wq 0x200) 0).sb (wq 0xB0C) 8 false
  let rng (q : Nat) : Nat × Nat := let w := c.rd (wq (0x80 + 4 * q)); (fld w 0 10, fld w 10 11)
  let bad := (List.range 16).foldl (fun (a : List Nat) q =>
    let r := rng q
    let ovl := (List.range q).any fun j =>
      let t := rng j
      !a.contains j && decide (t.2 ≠ 0) && decide (t.1 < r.1 + r.2) && decide (r.1 < t.1 + t.2)
    if r.2 ≠ 0 ∧ (ovl = true ∨ 1024 < r.1 + r.2) then a ++ [q] else a) []
  let c := if on then c.wr (wq 0x200) (bitsWhere 16 bad.contains) else c
  c.showHead

/-! ## The read side -/

/-- A full read of WQ_RHDR0 claims the head (R354). -/
def Core.claimHead (c : Core) : Core :=
  let q := c.gf (wq 0xB00) 0 4
  let x := c.queue q
  match x.head with
  | some k => if c.en 0xC then (c.putQueue q { x with claim := some k.id }).showHead else c
  | none => c

/-- A POP of the claimed head: it is popped; its blocks are released next (R356). -/
def Core.popHead (c : Core) : Core :=
  let q := c.gf (wq 0xB00) 0 4
  let x := c.queue q
  match x.claim with
  | none => c
  | some i =>
    let ps := x.pkts.filter (·.id ≠ i)
    let c := (c.setQueue q { x with pkts := ps, claim := none, freeing := some i }).sb (wq 0xB0C) 8 true
    if ps.any (·.done) then c else c.qEv q (bit 5)

/-- The blocks of the popped packet are released (R351, R356). -/
def Core.popDone (c : Core) : Core :=
  if c.gb (wq 0xB0C) 8 then
    let c := forN 16 (fun q c =>
      let x := c.queue q
      match x.freeing with
      | some i => (c.setQueue q { x with freeing := none, blocks := x.blocks.map fun b => if b = some i then none else b }).settleOpen q
      | none => c) c
    c.sb (wq 0xB0C) 8 false
  else c

/-- A change of WQ_RSEL ends any claim (R356). -/
def Core.selectQueue (c : Core) (old : Nat) : Core :=
  if c.gf (wq 0xB00) 0 4 = old then c
  else
    let x := c.queue old
    (c.putQueue old { x with claim := none }).showHead

/-- A flush: every committed, unpopped packet is discarded (R357). -/
def Core.flushQueue (c : Core) (q : Nat) : Core :=
  let x := c.queue q
  let gone := (x.pkts.filter (·.done)).map (·.id)
  let c := c.setQueue q { x with
    pkts := x.pkts.filter fun k => !k.done, claim := none
    blocks := x.blocks.map fun b => match b with | some i => if gone.contains i then none else b | none => b }
  c.settleOpen q

/-- Words of the read window (R355). -/
def Core.readWindow (c : Core) (o : Nat) : Word :=
  let x := c.queue (c.gf (wq 0xB00) 0 4)
  match x.claim.bind fun i => x.pkts.find? (·.id = i) with
  | some k => BitVec.ofNat 32 (unle ((List.range 4).map fun j => k.bytes.getD (c.gf (wq 0xB0C) 1 3 * 512 + (o - 0xC00) + j) 0))
  | none => 0

/-- A full read of WQ_PEAKq restarts the peak from the current level (R364). -/
def Core.peakRead (c : Core) (q : Nat) : Core := c.wr (wq (0x280 + 4 * q)) (c.rd (wq (0x240 + 4 * q)))

/-- Crossings of the watermarks are shown (R363). -/
def Core.watermark (c : Core) (q : Nat) : Core :=
  let x := c.queue q
  let m := (if x.hiDue then bit 0 else 0) ||| (if x.loDue then bit 1 else 0)
  if m = 0 then c else (c.putQueue q { x with hiDue := false, loDue := false }).qEv q m

/-! ## The transmit side -/

/-- WQ_WSTAT. -/
def Core.wStat (c : Core) (opn result : Nat) : Core :=
  ((c.sf (wq 0xB18) 0 2 opn).sf (wq 0xB18) 2 3 result).sb (wq 0x200) 16 (opn = 1)

/-- The queue of the open host packet, which stays its own when TXQ changes. -/
def Core.hostQueue (c : Core) (i : Nat) : Nat :=
  ((List.range 16).find? fun q => (c.queue q).pkts.any (·.id = i)).getD c.txq

/-- A write of WQ_WHDR (R358): a packet still open is superseded, and a valid header opens the next. -/
def Core.hostOpen (c : Core) : Core :=
  let h := c.rd (wq 0xB10)
  let len := fld h 0 13
  let c := match c.weirS.host with
    | some i => ({ c with weirS := { c.weirS with host := none } }.discard (c.hostQueue i) i false).wStat 0 5
    | none => c.sf (wq 0xB18) 0 2 0
  if !c.en 0xC then c
  else if fld h 16 4 ≠ 2 ∨ 95 < fld h 20 7 ∨ len < 2 ∨ 4096 < len then c.wStat 0 3
  else
    let q := c.txq
    let id := c.weirS.nextId
    let d := c.openPkt q 289 (h &&& 0x0FFFFFFF) (List.replicate len 0)
    if c.qSize q - (c.queue q).blocks.length < pktBlocks len then (d.discard q id true).wStat 2 2
    else
      let d := d.takeBlocks q id
      let r := fld (d.rd (wq 0xB18)) 2 3
      { d with weirS := { d.weirS with host := some id } }.wStat 1 r

/-- A write of the write window (R358). -/
def Core.hostWindow (c : Core) (o : Nat) (v m : Word) : Core :=
  match c.weirS.host with
  | none => c
  | some i =>
    let q := c.hostQueue i
    let x := c.queue q
    let at_ := c.gf (wq 0xB14) 2 3 * 512 + o
    c.putQueue q { x with pkts := x.pkts.map fun k =>
      if k.id = i then { k with bytes := k.bytes.zipIdx.map fun b =>
        if at_ ≤ b.2 ∧ b.2 < at_ + 4 then
          let on : Byte := m.extractLsb' (8 * (b.2 - at_)) 8
          (b.1 &&& ~~~on) ||| (v.extractLsb' (8 * (b.2 - at_)) 8 &&& on)
        else b.1 } else k }

/-- WBUSY and FLUSH_BUSY read 1 from a command until the next tick or boundary (R69). -/
def Core.weirSettle (c : Core) : Core :=
  let c := if c.gb (wq 0xB14) 8 then c.sb (wq 0xB14) 8 false else c
  if c.gb (wq 0xB1C) 8 then c.sb (wq 0xB1C) 8 false else c

/-- COMMIT and ABORT of the host packet; both are ignored while none is open, one dropped whole among them (R358). -/
def Core.hostCommit (c : Core) : Core :=
  match c.weirS.host with
  | none => c
  | some i =>
    let q := c.hostQueue i
    let c := ({ c with weirS := { c.weirS with host := none } }.commitPkt q i).wStat 0 1
    c.sf (wq 0xB18) 16 16 (c.queue q).seq
def Core.hostAbort (c : Core) : Core :=
  match c.weirS.host with
  | none => c
  | some i => ({ c with weirS := { c.weirS with host := none } }.discard (c.hostQueue i) i false).wStat 0 4

/-! ## DCC channels (R169–R171, R359) -/

/-- A channel is enabled (R359). -/
def Core.dccOn (c : Core) (p : Nat) (ms : Bool) : Bool := c.en (0x20 + p) && c.gb (pe p 0x50) (if ms then 17 else 16)

/-- The FCS of a channel's frames: bytes, and the value over the payload (R170). -/
def Core.fcs (c : Core) (p : Nat) (bs : List Byte) : List Byte :=
  if c.gb (pe p 0x50) 18 then le 4 (crcOnes 32 0x04C11DB7 true bs) else le 2 (crcOnes 16 0x1021 true bs)

/-- The decoder of a channel's tap (R170). -/
def Core.tap (c : Core) (p : Nat) (ms : Bool) : Hdlc := if ms then (c.port p).dccM else (c.port p).dccR

/-- Octets of an FCS, and the receive queue of a channel (Table 5-18). -/
def Core.fcsLen (c : Core) (p : Nat) : Nat := if c.gb (pe p 0x50) 18 then 4 else 2
def Core.dccQ (c : Core) (p : Nat) (ms : Bool) : Nat := c.gf (pe p 0x50) (if ms then 24 else 20) 4

/-- A frame that the source gave whole earlier and that still waits at the tail gives way to the next (R352, R353). -/
def Core.dropWaiting (c : Core) (src : Nat) : Core :=
  match c.openOf src with | some (q, k) => if k.ended then c.discard q k.id true else c | none => c

/-- The frame that a tap is receiving holds the blocks that its octets so far need, its FCS held back: an open packet (R351–R353). -/
def Core.dccGrow (c : Core) (p : Nat) (ms : Bool) : Core :=
  let src := 2 * p + (if ms then 1 else 0)
  let n := match (c.tap p ms).open_ with | some l => l.length / 8 | none => 0
  let q := c.dccQ p ms
  if n = 0 || (c.tap p ms).done != [] || c.weirS.skip.contains src || !c.en 0xC || q = c.txq || c.qSize q = 0 then c
  else
    let c := c.dropWaiting src
    let len := min 4096 (n - c.fcsLen p)
    match c.openOf src with
    | some (j, k) => c.growPkt j k.id len
    | none => (c.openPkt q src 0 [] false).growPkt q c.weirS.nextId len

/-- The oldest HDLC frame that a tap has received (R170): written whole to its queue without its FCS, or marked bad. -/
def Core.dccRx (c : Core) (p : Nat) (ms : Bool) : Core :=
  match (c.tap p ms).done with
  | [] => c
  | (octets, bad) :: rest =>
    let c := c.updPort p fun x => if ms then { x with dccM := { x.dccM with done := rest } } else { x with dccR := { x.dccR with done := rest } }
    let src := 2 * p + (if ms then 1 else 0)
    if !c.en 0xC then c
    else if c.weirS.skip.contains src then { c with weirS := { c.weirS with skip := c.weirS.skip.filter (· ≠ src) } }
    else
    let q := c.dccQ p ms
    let n := c.fcsLen p
    let body := octets.take (octets.length - n)
    let good := !bad && decide (n ≤ octets.length) && decide (2 ≤ body.length) && decide (body.length ≤ 4096) &&
      octets.drop body.length = c.fcs p body
    let c := c.dropWaiting src
    let hdr := pktHdr body.length (c.gf (wq 0x40) (if ms then 11 else 8) 3) 1 p (if ms then 1 else 0)
    match c.openOf src with
    | some (j, k) =>
      if good then
        let x := c.queue j
        ((c.putQueue j { x with pkts := x.pkts.map fun i => if i.id = k.id then { i with hdr := hdr, bytes := body, ended := true } else i }
          ).growPkt j k.id body.length).commitFit j k.id
      else c.discard j k.id false
    | none => if good then c.receivePkt q src hdr body false else (c.qEv q (bit 3)).cn (wq (0x540 + 4 * q)) 1

/-- Whether a packet is addressed to a channel. -/
def toChan (k : Pkt) (p : Nat) (ms : Bool) : Bool := fld k.hdr 20 7 = p && fld k.hdr 27 1 = (if ms then 1 else 0)

/-- The bits that a channel has still to send. -/
def Core.chanBits (c : Core) (p : Nat) (ms : Bool) : List Bool := if ms then (c.port p).tx.ms else (c.port p).tx.rs
def Core.setChan (c : Core) (p : Nat) (ms : Bool) (l : List Bool) : Core :=
  c.updPort p fun x => { x with tx := if ms then { x.tx with ms := l } else { x.tx with rs := l } }

/-- The frame that a channel is sending. -/
def Core.setSending (c : Core) (ch : Nat) (v : List Byte) : Core :=
  { c with weirS := { c.weirS with sending := Sparse.put (fun _ => []) c.weirS.sending ch v } }

/-- An HDLC abort: more than six ones in a row. -/
def hdlcAbort : List Bool := List.replicate 8 true

/-- The bits of a channel for one frame of its line, and the channel after it: what it is sending, then flags; a disabled channel sends
zeros, after the abort that ends a frame in progress (R171, R359). -/
def Core.dccTake (c : Core) (p : Nat) (ms : Bool) : Core × List Byte :=
  let n := if ms then 72 else 24
  if !c.dccOn p ms then
    (if c.chanBits p ms = hdlcAbort then (c.setChan p ms [], toBytes (hdlcAbort ++ List.replicate (n - 8) false)) else (c, List.replicate (n / 8) 0))
  else
    let l := c.chanBits p ms
    let l := if l.length < n then l ++ (List.replicate (n / 8) hdlcFlag).flatten else l
    let left := if (c.chanBits p ms).length ≤ n then (l.drop n).take ((l.length - n) % 8) else l.drop n
    let c := if (c.chanBits p ms).length ≤ n then c.setSending (2 * p + (if ms then 1 else 0)) [] else c
    (c.setChan p ms left, toBytes (l.take n))

/-- A channel that has finished a frame takes the first committed packet addressed to it; it is popped when taken, and sent between
flags with its FCS, zeros inserted (R171, R359). -/
def Core.dccTx (c : Core) (p : Nat) (ms : Bool) : Core :=
  let ch := 2 * p + (if ms then 1 else 0)
  if Sparse.get (fun _ => []) c.weirS.sending ch ≠ [] then c
  else if !c.dccOn p ms || !c.en 0xC then c
  else
    let q := c.txq
    let x := c.queue q
    match bestPkt (x.pkts.filter (toChan · p ms)) with
    | none => c
    | some k =>
      let c := c.setQueue q { x with
        pkts := x.pkts.filter (·.id ≠ k.id), claim := if x.claim = some k.id then none else x.claim
        blocks := x.blocks.map fun b => if b = some k.id then none else b }
      let c := if (c.queue q).pkts.any (·.done) then c else c.qEv q (bit 5)
      let f := k.bytes ++ c.fcs p k.bytes
      (c.setSending ch f).setChan p ms (c.chanBits p ms ++ hdlcFlag ++ hdlcBits f)

/-- At a boundary: committed packets addressed to a channel that is not enabled are discarded, and a frame in progress on
such a channel ends with an abort; both count in BAD_DROP of the transmit queue (R359). -/
def Core.unsent (c : Core) : Core :=
  let q := c.txq
  let off (k : Pkt) : Bool := k.done && !c.dccOn (fld k.hdr 20 7) (fld k.hdr 27 1 = 1)
  let x := c.queue q
  let gone := if c.en 0xC then (x.pkts.filter off).map (·.id) else []
  let cut := c.weirS.sending.filter fun s => !c.dccOn (s.1 / 2) (s.1 % 2 = 1)
  let c := { c with weirS := { c.weirS with sending := c.weirS.sending.filter fun s => c.dccOn (s.1 / 2) (s.1 % 2 = 1) } }
  let c := forL cut (fun s c => c.setChan (s.1 / 2) (s.1 % 2 = 1) hdlcAbort) c
  let c := if gone = [] then c else c.setQueue q { x with
    pkts := x.pkts.filter fun k => !gone.contains k.id
    blocks := x.blocks.map fun b => match b with | some i => if gone.contains i then none else b | none => b }
  if gone = [] ∧ cut = [] then c else c.cn (wq (0x540 + 4 * q)) (gone.length + cut.length)

/-! ## Notices (R360, R361) -/

/-- The port defect notices of the boundary that began the running frame: one for the enabled bits set there, read since
or not. -/
def Core.portNotices (c : Core) : Core :=
  forN 96 (fun p c =>
    let m := (c.port p).note &&& c.rd (pe p 0x404) &&& 0x0F03FFFF
    let c := if (c.port p).note = 0 then c else c.updPort p fun x => { x with note := 0 }
    if m != 0 && c.en 0xC && c.gb (wq 0x40) 20 then
      c.receivePkt c.noteQ (192 + p) (pktHdr 16 (c.gf (wq 0x40) 14 3) 3 p 0)
        (le 4 (c.rd (pe p 0x204)).toNat ++ le 4 m.toNat ++ le 8 c.frame) true
    else c) c

/-- The protection notice of a change of selection. -/
def Core.protNotice (c : Core) (n : Nat) (sel : Bool) (req : Nat) : Core :=
  if c.en 0xC && c.gb (wq 0x40) 21 then
    c.receivePkt c.noteQ 288 (pktHdr 16 (c.gf (wq 0x40) 17 3) 4 0 0)
      (le 4 (n + (if sel then 65536 else 0) + req * 2 ^ 24) ++ le 4 0 ++ le 8 c.frame) true
  else c

def execDccRxFrame (p : Port) (ms : Bool) (f : List Byte × Bool) (s : State) : Host.Outcome State Fault Refusal :=
  s.onSeen (fun c => decide ((c.tap p.val ms).done.head? = some f)) (·.dccRx p.val ms)
def execDccTxFrame (p : Port) (ms : Bool) (s : State) : Host.Outcome State Fault Refusal := s.on (·.dccTx p.val ms)
def execPacketDrop (q : QueueNo) (src : Nat) (s : State) : Host.Outcome State Fault Refusal :=
  s.on (·.packetDrop q.val src)
def execPopDone (s : State) : Host.Outcome State Fault Refusal := s.on (·.popDone)
def execWatermarkCrossing (q : QueueNo) (s : State) : Host.Outcome State Fault Refusal := s.on (·.watermark q.val)

end Sys2Proof.Machine
end

