-- ==== Sys2Proof/Machine/Ring.lean ====
section
/-! DEFINITION. The fixing of command completions (R395, R398), which every block that serves a ring command uses. -/

namespace Sys2Proof.Machine

/-- Completion status codes (Table 13-5). -/
abbrev stOk : Nat := 0
abbrev stLate : Nat := 1
abbrev stAborted : Nat := 2
abbrev stAlreadyDone : Nat := 3
abbrev stNotFound : Nat := 4
abbrev stBadOpcode : Nat := 5
abbrev stBadParam : Nat := 6
abbrev stTagBusy : Nat := 7
abbrev stRefused : Nat := 8
abbrev stSealed : Nat := 9
abbrev stNoWarden : Nat := 10
abbrev stPoisoned : Nat := 11

/-- The completion of an outstanding command fixed: once only (R395). -/
def Core.fixCmd (c : Core) (id status : Nat) (result : List Byte) : Core :=
  match c.cmds.find? fun k => k.id = id && !k.fixed with
  | none => c
  | some k =>
    let c : Core := { c with
      cmds := c.cmds.map fun (j : Cmd) => if j.id = id then { j with fixed := true } else j
      cpls := c.cpls ++ [{ id := id, tag := k.tag, status := status, op := k.op, slot := k.slot, dup := k.dup, frame := c.frame,
                           result := (result ++ List.replicate 16 0).take 16 }] }
    let c := c.wr (wrd 0x218) (BitVec.ofNat 32 (c.cmds.filter fun (j : Cmd) => j.started && !j.fixed).length)
    let cur := c.rd (wrd 0x214)
    let c := if k.started && fld cur 0 24 = k.tag + k.op * 65536 then c.wr (wrd 0x214) (cur &&& 0x00FFFFFF) else c
    let c := if status = stLate then
        ((c.cn (hif 0x504) 1).ev (hif 0x400) (bit 9)).wr (hif 0x22C) (BitVec.ofNat 32 (k.tag + k.op * 65536))
      else c
    let c := if 4 ≤ status then c.cn (hif 0x508) 1 else c
    if status = stAborted then c.cn (hif 0x50C) 1 else c

/-- A ring command, where there is one, fixed. -/
def Core.fixOpt (c : Core) (id : Option Nat) (status : Nat) (result : List Byte) : Core :=
  match id with | some i => c.fixCmd i status result | none => c

/-- The Warden's state, HIF_WSTATE.STATE: 0 NO_IMAGE, 1 BOOTING, 2 RUNNING, 3 SLEEPING, 4 FAILED, 5 RESTARTING. -/
def Core.wState (c : Core) : Nat := c.gf (hif 0x20C) 0 3

/-- Whether the Warden is down (section 15.5). -/
def Core.wDown (c : Core) : Bool := !(c.wState = 2 || c.wState = 3)

/-- A guarded field as the Warden writes it: only while it runs, since no other master can (R12, R18). -/
def Core.byWarden (c : Core) (f : Core → Core) : Core := if c.wDown then c else f c

/-- Sealed mode: KEY_MODE.SEALED (Table 14-16). -/
def Core.sealed (c : Core) : Bool := c.gb (keyR 0x200) 0

end Sys2Proof.Machine
end

