-- ==== Sys2Proof/Machine/Reservoir.lean ====
section
/-! DEFINITION. Rings and records, the cross-connect map, admission, commits, integrity and self-refresh (The
Reservoir). -/

namespace Sys2Proof.Machine

/-! ## Sizes (Table 8-3) and sources (Tables 8-5, 8-6) -/

/-- C_f of an object: cells per record. -/
def Core.cellsOf (c : Core) (k : Nat) : Nat :=
  match c.ttype (k / 4) with | 1 => 74 | 3 => 295 | 4 => 1177 | 5 => 4705 | 10 => 4 | 9 => 2 | 8 => 1 | _ => 25
/-- B_f of an object: mean bytes per frame. -/
def Core.bytesOf (c : Core) (k : Nat) : Nat :=
  match c.ttype (k / 4) with | 1 => 2349 | 3 => 9396 | 4 => 37584 | 5 => 150336 | 10 => 107 | 9 => 35 | 8 => 26 | _ => 765

/-- Cells of the traffic store (Table 8-1). -/
def storeCells : Nat := 469762048
/-- Traffic cells per frame (R256). -/
def trafficCells : Nat := 1150000

/-- Where a transmit object's bytes come from. -/
inductive Src where
  | none
  | obj (k : Nat)
  | pair (n : Nat)
  /-- Slot `s` of source group `g`. -/
  | slot (g s : Nat)
  /-- A VC-4-Xc Path fed by a sink group (R233). -/
  | conc (g : Nat)
  deriving DecidableEq, Repr

/-- The planes and definitions a check or a frame uses. -/
structure Maps where
  x : Nat
  p : Nat
  staged : Bool

/-- The planes and definitions in effect. -/
def Core.mapsNow (c : Core) : Maps := { x := c.gf (rsv 0x200) 0 1, p := c.gf (rsv 0x200) 1 1, staged := false }

/-- The planes and definitions a request is checked with (R259, R212). -/
def Core.mapsFor (c : Core) (maps : Nat) : Maps :=
  let a := c.mapsNow
  { x := if maps % 2 = 1 then 1 - a.x else a.x, p := if maps / 2 % 2 = 1 then 1 - a.p else a.p, staged := maps % 2 = 1 }

/-- A group definition as a check or a frame uses it. -/
def Core.defOf (c : Core) (m : Maps) (g : Nat) : List Word := if m.staged then c.staged g else (c.group g).eff

/-- Groups that have a definition. -/
def Core.defGroups (c : Core) (m : Maps) : List Nat :=
  if m.staged then
    ((Sparse.range (grp 0 0) (grp 4096 0) c.tbl).filter fun q => q.1 % 32 = 0 && bitOf q.2 0).map fun q => (q.1 - grp 0 0) / 32
  else c.liveGroups

/-- Members of source groups: object, group, slot. -/
def Core.claims (c : Core) (m : Maps) : List (Nat × Nat × Nat) :=
  (c.defGroups m).flatMap fun g =>
    let d := c.defOf m g
    if gValid d && gSource d then (c.members d).zipIdx.map fun q => (q.1, g, q.2) else []

/-- An object is built on transmit from its Tributaries (R198); a VC-4 on a SONET port is carried whole (R176). -/
def Core.built (c : Core) (k : Nat) : Bool :=
  let i := k / 4
  isPath i && ((c.ttype i = 1 && bitOf (c.trc (trib i 0)) 5 && c.gf (pe (i / 64) 0x208) 4 2 != 2) || (c.ttype i = 2 && bitOf (c.trc (trib i 0)) (4 + k % 4)))

/-- A receive object that an entry may name, for a transmit object of a class: 2 = a TYPE 2 Path as a whole, 11 = a VC-3,
else the TYPE itself (Table 8-6, R249). -/
def Core.rxSrc (c : Core) (cls sub sr sb : Nat) : Option Nat :=
  let t := c.ttype sr
  let dir := fld (c.trc (trib sr 0)) 11 1
  if 137216 ≤ sr ∨ c.tvalid sr = false then none
  else match cls with
    | 2 => if isPath sr ∧ t = 2 ∧ sb = 0 then some (okey sr sub) else none
    | 11 => if isPath sr = true then (if t = 2 ∧ sb ≠ 0 then some (okey sr sb) else none)
            else if t = 11 ∧ dir = 0 ∧ sb = 0 then some (okey sr 0) else none
    | _ => if sb ≠ 0 ∨ t ≠ cls then none
           else if isPath sr = true ∨ dir = 0 then some (okey sr 0) else none

/-- The copies of a pair of a plane (Table 9-2). -/
def Core.copyKey (c : Core) (p n : Nat) (prot : Bool) : Nat :=
  let w := c.trd (pmap p n (if prot then 2 else 1)); okey (fld w 0 18) (fld w 18 2)
def Core.pairValid (c : Core) (p n : Nat) : Bool := decide (n < 16384) && bitOf (c.trd (pmap p n 0)) 0
/-- The skew allowance S of a pair. -/
def Core.pairSkew (c : Core) (p n : Nat) : Nat := min 512 (fld (c.trd (pmap p n 0)) 16 10)

/-- A pair that an entry may name. -/
def Core.pairSrc (c : Core) (m : Maps) (cls n sb : Nat) : Bool :=
  let ok (prot : Bool) := let w := c.trd (pmap m.p n (if prot then 2 else 1)); (c.rxSrc cls 0 (fld w 0 18) (fld w 18 2)).isSome
  sb = 0 && c.pairValid m.p n && ok false && ok true

/-- The source that one entry word gives a transmit object of a class. -/
def Core.entrySrc (c : Core) (m : Maps) (cls sub : Nat) (w : Word) : Option Src :=
  let sr := fld w 3 18
  let sb := fld w 21 2
  match fld w 0 3 with
  | 0 => some .none
  | 1 => (c.rxSrc cls sub sr sb).map .obj
  | 2 => if c.pairSrc m cls sr sb then some (.pair sr) else none
  | _ => none

/-- The source of a transmit object under a map; none where its entry fails R249 or R250. -/
def Core.xsrc (c : Core) (m : Maps) (claims : List (Nat × Nat × Nat)) (k : Nat) : Option Src :=
  let i := k / 4
  let w := c.trd (xmap m.x i)
  let kd := fld w 0 3
  let sr := fld w 3 18
  let sb := fld w 21 2
  let t := c.ttype i
  match claims.find? (·.1 = k) with
  | some q => if kd = 3 ∧ sb = 0 ∧ sr = q.2.1 then some (.slot q.2.1 q.2.2) else none
  | none =>
    if kd = 4 then
      let j := sr + k % 4 - 1
      let tgt := c.trd (xmap m.x j)
      if isPath i ∧ t = 2 ∧ sb = 0 ∧ 6144 ≤ sr ∧ sr + 2 < 137216 ∧ ((List.range 3).all fun a => !c.tvalid (sr + a)) = true then
        (if c.built k && fld tgt 0 3 ≠ 0 then none else c.entrySrc m 11 0 tgt)
      else none
    else if c.built k || (t = 2 && isPath i && [1, 2, 3].any fun s => c.built (okey i s)) then
      (if kd = 0 then some .none else none)
    else if kd = 3 then
      let d := c.defOf m sr
      if isPath i && sb = 0 && decide (1 < concX t) && gValid d && !gSource d && gType d = 1 && c.nslot d = concX t then some (.conc sr)
      else none
    else c.entrySrc m t (k % 4) w

/-- The transmit objects in service, in index order (R249). -/
def Core.txObjs (c : Core) : List Nat :=
  c.inService.filter fun k =>
    let i := k / 4
    if isPath i then c.ttype i ≠ 6 else fld (c.trc (trib i 0)) 11 1 = 1

/-- Rings a source has written: object, depth and use (R244, R251). -/
def Core.writes (c : Core) (m : Maps) : Src → List (Nat × Nat × Nat)
  | .none => []
  | .obj k => [(k, 0, 0)]
  | .pair n => [(c.copyKey m.p n false, c.pairSkew m.p n, 2), (c.copyKey m.p n true, c.pairSkew m.p n, 2)]
  | .slot g _ =>
    let d := c.defOf m g
    if gFeedKind d = 1 then
      let e := c.defOf m (gFeed d)
      (c.members e).map fun k => (k, gDdMax e, 1)
    else [(okey (gFeed d) 0, 0, 0)]
  | .conc g => let e := c.defOf m g; (c.members e).map fun k => (k, gDdMax e, 1)

/-- Rings a reader reads in a frame, and its bandwidth charge (R256). -/
def Core.reads (c : Core) (m : Maps) : Src → List Nat × Nat
  | .none => ([], 0)
  | .obj k => ([k], c.cellsOf k)
  | .pair n =>
    let w := c.copyKey m.p n false
    ([w, c.copyKey m.p n true], c.cellsOf w * (if bitOf (c.trd (pmap m.p n 0)) 4 then 2 else 1))
  | .slot g s =>
    let d := c.defOf m g
    let k := if gFeedKind d = 1 then (c.members (c.defOf m (gFeed d))).getD s 0 else okey (gFeed d) 0
    ([k], c.cellsOf k)
  | .conc g => let ks := c.members (c.defOf m g); (ks, sumL (ks.map c.cellsOf))

/-- The rings a map needs, each object once with the larger depth (R244), before placement. -/
def Core.ringsOf (c : Core) (m : Maps) (srcs : List Src) : List Ring :=
  let ws := srcs.flatMap (c.writes m)
  let rs := srcs.flatMap fun s => (c.reads m s).1
  (ws.map (·.1)).eraseDups.map fun k =>
    let mine := ws.filter (·.1 = k)
    let uses := mine.map (·.2.2)
    { key := k, base := 0, cells := c.cellsOf k, depth := mine.foldl (fun a q => max a q.2.1) 0
      use := if uses.contains 1 then 1 else if uses.contains 2 then 2 else 0
      readers := (rs.filter (· = k)).length }

/-- The storage charge of a ring (R254). -/
def Ring.charge (r : Ring) : Nat := r.cells * (r.depth + 1)

/-- The bandwidth charge of a map (R256). -/
def Core.bandwidth (c : Core) (m : Maps) (srcs : List Src) (rings : List Ring) : Nat :=
  sumL (rings.map (·.cells)) + sumL (srcs.map fun s => (c.reads m s).2)

/-! ## The allocator (R255) -/

/-- An entry put at its place by base. -/
def insBase (r : Ring) : List Ring → List Ring
  | [] => [r]
  | q :: qs => if r.base < q.base then r :: q :: qs else q :: insBase r qs
/-- An entry put at its place by charge, largest first. -/
def insCharge (r : Ring) : List Ring → List Ring
  | [] => [r]
  | q :: qs => if q.charge < r.charge then r :: q :: qs else q :: insCharge r qs

/-- The free ranges between placed rings, which are in order of their bases. -/
def gaps : Nat → List Ring → List (Nat × Nat)
  | at_, [] => if at_ < storeCells then [(at_, storeCells - at_)] else []
  | at_, r :: rs => (if at_ < r.base then [(at_, r.base - at_)] else []) ++ gaps (r.base + r.charge) rs

/-- Every ring placed: those unchanged keep their place, the others go to the lowest free range that takes them, largest
first; none where one finds no range. -/
def placeAll (old : List Ring) (repack : Bool) (new : List Ring) : Option (List Ring) :=
  let same (r : Ring) : Option Ring :=
    if repack then none else old.find? fun q => q.key = r.key && q.depth = r.depth && q.cells = r.cells
  let kept := new.filterMap fun r => (same r).map fun q => { r with base := q.base, kept := true, start := q.start, recs := q.recs }
  let fresh := (new.filter fun r => (same r).isNone).foldl (fun a r => insCharge r a) []
  fresh.foldl (fun (acc : Option (List Ring)) r =>
    acc.bind fun placed =>
      ((gaps 0 placed).find? fun g => r.charge ≤ g.2).map fun g => insBase { r with base := g.1 } placed)
    (some (kept.foldl (fun a r => insBase r a) []))

/-- The largest free range (RSV_ST_FREE_MAX). -/
def freeMax (rs : List Ring) : Nat := (gaps 0 rs).foldl (fun a g => max a g.2) 0

/-! ## The checks of a request -/

/-- An MSP definition (Table 9-13). -/
def mspW (w : Word) : Nat := fld w 0 7
def mspP (w : Word) : Nat := fld w 7 7
def mspV (w : Word) : Bool := bitOf w 14
def Core.mspEff (c : Core) (k : Nat) : Word := (Sparse.get (fun _ => ({} : Msp)) c.sluS.msp k).eff
def Core.mspStaged (c : Core) (k : Nat) : Word := c.rd (slu (0xB40 + 4 * k))

/-- The VALID pairs of a plane. -/
def Core.pairsOf (c : Core) (p : Nat) : List Nat :=
  ((Sparse.range (pmap p 0 0) (pmap p 16384 0) c.tbl).filter fun q => q.1 % 4 = 0 && bitOf q.2 0).map fun q => (q.1 - pmap p 0 0) / 4

/-- The class of a copy for R280, and whether it is valid: TYPE, or 11 for a VC-3. -/
def Core.copyClass (c : Core) (w : Word) : Option Nat :=
  let i := fld w 0 18
  let sb := fld w 18 2
  let t := c.ttype i
  if 137216 ≤ i ∨ c.tvalid i = false then none
  else if isPath i = true then
    (if t = 2 then (if sb = 0 then none else some 11) else if sb = 0 ∧ (t = 1 ∨ t = 3 ∨ t = 4 ∨ t = 5) then some t else none)
  else if sb = 0 ∧ fld (c.trc (trib i 0)) 11 1 = 0 ∧ 8 ≤ t ∧ t ≤ 11 then some t else none

/-- The first pair of the plane that fails R280, or the first MSP definition that fails R298. -/
def Core.pmapBad (c : Core) (m : Maps) (mspNew : Bool) (srcs : List Src) : Option Nat :=
  let ps := c.pairsOf m.p
  let copies (n : Nat) := [c.copyKey m.p n false, c.copyKey m.p n true]
  let all := ps.flatMap copies
  let protPorts := (List.range 48).flatMap fun k => ([c.mspEff k, c.mspStaged k].filter mspV).map mspP
  let bad (n : Nat) : Bool :=
    let a := c.copyClass (c.trd (pmap m.p n 1))
    let b := c.copyClass (c.trd (pmap m.p n 2))
    a.isNone || a != b || c.copyKey m.p n false = c.copyKey m.p n true ||
      ((copies n).any fun k => 1 < (all.filter (· = k)).length || protPorts.contains (c.portOf (k / 4)))
  match ps.find? bad with
  | some n => some n
  | none =>
    if !mspNew then none
    else
      let vs := (List.range 48).filter fun k => mspV (c.mspStaged k)
      let ports := vs.flatMap fun k => [mspW (c.mspStaged k), mspP (c.mspStaged k)]
      let srcPorts := (srcs.flatMap (c.writes m)).map fun q => c.portOf (q.1 / 4)
      ((vs.find? fun k =>
        let w := mspW (c.mspStaged k)
        let p := mspP (c.mspStaged k)
        w = p || 95 < w || 95 < p || ([w, p].any fun q => 1 < (ports.filter (· = q)).length) ||
          ((List.range 64).any fun j => c.tvalid (p * 64 + j)) ||
          (all.any fun q => c.portOf (q / 4) = p) || srcPorts.contains p)).map (16384 + ·)

/-- What a check finds: cause (0 = passed) and index, charges, and the placement (R259, R502). -/
structure Checked where
  cause : Nat
  idx : Nat
  storage : Nat
  width : Nat
  rings : List Ring

def Core.checkMaps (c : Core) (maps : Nat) (repack : Bool) : Checked :=
  let m := c.mapsFor maps
  let cl := c.claims m
  let tx := c.txObjs
  let srcs := tx.map (c.xsrc m cl)
  let good := srcs.filterMap id
  let new := c.ringsOf m good
  let st := sumL (new.map (·.charge))
  let bw := c.bandwidth m good new
  let placed := placeAll c.rsvS.rings repack new
  let r (cause idx : Nat) : Checked := { cause := cause, idx := idx, storage := st, width := bw, rings := placed.getD [] }
  match (tx.zip srcs).find? fun q => q.2.isNone with
  | some q => r 1 (q.1 / 4)
  | none =>
    match c.pmapBad m (maps / 2 % 2 = 1) good with
    | some n => r 2 n
    | none => if storeCells < st then r 3 0 else if placed.isNone then r 4 0 else if trafficCells < bw then r 5 0 else r 0 0

/-! ## Commit requests (section 8.5) -/

/-- A request ends: RESULT, CAUSE, the events and counts, and the completion of the ring command that made it
(Table 8-12, Table 13-6). -/
def Core.endReq (c : Core) (result cause : Nat) : Core :=
  let st := rsv 0x208
  let c := ((c.sf st 4 4 result).sf st 8 4 cause).sf st 1 2 0
  let c := match result with
    | 1 => (c.ev (rsv 0x400) (bit 0)).cn (rsv 0x524) 1
    | 2 => c.ev (rsv 0x400) (bit 2)
    | _ => (c.ev (rsv 0x400) (bit 1)).cn (rsv 0x528) 1
  let c := if result = 1 then c else (c.sb st 0 false).sb (rsv 0x200) 5 false
  match c.rsvS.req with
  | none => c
  | some q =>
    let c := { c with rsvS := { c.rsvS with req := none, plan := if result = 1 then c.rsvS.plan else [] } }
    let w := le 4 (c.rd st).toNat
    match q.capsule with
    | some seq => c.fixOpt q.cmd stOk (le 8 seq ++ w)
    | none => c.fixOpt q.cmd (if result ≤ 2 then stOk else stRefused)
        (w ++ le 4 (c.rd (rsv 0x20C)).toNat ++ le 4 (c.rd (rsv 0x210)).toNat ++ le 4 (c.rd (rsv 0x214)).toNat)

/-- A request in progress, CHECKING or ARMED, withdrawn (R262–R264, R503). -/
def Core.stopReq (c : Core) (result cause : Nat) : Core :=
  if c.gf (rsv 0x208) 1 2 = 0 then c else c.endReq result cause

/-- The Warden writes RSV_MCMT with GO: refused while BUSY = 1 (R70, R258); otherwise accepted, with the refusals of R502
first. With no firmware running nothing writes it (R12, R18, R32); in FAILED a GO that still falls due is refused. -/
def Core.mapGo (c : Core) (v : Word) (tgt : Nat) (cmd capsule : Option Nat) : Core :=
  if c.wDown && c.wState != 4 then c
  else if c.gb (rsv 0x208) 0 then c.ign (rsv 0xB10) 8
  else
    let maps := fld v 1 2
    let c := ((c.wr (rsv 0xB10) (v &&& 0x7E)).wr (rsv 0xB14) (BitVec.ofNat 32 tgt)).wr (rsv 0xB18) (BitVec.ofNat 32 (tgt / 2 ^ 32))
    let c := { c with rsvS := { c.rsvS with req := some { bits := v, tgt := tgt, cmd := cmd, capsule := capsule } } }
    let c := c.sf (rsv 0x208) 12 2 maps
    let refuse (n : Nat) := c.endReq 3 n
    let ready := c.gb (rsv 0x204) 3 && !c.gb (rsv 0x204) 4
    if c.wState = 4 then refuse 7
    else if c.gb (rsv 0xB1C) 0 then refuse 6
    else if !ready && (c.checkMaps maps (bitOf v 5)).storage ≠ 0 then refuse 9
    else if maps = 0 then refuse 1
    else ((c.sb (rsv 0x208) 0 true).sf (rsv 0x208) 1 2 1).sb (rsv 0x200) 5 true

/-- ADMIT_ERR of every group: set on the groups new in the staged definitions where their storage was refused (R212). -/
def Core.admitErr (c : Core) (refused : Bool) : Core :=
  let named := (((Sparse.range (grp 0 0) (grp 4096 0) c.tbl).map fun q => (q.1 - grp 0 0) / 32).eraseDups)
  forL named (fun g c =>
    let new := gValid (c.staged g) && c.staged g != (c.group g).eff
    c.tsf (grp g 12) 8 1 (if refused && new then 1 else 0)) c

/-- The end of the check (R259, R502, R503). -/
def Core.checkEnd (c : Core) : Core :=
  match c.rsvS.req with
  | none => c
  | some q =>
    if c.gf (rsv 0x208) 1 2 ≠ 1 then c
    else
      let maps := fld q.bits 1 2
      let k := c.checkMaps maps (bitOf q.bits 5)
      let c := (c.wr (rsv 0x21C) (BitVec.ofNat 32 k.storage)).wr (rsv 0x234) (BitVec.ofNat 32 k.width)
      let c := if maps % 2 = 1 then c.admitErr (k.cause = 3 || k.cause = 4) else c
      if k.cause ≠ 0 then (c.wr (rsv 0x20C) (BitVec.ofNat 32 k.idx)).endReq 3 k.cause
      else if bitOf q.bits 6 then c.endReq 2 0
      else
        let b := if bitOf q.bits 3 then q.tgt else c.frame + 2
        if !c.d06 || decide (b < c.frame + 2) then c.endReq 5 8
        else
          let c := (c.wr (rsv 0x210) (BitVec.ofNat 32 b)).wr (rsv 0x214) (BitVec.ofNat 32 (b / 2 ^ 32))
          let c := if k.rings = [] then c else c.srExit
          { c with rsvS := { c.rsvS with plan := k.rings } }.sf (rsv 0x208) 1 2 2

/-- The armed boundary. -/
def Core.armedAt (c : Core) : Nat := (c.rd (rsv 0x210)).toNat + (c.rd (rsv 0x214)).toNat * 2 ^ 32

/-- A commit is due at the boundary that began the running frame. -/
def Core.commitDue (c : Core) : Bool := c.gf (rsv 0x208) 1 2 = 2 && c.d06 && c.armedAt = c.frame

/-- The Warden writes CANCEL (R264): its companion CANCEL_BUSY reads 1 until the next tick or boundary (R69), and a second one
is refused meanwhile (R70). -/
def Core.mapCancel (c : Core) (left : Nat) : Core :=
  if c.wDown then c
  else if c.gb (rsv 0x208) 3 then c.ign (rsv 0xB10) 8
  else
  let c := c.sb (rsv 0x208) 3 true
  match c.gf (rsv 0x208) 1 2 with
  | 0 => c
  | 2 => if c.armedAt ≤ c.frame ∨ (c.armedAt = c.frame + 1 ∧ left < 8) then c else c.endReq 4 10
  | _ => c.endReq 4 10

/-- CANCEL_BUSY reads 0 again (R69). -/
def Core.cancelSettle (c : Core) : Core := if c.gb (rsv 0x208) 3 then c.sb (rsv 0x208) 3 false else c

/-- Storage registers of the rings in effect (Table 8-10). -/
def Core.showStore (c : Core) : Core :=
  let rs := c.rsvS.rings
  let sum (l : List Ring) := BitVec.ofNat 32 (sumL (l.map (·.charge)))
  let n (u : Nat) := sum (rs.filter (·.use = u))
  let c := c.wr (rsv 0x218) (BitVec.ofNat 32 (sumL (rs.map (·.charge))))
  let c := (((c.wr (rsv 0x220) (BitVec.ofNat 32 (freeMax rs))).wr (rsv 0x224) (sum (rs.filter (·.depth = 0)))).wr (rsv 0x228) (n 1)).wr (rsv 0x22C) (n 2)
  c.sb (rsv 0x200) 9 (rs ≠ [])

/-- Words of a table plane copied to another (R261). -/
def Core.copyPlane (c : Core) (lo hi dst : Nat) : Core :=
  forL (Sparse.range lo hi c.tbl) (fun q e => e.twr (dst + (q.1 - lo)) (c.trd q.1))
    { c with tbl := Sparse.clear dst (dst + (hi - lo)) c.tbl
             rsvS := { c.rsvS with mis := c.rsvS.mis.filter fun q => q.1 ≠ dst / 0x400000 } }

/-- The post-commit copy ends: planes equal, SYNCED set, unlocked (R261). -/
def Core.copyEnd (c : Core) : Core :=
  let n := c.rsvS.copy
  if n = 0 then c
  else
    let a := c.mapsNow
    let c := if n % 2 = 1 then (c.copyPlane (xmap a.x 0) (xmap a.x 137216) (xmap (1 - a.x) 0)).sb (rsv 0x200) 2 true else c
    let c := if n / 2 % 2 = 1 then (c.copyPlane (pmap a.p 0 0) (pmap a.p 16384 0) (pmap (1 - a.p) 0 0)).sb (rsv 0x200) 3 true else c
    let c := ((c.sb (rsv 0x200) 4 false).sb (rsv 0x200) 5 false).sb (rsv 0x208) 0 false
    { c with rsvS := { c.rsvS with copy := 0 } }

/-! ## Records (section 8.2) -/

/-- Cells of a range on pseudo-channel `j` (R237). -/
def cellsOn (a n j : Nat) : Nat := (n + 15 - (j + 16 - a % 16) % 16) / 16

/-- The first cell of record `n` of a ring (R243). -/
def Ring.place (r : Ring) (n : Nat) : Nat := r.base + n % (r.depth + 1) * r.cells

/-- The place in the VC of the first byte that an object received in a frame: counted from the last VC that begins in it, or where none
does, from the frame before. -/
def Core.phaseIn (c : Core) (k : Nat) (q : ObjIn) : Nat :=
  let n := c.vcLen k
  match q.starts.getLast? with | some s => (n - s % n) % n | none => (c.obj k).phase % n

/-- The bytes an object writes in the frame that ends: those received, or all ones under the AIS mark, of which a mean frame's worth where
nothing is received (R160, R243). A Path outside its port's positions is not received (R20). -/
def Core.bytesIn (c : Core) (k : Nat) (fi : FrameIn) : List Byte × Nat :=
  let x := c.obj k
  let q : ObjIn := match fi.objs.find? (·.obj.key = k) with | some q => c.looped q | none => { obj := ⟨0, 0⟩, bytes := [], starts := [] }
  let q : ObjIn := if c.unused (c.pathOf (k / 4)) then { q with bytes := [], starts := [] } else q
  let n := if q.bytes = [] then c.bytesOf k else q.bytes.length
  (if x.aisMark then List.replicate n 0xFF else q.bytes, c.phaseIn k q)

/-- The record of the ended frame, written into every ring; a late write leaves no header (R243, R246, R247, R273). -/
def Core.writeRings (c : Core) (fi : FrameIn) : Core × List MemOp :=
  let n := c.frame
  let go (acc : Core × List MemOp × List Ring) (r : Ring) : Core × List MemOp × List Ring :=
    let c := acc.1
    let x := c.obj r.key
    if !x.svc then (c, acc.2.1, acc.2.2 ++ [{ r with start := none, recs := [] }])
    else
      let (bs, phase) := c.bytesIn r.key fi
      let old := r.recs.filter fun q => n ≤ q.frame + r.depth
      let rec_ : Rec := { frame := n, pos := x.stream, phase := phase, len := bs.length, ais := x.aisMark }
      let late := fi.lateWr.any (·.key = r.key)
      let hdr := le 4 (bs.length % 2 ^ 18 + (if x.aisMark then 2 ^ 18 else 0) + n % 8192 * 2 ^ 19)
      let r := { r with start := some (r.start.getD n), recs := if late then old else rec_ :: old }
      (c, acc.2.1 ++ (if late then [] else [.write (32 * r.place n) (hdr ++ bs)]), acc.2.2 ++ [r])
  let out := if c.rsvS.run then c.rsvS.rings.foldl go (c, [], []) else (c, [], c.rsvS.rings)
  let ks := ((c.rsvS.rings.map (·.key)) ++ fi.objs.map (·.obj.key)).eraseDups
  let c := forL ks (fun k d =>
    let w := c.bytesIn k fi
    d.updObj k fun x => if x.svc then
      { x with stream := (x.stream + w.1.length) % 2 ^ 32, phase := (w.2 + w.1.length) % c.vcLen k } else x)
    { out.1 with rsvS := { out.1.rsvS with rings := out.2.2 } }
  (c, out.2.1)

/-- Late work of the ended frame (R271–R273). What the transmit side had not taken of a late read is sent as all-ones; how much that is is
not stated and is a free value. -/
def Core.lateWork (c : Core) (fi : FrameIn) : Core :=
  let one (rd : Bool) (o : ObjRef) (c : Core) : Core :=
    let i := o.idx.val
    let p := if rd then c.portOf i else c.rxPort i
    let add (l : List Nat) (n j : Nat) : List Nat := (List.range n).map fun a => l.getD a 0 + (if a = j then 1 else 0)
    let c := ((c.tcAdd i 4 1).cn (pe p 0x518) 1).cn (rsv (if rd then 0x514 else 0x510)) 1
    let c := c.updObj o.key fun x => { x with pm := { x.pm with a := add x.pm.a 5 4 } }
    let c := c.updPort p fun x => { x with pm := { x.pm with a := add x.pm.a 12 11 } }
    { c.ev (rsv 0x400) (bit 3) with lateSec := c.lateSec + 1 }
  let cut (o : ObjRef) (c : Core) : Core :=
    let ones (s : Sent) : Sent :=
      let taken := Config.freeNat c.freeCtr % (s.bytes.length + 1)
      { s with bytes := s.bytes.take taken ++ (s.bytes.drop taken).map fun _ => (none, 0xFF) }
    ({ c with rsvS := { c.rsvS with sent := c.rsvS.sent.map fun s => if s.key = o.key then ones s else s } } : Core).fresh
  forL fi.lateRd (fun o c => cut o (one true o c)) (forL fi.lateWr (one false) c)

/-! ## Reads (R245–R247, R286, R287, R293) -/

/-- What a reader finds. -/
inductive Found2 where
  | ais
  | stale
  /-- No source that gives bytes: the place is filled (R197). -/
  | fill
  /-- Bytes, and the place in the VC of the first. -/
  | data (bs : List (Option Nat × Byte)) (phase : Nat)
  deriving DecidableEq, Repr

/-- All-ones bytes that no cell gave. -/
def onesOf (n : Nat) : List (Option Nat × Byte) := List.replicate n (none, 0xFF)

/-- Payload bytes of a record from its cells. -/
def recBytes (m : List Host.Cell) (r : Ring) (q : Rec) (from_ n : Nat) : List (Option Nat × Byte) :=
  (List.range n).map fun j => let a := 32 * r.place q.frame + 4 + from_ + j; (some a, memRead m a)

/-- One record of an object read whole (R246, R247). -/
def Core.readRec (c : Core) (m : List Host.Cell) (k f : Nat) : Found2 :=
  match c.rsvS.rings.find? (·.key = k) with
  | none => .ais
  | some r =>
    if !(c.obj k).svc || !c.en (0x20 + c.rxPort (k / 4)) then .ais
    else match r.start with
      | none => .ais
      | some s =>
        if f < s then .ais
        else match r.recs.find? (·.frame = f) with
          | none => .stale
          | some q => if q.ais then .ais else .data (recBytes m r q 0 q.len) q.phase

/-- Bytes of a copy at stream positions (R286): none where a record is missing; the mark of any record touched, and of an object out of
service or on a port with EN = 0 (R252). -/
def Core.readStream (c : Core) (m : List Host.Cell) (k pos n : Nat) : Found2 :=
  match c.rsvS.rings.find? (·.key = k) with
  | none => .ais
  | some r =>
    if !(c.obj k).svc || !c.en (0x20 + c.rxPort (k / 4)) then .ais else
    let at_ (j : Nat) : Option (Rec × Nat) :=
      let a := (pos + j) % 2 ^ 32
      (r.recs.find? fun q => decide ((a + 2 ^ 32 - q.pos) % 2 ^ 32 < q.len)).map fun q => (q, (a + 2 ^ 32 - q.pos) % 2 ^ 32)
    let xs := (List.range n).map at_
    if xs.any (·.isNone) then .stale
    else if xs.any fun x => match x with | some q => q.1.ais | none => false then .ais
    else .data (xs.filterMap fun x => x.map fun q => let a := 32 * r.place q.1.frame + 4 + q.2; (some a, memRead m a))
      (match xs.headD none with | some q => (q.1.phase + q.2) % c.vcLen k | none => 0)

def Core.pair (c : Core) (n : Nat) : Pair := Sparse.get (fun _ => {}) c.sluS.pairs n
def Core.setPair (c : Core) (n : Nat) (x : Pair) : Core :=
  { c with sluS := { c.sluS with pairs := Sparse.put (fun _ => {}) c.sluS.pairs n x } }

/-- Signal fail of a copy holds (as recorded at the last boundary, R15). -/
def Pair.sf (x : Pair) (prot : Bool) : Bool := x.cond.getD (if prot then 2 else 0) false

/-- A pair read in a frame: byte-exactly at the lagger's stream while an offset is confirmed, else record m − 1 of the
selected copy (R286, R287, R293, R313). Every destination of the pair reads the frame's bytes (R23), and a frame substituted counts
once. -/
def Core.readPair (c : Core) (m : List Host.Cell) (n f : Nat) : Core × Found2 :=
  let p := c.mapsNow.p
  let x := c.pair n
  let sel := c.en 8 && x.sel
  let key (prot : Bool) := c.copyKey p n prot
  match x.offset with
  | none => (c.setPair n { x with rd := none, rdNow := none }, c.readRec m (key sel) f)
  | some off =>
    let lag := key (!x.lead)
    let prev : Option Nat := match x.rdNow with
      | some (g, e) => if g = f then x.rd else if g + 1 = f then some e else none
      | none => none
    let span : Option (Nat × Nat) := match (c.rsvS.rings.find? (·.key = lag)).bind fun r => r.recs.find? (·.frame = f) with
      | some q => some (q.pos, (q.pos + q.len) % 2 ^ 32)
      | none => prev.map fun a => (a, (a + c.bytesOf lag) % 2 ^ 32)
    match span with
    | none => (c, .stale)
    | some (lo, hi) =>
      let from_ := prev.getD lo
      let len := (hi + 2 ^ 32 - from_) % 2 ^ 32
      let (from_, len) := if 2 * c.bytesOf lag < len then (lo, (hi + 2 ^ 32 - lo) % 2 ^ 32) else (from_, len)
      let get (prot : Bool) : Found2 :=
        c.readStream m (key prot) (if prot = x.lead then (from_ + 2 ^ 32 - off) % 2 ^ 32 else from_) len
      let c := c.setPair n { x with rd := prev, rdNow := some (f, hi) }
      match get sel with
      | .stale =>
        if bitOf (c.trd (pmap p n 0)) 4 then
          match get (!sel) with
          | .data bs ph => (if (x.rdNow.map (·.1)) = some f then c else c.cn (slu 0x510) 1, .data bs ph)
          | _ => (c, .stale)
        else (c, .stale)
      | r => (c, r)

/-- A fixed consumer of a sink carries payload in a frame (R233). -/
def Core.sinkWhole (c : Core) (g : Nat) : Bool :=
  let n := c.nslot (c.group g).eff
  fld (c.trd (grp g 12)) 0 3 = 2 && !bitOf (c.trd (grp g 12)) 5 &&
    (List.range n).all fun s => c.gSet g 24 s && !(c.slot g s).failed

/-- A sink slot at the group's read point (R219, R228). -/
def Core.readSlot (c : Core) (m : List Host.Cell) (g s : Nat) : Found2 :=
  let d := (c.group g).eff
  match (c.group g).readPt, (c.members d)[s]? with
  | some _, some k =>
    if (c.slot g s).failed then .ais else c.readRec m k (c.frame - (c.slot g s).depth.toNat)
  | _, _ => .ais

/-- The sink slot with accepted sequence number `v` (R233). -/
def Core.slotOfSq (c : Core) (g v : Nat) : Nat :=
  let d := (c.group g).eff
  if gLcas d then ((List.range (c.nslot d)).find? fun s => (c.slot g s).sqNow.toNat = v).getD v else v

/-- The number of VC blocks, against the block that holds the read point's MFI value `mu`, of the VC in progress at the first byte of a record
of a member, at place `phase`: the H4, or K4, of a VC gives its MFI (R215, R218). -/
def blockOff (hi : Bool) (kpos mu phase : Nat) : Int :=
  let q := if hi then 1 else 4
  let off := (q - mu % q) % q
  if off = q - 1 ∧ kpos < phase then (((off : Int) - q) + mu % q) / q else ((off : Int) + mu % q) / q

/-- Every slot of a sink read at the group's read point, the same MFI value and the same byte of the frame for all: from the place that the
hindmost slot has reached in it (R219, section 7.4). -/
def Core.readAligned (c : Core) (m : List Host.Cell) (g : Nat) : List Found2 :=
  let d := (c.group g).eff
  let ks := (c.members d).zipIdx
  match (c.group g).readPt with
  | none => ks.map fun _ => .ais
  | some r =>
    let mu := (((c.frame : Int) - r) % 4096).toNat
    let n := c.vcLen ((c.members d).headD 0)
    let kpos := c.pohStep ((c.members d).headD 0) * (if gHigh d then 5 else 3)
    let at_ (k s : Nat) : Option (Rec × Int) :=
      if (c.slot g s).failed then none
      else ((c.rsvS.rings.find? (·.key = k)).bind fun r => r.recs.find? (·.frame = c.frame - (c.slot g s).depth.toNat)).map fun q =>
        (q, (q.phase : Int) + blockOff (gHigh d) kpos mu q.phase * n)
    let xs := ks.map fun q => at_ q.1 q.2
    let rels := xs.filterMap id
    let lo := rels.foldl (fun (a : Rec × Int) x => if x.2 < a.2 then x else a) (rels.headD ({ frame := 0, pos := 0, phase := 0, len := 0, ais := false }, 0))
    (ks.zip xs).map fun q => match q.2 with
      | none => c.readSlot m g q.1.2
      | some x => match c.readStream m q.1.1 ((((x.1.pos : Int) - x.2 + lo.2) % 2 ^ 32).toNat) lo.1.len with
        | .data bs _ => .data bs (lo.2 % n).toNat
        | f => f

/-- The VC-4-Xc that carries its members' payload (R233): each payload column byte by byte from the members in SQ order, a path overhead
and X − 1 fixed-stuff columns in front. -/
def interleave (x : Nat) (phase : Nat) (xs : List (List (Option Nat × Byte))) : List (Option Nat × Byte) :=
  (List.range (xs.headD []).length).flatMap fun j =>
    if (phase + j) % 261 = 0 then List.replicate x (none, 0) else xs.map fun l => l.getD j (none, 0)

/-- Slot `s` of the payload columns of a VC-4-Xc, with room for its own path overhead; the fixed-stuff columns are dropped (R234). -/
def column (x s phase : Nat) (bs : List (Option Nat × Byte)) : List (Option Nat × Byte) × Nat :=
  let picked := bs.zipIdx.filterMap fun q =>
    let o := (phase + q.2) % (2349 * x)
    let j := o % (261 * x)
    let r := o / (261 * x)
    if j = 0 then some ((none, 0), 261 * r)
    else if j < x ∨ (j - x) % x ≠ s then none else some (q.1, 261 * r + j / x)
  (picked.map (·.1), (picked.headD ((none, 0), 0)).2)

/-- What a transmit object's source gives in the running frame. -/
def Core.readSrc (c : Core) (m : List Host.Cell) : Src → Core × Found2
  | .none => (c, .fill)
  | .obj k => (c, c.readRec m k (c.frame - 1))
  | .pair n => c.readPair m n (c.frame - 1)
  | .slot g s =>
    let d := (c.group g).eff
    if !c.gRuns g then (c, .fill)
    else if gFeedKind d = 1 then
      (if gMode d then
        (c, if c.gRuns (gFeed d) && c.sinkWhole (gFeed d) then
          (c.readAligned m (gFeed d)).getD (c.slotOfSq (gFeed d) s) .ais else .ais)
       else (c, c.readSlot m (gFeed d) s))
    else
      let x := concX (c.ttype (gFeed d))
      if c.objSf (okey (gFeed d) 0) then (c, .ais)
      else (c, match c.readRec m (okey (gFeed d) 0) (c.frame - 1) with
        | .data bs ph => let q := column x s ph bs; .data q.1 q.2
        | r => r)
  | .conc g =>
    if !(c.gRuns g && c.sinkWhole g) then (c, .ais)
    else
      let n := c.nslot (c.group g).eff
      let al := c.readAligned m g
      let xs := (List.range n).map fun s => al.getD (c.slotOfSq g s) .ais
      (c, if xs.contains .stale then .stale else if xs.contains .ais then .ais
        else
          let ph := match xs.headD .ais with | .data _ p => p | _ => 0
          .data (interleave n ph (xs.map fun x => match x with | .data bs _ => bs | _ => [])) (n * ph))

/-! ## Table integrity (R269, R296) -/

/-- An entry written: its parity is right (R42). -/
def Core.tblGood (c : Core) (t i : Nat) : Core := { c with rsvS := { c.rsvS with mis := c.rsvS.mis.filter (· ≠ (t, i)) } }

/-- A parity mismatch of a table entry at use, counted once per entry and frame. An active map entry is repaired from the other
plane where that one is SYNCED and its own parity is right. -/
def Core.tableParity (c : Core) (t i : Nat) : Core :=
  if t = 0 ∨ c.rsvS.seen.contains (t, i) = true then c
  else
    let c := { c with rsvS := { c.rsvS with seen := c.rsvS.seen ++ [(t, i)] } }
    let c := (((c.cn (rsv 0x520) 1).ev (rsv 0x400) (bit 5)).wr (rsv 0x24C) (BitVec.ofNat 32 (t + i * 16))).report 105
    let a := c.mapsNow
    let spare (u : Nat) : Bool := !c.rsvS.mis.contains (u, i)
    let c := { c with rsvS := { c.rsvS with mis := if t < 3 ∨ 6 < t ∨ c.rsvS.mis.contains (t, i) = true then c.rsvS.mis else c.rsvS.mis ++ [(t, i)] } }
    if t = 3 + a.x then
      if c.gb (rsv 0x200) 2 && spare (4 - a.x) then
        let c := (((c.tblGood t i).twr (xmap a.x i) (c.trd (xmap (1 - a.x) i))).sb (rsv 0x24C) 22 true).ev (rsv 0x400) (bit 6)
        { c with rsvS := { c.rsvS with blank := c.rsvS.blank ++ [i] } }
      else { c with rsvS := { c.rsvS with bad := c.rsvS.bad ++ [i] } }
    else if t = 5 + a.p then
      let c := c.ev (slu 0x400) (bit 10)
      if c.gb (rsv 0x200) 3 && spare (6 - a.p) then
        (forN 4 (fun w c => c.twr (pmap a.p i w) (c.trd (pmap (1 - a.p) i w))) (c.tblGood t i)).sb (rsv 0x24C) 22 true
      else { c with rsvS := { c.rsvS with held := c.rsvS.held ++ [i] } }
    else c

/-- Whether a transmit object's path overhead is inserted: unless POH_MODE is PASS and its source is a single object of its type, or a
pair of such objects, copied whole (R139). -/
def Core.terms (c : Core) (maps : Maps) (src : Src) (k : Nat) : Bool :=
  let i := k / 4
  let same (j : Nat) : Bool := c.ttype (j / 4) = c.ttype i
  let whole := match src with
    | .obj j => same j
    | .pair n => same (c.copyKey maps.p n false)
    | _ => false
  !(bitOf (c.trc (trib i 0)) 12 && whole && !c.built k)

/-- A distance between two places of a VC of `n` bytes, the shorter way round. -/
def wrapDiff (n a b : Nat) : Int :=
  let d := (a + n - b % n) % n
  if n < 2 * d then (d : Int) - n else d

/-- What a transmit object has read is taken into its depth: the bytes beyond the mean, and a jump of the source's phase, which a
received NDF or a new source makes (R194–R196). It is held while it is marked, and resumes with NDF (R193, R199); the same where its place
begins or ends to be filled (R197). -/
def Obj.taken (x : Obj) (n mean : Nat) (built : Bool) (r : Found2) : Obj :=
  let ais := r = .ais
  let fill := r = .fill && !built
  let ndf := x.gNdf || (x.gHeld && !ais) || (!ais && fill != x.tx.fill)
  let tx := match r with
    | .data bs ph =>
      let jump := if ndf || bs = [] then 0 else wrapDiff n ph x.tx.next
      { x.tx with moved := x.tx.moved + ((bs.length : Int) - mean) + jump, next := (ph + bs.length) % n }
    | .stale => { x.tx with next := (x.tx.next + mean) % n }
    | .fill => { x.tx with moved := 0, next := (x.tx.next + mean) % n }
    | .ais => { x.tx with moved := 0 }
  { x with gHeld := ais, gNdf := ndf, tx := { tx with fill := if ais then x.tx.fill else fill } }

/-- Every transmit object read for the running frame (R245, R247, R252, R273, R276); an entry found at use to be invalid
is treated as a parity mismatch (R269). A Path at a position its port does not carry is not sent (R20). -/
def Core.readAll (c : Core) (m : List Host.Cell) : Core :=
  let maps := c.mapsNow
  let cl := c.claims maps
  let c := { c with rsvS := { c.rsvS with sent := [] } }
  let c := forL (c.txObjs.filter fun k => !c.unused (c.pathOf (k / 4))) (fun k c =>
    let i := k / 4
    let src := c.xsrc maps cl k
    let c := if src.isNone && !c.rsvS.bad.contains i then c.tableParity (3 + maps.x) i else c
    let (c, r) : Core × Found2 :=
      if !c.en 7 || c.rsvS.bad.contains i then (c, .ais)
      else if c.rsvS.blank.contains i then (c, .data (onesOf (c.bytesOf k)) (c.obj k).tx.next)
      else match src with | some s => c.readSrc m s | none => (c, .ais)
    let c := if r = .stale then (c.cn (rsv 0x50C) 1).ev (rsv 0x400) (bit 4) else c
    let x := c.obj k
    let c := c.setObj k (x.taken (c.vcLen k) (c.bytesOf k) (c.built k) r)
    let s : Sent := match r with
      | .ais => { key := k, ais := true, bytes := [] }
      | .fill => { key := k, ais := false, bytes := [], phase := x.tx.next }
      | .stale => { key := k, ais := false, bytes := onesOf (c.bytesOf k), phase := x.tx.next }
      | .data bs ph => { key := k, ais := false, bytes := bs, phase := ph }
    { c with rsvS := { c.rsvS with sent := c.rsvS.sent ++ [{ s with term := c.terms maps (src.getD .none) k }] } }) c
  ({ c with rsvS := { c.rsvS with blank := [] } } : Core).fresh

/-- TABLE_PARITY_ERROR: an XMAP entry repaired in the running frame has its objects' payload sent as all-ones in that frame
(R269). -/
def Core.parityError (c : Core) (t i : Nat) : Core :=
  let c := c.tableParity t i
  if c.rsvS.blank = [] then c
  else { c with rsvS := { c.rsvS with
      blank := []
      sent := c.rsvS.sent.map fun s =>
        if c.rsvS.blank.contains (s.key / 4) then { s with bytes := if s.ais then s.bytes else onesOf (c.bytesOf s.key) } else s } }

/-- Load registers of the frame that ends (Table 8-10): cells written and read, by pseudo-channel. -/
def Core.showLoad (c : Core) (orCells : Nat) : Core :=
  let n := c.frame
  let wr := c.rsvS.rings.map fun r => (r.place n, r.cells)
  let rd := c.rsvS.sent.flatMap fun s => ((s.bytes.filterMap fun b => b.1.map (· / 32)).eraseDups).map fun a => (a, 1)
  let all := wr ++ rd
  let c := c.wr (rsv 0x23C) (BitVec.ofNat 32 orCells)
  let c := forN 16 (fun j c => c.wr (rsv (0x280 + 4 * j)) (BitVec.ofNat 32 (sumL (all.map fun q => cellsOn q.1 q.2 j)))) c
  c.wr (rsv 0x238) (BitVec.ofNat 32 (max (c.rd (rsv 0x238)).toNat (sumL (all.map (·.2)))))

/-! ## Initialisation (R241, R242) -/

/-- One step of initialisation, in its order. -/
def Core.initStep (c : Core) (_m : List Host.Cell) (st : InitStep) : Core × List MemOp :=
  let r := rsv 0x204
  let at_ (k : Nat) : Bool := c.gb (lev 0x204) 3 && !c.gb r 4 && !c.gb r k && (k = 0 || c.gb r (k - 1))
  match st with
  | .trained => if at_ 0 then (c.sb r 0 true, []) else (c, [])
  | .ret => if at_ 1 then (c.sb r 1 true, [.clear 0x3C0000000 0x400000000]) else (c, [])
  | .openRes => if at_ 2 then ((c.sb r 2 true).sb (hif 0x204) 1 true, [.clear 0x380000000 0x3C0000000]) else (c, [])
  | .part n => if at_ 3 then (c.sf r 8 8 n.val, []) else (c, [])
  | .traffic => if at_ 3 then (((c.sb r 3 true).sf r 8 8 100).ev (rsv 0x400) (bit 7), [.clear 0 0x380000000]) else (c, [])

/-- Initialisation fails (R241, R270). -/
def Core.initFail (c : Core) : Core :=
  if c.gb (lev 0x204) 3 && !c.gb (rsv 0x204) 3 && !c.gb (rsv 0x204) 4 then
    ((c.sb (rsv 0x204) 4 true).ev (rsv 0x400) (bit 8)).report 106
  else c

/-! ## Self-refresh (R274, R275) -/

def Core.srEntry (c : Core) : Core :=
  if c.gb (rsv 0x40) 9 && c.rsvS.rings = [] && !c.selfRefresh && c.rsvS.req.isNone && (c.gb (rsv 0x204) 3 || c.gb (rsv 0x204) 4) &&
      decide (max 1 (c.gf (rsv 0x40) 0 8) ≤ c.rsvS.idle) then
    ((c.sb (rsv 0x200) 8 true).sb (hif 0x204) 2 true).cn (rsv 0x530) 1
  else c

/-! ## Host access to the Open Reservoir (R238–R242, R385) -/

/-- Sends one completion. -/
def Core.send (c : Core) (r : LinkResp) : Core := { c with linkOut := [r] }

/-- The link serves HDM accesses: CXL mode, link up, decoder committed (R384). -/
def Core.hdmOn (c : Core) : Bool := c.gb (hif 0x200) 0 && c.gb (hif 0x200) 1 && c.gb (hif 0x204) 0

/-- Whether a read of the Open Reservoir returns poison: before OR_READY, after a failed initialisation and over a bad word
(R240–R242). -/
def Core.orPoison (c : Core) (o n : Nat) : Bool :=
  let a := orBase + o
  !c.orReady || c.rsvS.badCells.any fun k => decide (a < 32 * k + 32) && decide (32 * k < a + n)

/-- Bytes of the Open Reservoir read within one line: poison before OR_READY, after a failed initialisation and over a bad
word (R240–R242). -/
def Core.orRead (c : Core) (m : List Host.Cell) (o n : Nat) : Core :=
  let a := orBase + o
  if !c.orReady then c.send .poison
  else
    let bad := c.orPoison o n
    let c := c.hdmWake.cn (rsv 0x534) ((a + n + 31) / 32 - a / 32)
    if bad then c.send .poison else c.send (.bytes (memBytes m a n))

/-- Bytes written (R239, R241, R242); a whole line rewrites its words. -/
def Core.orWrite (c : Core) (o : Nat) (bs : List Byte) : Core × List MemOp :=
  let c := c.send .done
  if !c.orReady || (decide (0x10000000 ≤ o) && decide (o < 0x20000000)) then
    ((c.cn (rsv 0x51C) 1).ev (rsv 0x400) (bit 10), [])
  else
    let a := orBase + o
    let c := c.hdmWake.cn (rsv 0x538) ((a + bs.length + 31) / 32 - a / 32)
    (c, [.write a bs])

def Core.hdmRead (c : Core) (m : List Host.Cell) (line : Nat) : Core × List MemOp :=
  if c.hdmOn then (c.orRead m (line * 64) 64, []) else (c.send .noLink, [])
def Core.hdmWrite (c : Core) (_m : List Host.Cell) (line : Nat) (bs : List Byte) : Core × List MemOp :=
  if c.hdmOn then c.orWrite (line * 64) (bs.take 64) else (c.send .noLink, [])

/-- A BAR4 access (R385, Table 13-1). In CXL mode BAR4 holds the component registers of CXL 2.0, which this spec does not
give: a read there returns a free value. -/
def Core.bar4 (c : Core) (m : List Host.Cell) (x : Bar4) : Core × List MemOp :=
  let a := x.addr.toNat
  let o := a - 0x40000000
  if !c.gb (hif 0x200) 0 then (c.send .noLink, [])
  else if c.gb (hif 0x200) 1 then
    (match x.data with
     | some _ => (c.send .done, [])
     | none => ((c.send (.data (Config.freeWord c.freeCtr))).fresh, []))
  else if a < 0x40000000 then
    (match x.data with
     | some _ => (c.send .done, [])
     | none => (c.send (.bytes (List.replicate x.bytes 0)), []))
  else if x.bytes < 4 ∨ 64 < x.bytes ∨ x.bytes % 4 ≠ 0 ∨ a % 4 ≠ 0 ∨ 64 < a % 64 + x.bytes then (c.send .abort, [])
  else match x.data with
    | some bs => c.orWrite o (bs.take x.bytes)
    | none => (c.orRead m o x.bytes, [])

/-! ## ECC and scrub (R265–R268) -/

/-- An uncorrectable or misdirected read (R266, R267, R270). -/
def Core.eccUe (c : Core) (k : EccKind) (cell synd : Nat) (retryOk : Bool) : Core :=
  let region := if cell < storeCells then 0 else if cell < storeCells + 33554432 then 1 else 2
  let retry := region = 0 && c.gb (rsv 0x40) 8
  let c := if retry then c.cn (rsv 0x518) 1 else c
  if retry && retryOk then c
  else
    let ue := k = .ue
    let c := (c.cn (rsv (if ue then 0x504 else 0x508)) 1).ev (rsv 0x408) (bit (if ue then 1 else 2))
    let c := (c.wr (rsv 0x240) (BitVec.ofNat 32 (32 * cell))).wr (rsv 0x244) (BitVec.ofNat 32 (32 * cell / 2 ^ 32))
    let c := c.wr (rsv 0x248) (BitVec.ofNat 32 ((if ue then 1 else 2) + region * 4 + cell % 16 * 16 + synd * 256))
    let c := c.report 102
    if region ≠ 0 then { c with rsvS := { c.rsvS with badCells := (c.rsvS.badCells.filter (· ≠ cell)) ++ [cell] } }
    else
      let hit := c.rsvS.rings.find? fun r => decide (r.base ≤ cell) && decide (cell < r.base + r.charge)
      let span : Nat × Nat := match hit with
        | some r => if (cell - r.base) % r.cells = 0 then (cell, cell + r.cells) else (cell, cell + 1)
        | none => (cell, cell + 1)
      let inSpan (b : Option Nat × Byte) : Bool :=
        match b.1 with | some a => decide (span.1 ≤ a / 32) && decide (a / 32 < span.2) | none => false
      let header := decide (1 < span.2 - span.1)
      let met := (c.rsvS.sent.filter fun s => s.bytes.any inSpan).length
      let c := { c with rsvS := { c.rsvS with sent := c.rsvS.sent.map fun s =>
        { s with bytes := s.bytes.map fun b => if inSpan b then (b.1, 0xFF) else b } } }
      if header && decide (0 < met) then (c.cn (rsv 0x50C) met).ev (rsv 0x400) (bit 4) else c

/-- The scrub runs: enabled, initialisation ended well, not in self-refresh (R268, R275). -/
def Core.scrubs (c : Core) : Bool := c.gb (rsv 0x44) 16 && c.gb (rsv 0x204) 3 && !c.gb (rsv 0x204) 4 && !c.selfRefresh

/-- The HBM's reads in the frame that ends: words corrected, and the cell that the scrub has reached (R265, R267, R268). -/
def Core.eccFrame (c : Core) (corrected scrubAt : Nat) : Core :=
  let n := if c.gb (rsv 0x204) 1 then corrected else 0
  let c := if n = 0 then c else { (c.cn (rsv 0x500) n).ev (rsv 0x408) (bit 0) with ceSec := c.ceSec + n }
  if c.scrubs then c.wr (rsv 0x250) (BitVec.ofNat 32 scrubAt) else c

/-- A scrub pass completes, with the words it rewrote (R268). -/
def Core.scrubPass (c : Core) (fixed : Nat) : Core :=
  if c.scrubs then
    let c := (c.cn (rsv 0x52C) fixed).cn (rsv 0x500) fixed
    let c := c.ev (rsv 0x408) (bit 5 ||| (if fixed = 0 then 0 else bit 0))
    let c := (c.sf (rsv 0x254) 0 16 (c.gf (rsv 0x254) 0 16 + 1)).wr (rsv 0x250) 0
    { c with ceSec := c.ceSec + fixed }
  else c

/-- RSV_HBM_TEMP, with HBM_HOT as HOT becomes 1 (Table 8-12, R270). -/
def Core.hbmTemp (c : Core) (t : Nat) : Core :=
  let was := c.gb (rsv 0x258) 8
  let c := c.wr (rsv 0x258) (BitVec.ofNat 32 (t + (if 95 ≤ t then 256 else 0) + (if 85 ≤ t then 512 else 0)))
  if 95 ≤ t ∧ was = false then (c.ev (rsv 0x400) (bit 9)).report 106 else c

/-- The frame of the record at a ring's read point, if it has one: a group slot's (R219), else the last frame's (R245). -/
def Core.readFrame (c : Core) (r : Ring) : Option Nat :=
  if r.use = 1 then
    c.liveGroups.findSome? fun g =>
      let ks := c.members (c.group g).eff
      if gSource (c.group g).eff || !ks.contains r.key || (c.group g).readPt.isNone then none
      else some (c.frame - (c.slot g (ks.idxOf r.key)).depth.toNat)
  else some (c.frame - 1)

/-- The ring window (0xB24–0xB30). -/
def Core.ringWindow (c : Core) (o : Nat) : Word :=
  let w := c.rd (rsv 0xB20)
  match c.rsvS.rings.find? (·.key = okey (fld w 0 18) (fld w 18 2)) with
  | none => 0
  | some r =>
    let new := match r.start, c.readFrame r with | some s, some f => decide (f < s) | _, _ => true
    match o with
    | 0xB24 => BitVec.ofNat 32 r.base
    | 0xB28 => BitVec.ofNat 32 r.cells
    | 0xB2C => BitVec.ofNat 32 (r.depth + 1)
    | _ => BitVec.ofNat 32 (1 + (if r.kept then 2 else 0) + (if new then 4 else 0) + min 255 r.readers * 256)

def execRsvInitStep (st : InitStep) (s : State) : Host.Outcome State Fault Refusal := s.onMem (·.initStep · st)
def execInitFail (s : State) : Host.Outcome State Fault Refusal := s.on (·.initFail)
def execHdmRead (line : BitVec 24) (s : State) : Host.Outcome State Fault Refusal := s.onMem (·.hdmRead · line.toNat)
def execHdmWrite (line : BitVec 24) (bs : List Byte) (s : State) : Host.Outcome State Fault Refusal :=
  s.onMem (·.hdmWrite · line.toNat bs)
def execBar4Access (x : Bar4) (s : State) : Host.Outcome State Fault Refusal := s.onMem (·.bar4 · x)
def execEccUncorrectable (k : EccKind) (cell : BitVec 29) (synd : Byte) (ok : Bool) (s : State) :
    Host.Outcome State Fault Refusal := s.on (·.eccUe k cell.toNat synd.toNat ok)
def execScrubPass (n : Nat) (s : State) : Host.Outcome State Fault Refusal := s.on (·.scrubPass n)
def execTableParityError (t : Fin 9) (i : BitVec 18) (s : State) : Host.Outcome State Fault Refusal :=
  s.on (·.parityError t.val i.toNat)
def execHbmHot (t : Byte) (s : State) : Host.Outcome State Fault Refusal := s.on (·.hbmTemp t.toNat)
def execMapCommitGo (v : Word) (tgt : BitVec 64) (s : State) : Host.Outcome State Fault Refusal :=
  s.on (·.mapGo v tgt.toNat none none)
def execCommitCheckEnd (s : State) : Host.Outcome State Fault Refusal := s.on (·.checkEnd)
def execPostCommitCopyEnd (s : State) : Host.Outcome State Fault Refusal := s.on (·.copyEnd)
def execMapCommitCancel (left : Nat) (s : State) : Host.Outcome State Fault Refusal := s.on (·.mapCancel left)
def execSelfRefreshEntry (s : State) : Host.Outcome State Fault Refusal := s.on (·.srEntry)
def execSelfRefreshExit (s : State) : Host.Outcome State Fault Refusal := s.on (·.srExit)

end Sys2Proof.Machine
end

