-- ==== Sys2Proof/Machine/Origin.lean ====
section
/-! DEFINITION. What the transmit side sends in a frame: the VC of every transmit object with its path overhead (Tables 5-3, 5-4, 7-4),
empty places (R197), pattern generators (R203), Paths built from their Tributaries (R198), and the line frames of every port with
their section and OTU overhead (Tables 5-2, 5-5). The places of pointers and containers in a frame are those of G.707. -/

namespace Sys2Proof.Machine

/-! ## VCAT and LCAS overhead sent (Table 7-4) -/

/-- The source group and slot of a transmit object in a group that runs. -/
def Core.slotFor (c : Core) (k : Nat) : Option (Nat × Nat) :=
  ((c.claims c.mapsNow).find? fun q => q.1 = k && c.gRuns q.2.1).map (·.2)

/-- The partner sink of a FIXED source (R227). -/
def Core.sinkPartner (c : Core) (g : Nat) : Option Nat :=
  match gRev (c.group g).eff with | some h => if c.partnerOk g then some h else none | none => none

/-- The MST bits, 1 = FAIL, of eight members from number `m` on, and the RS-Ack that a FIXED source sends for its partner sink; members at
or above NSLOT are FAIL (R227, R230). Without a partner both are 0: DESIGN CHOICE. -/
def Core.mstSent (c : Core) (g m : Nat) : Byte :=
  match c.sinkPartner g with
  | some h => BitVec.ofNat 8 (sumL ((List.range 8).map fun j =>
      if m + j < c.nslot (c.group h).eff ∧ c.gSet h 16 (m + j) = true then 0 else 2 ^ (7 - j)))
  | none => 0
def Core.rsAckSent (c : Core) (g : Nat) : Bool :=
  match c.sinkPartner g with | some h => bitOf (c.trd (grp h 13)) 28 | none => false

/-- The GID bit of packet `n`: the 2^15 − 1 sequence x^15 + x^14 + 1 from an all-ones register, one bit a packet (G.7042); 0 without LCAS. -/
def gidBit (lcas : Bool) (n : Nat) : Bool :=
  lcas && ((List.range (n % 32767 + 1)).foldl (fun (q : Bool × Nat) _ =>
    let b := (q.2 / 16384 % 2 = 1) != (q.2 / 8192 % 2 = 1)
    (b, (2 * q.2 + (if b then 1 else 0)) % 32768)) (false, 32767)).1

/-- H4 of block `n` of a slot; `h` holds the H4 bytes sent before, newest first, and `raw` the one that the source gave (R215, R228, R229). -/
def Core.h4Sent (c : Core) (g s n : Nat) (raw : Byte) (h : List Byte) : Byte :=
  let d := (c.group g).eff
  let j := if gMode d then n % 16 else raw.toNat % 16
  let pk := n / 16
  let crc (old : Nat) : Nat := crcHo (((h.drop old).take 14).map hi4).reverse
  let f : Nat :=
    if j = 8 then crc 0 / 16
    else if j = 9 then crc 1 % 16
    else if (4 ≤ j ∧ j ≤ 7) ∨ j = 13 then 0
    else if !gMode d then raw.toNat / 16
    else match j with
      | 0 => pk / 16 % 16
      | 1 => pk % 16
      | 2 => c.ctrlSent g s
      | 3 => if gidBit (gLcas d) pk then 1 else 0
      | 10 => (c.mstSent g (pk % 32 * 8)).toNat / 16
      | 11 => (c.mstSent g (pk % 32 * 8)).toNat % 16
      | 12 => if c.rsAckSent g then 1 else 0
      | 14 => s / 16
      | _ => s % 16
  BitVec.ofNat 8 (f % 16 * 16 + j)

/-- Bit 2 of K4 at place `j` of the packet, `pk` the packet's number (Table 7-4). -/
def Core.k4Bit (c : Core) (g s j pk : Nat) (raw : Byte) (h : List Byte) : Bool :=
  let d := (c.group g).eff
  let top (v n b : Nat) : Bool := v / 2 ^ (n - 1 - b) % 2 = 1
  if 29 ≤ j then top (crcLo ((((h.drop (j - 29)).take 29).map fun (b : Byte) => b.getLsbD 6).reverse)) 3 (j - 29)
  else if 16 ≤ j ∧ j < 20 then false
  else if !gMode d then raw.getLsbD 6
  else if j < 5 then top (pk % 32) 5 j
  else if j < 11 then top s 6 (j - 5)
  else if j < 15 then top (c.ctrlSent g s) 4 (j - 11)
  else if j = 15 then gidBit (gLcas d) pk
  else if j = 20 then c.rsAckSent g
  else (c.mstSent g (pk % 8 * 8)).getLsbD (28 - j)

/-- K4 of block `n` of a slot: bit 1 carries the alignment signal and the extended label, bit 2 the packet (R215, R216). The place in the
multiframe of a FOLLOW slot is that of the byte relayed. -/
def Core.k4Sent (c : Core) (g s n label : Nat) (raw : Byte) (h : List Byte) : Byte :=
  let d := (c.group g).eff
  let x := c.slot (gFeed d) s
  let j := if gMode d then n % 32
    else ((((c.frame : Int) - x.depth - x.delay + 2) % 4096).toNat % 128) / 4
  let b1 := (decide (1 ≤ j) && decide (j ≤ 9)) || (decide (11 ≤ j) && decide (j < 19) && label / 2 ^ (18 - j) % 2 = 1)
  (if b1 then 0x80 else 0) ||| (if c.k4Bit g s j (n / 32) raw h then 0x40 else 0)

/-! ## Path overhead sent -/

/-- The transmit trace of an object; a buffer value below 384 is no buffer (R145, R150, R185). -/
def Core.traceFor (c : Core) (k : Nat) : List Byte :=
  let v := fld (c.trc (trib (k / 4) 1)) 13 13
  let len64 := bitOf (c.trc (trib (k / 4) 0)) 13
  let n := if len64 then 64 else 16
  if v < 384 then List.replicate n 0 else traceSent len64 (c.ttiBytes (v + (k % 4 - 1)) 0 n)

/-- The receive objects whose RDI and REI a transmit object carries: a Path its own, a Tributary those whose REV_IDX names it (R162). -/
def Core.backFrom (c : Core) (k : Nat) : List Nat :=
  if isPath (k / 4) then [k] else c.inService.filter fun j =>
    !isPath (j / 4) && c.received (j / 4) && fld (c.trc (trib (j / 4) 4)) 0 18 = k / 4

/-- RDI and REI sent, where the transmitting port's enables allow them (R162, R163, Table 5-21). Several receive objects for one Tributary are
not ruled on, and the REI is then a free value. -/
def Core.rdiSent (c : Core) (k : Nat) : Bool :=
  bitOf (c.rd (pe (c.portOf (k / 4)) 0x68)) (if isPath (k / 4) then 22 else 24) && (c.backFrom k).any fun j => (c.obj j).txRdi
def Core.reiSent (c : Core) (k : Nat) : Nat :=
  if !bitOf (c.rd (pe (c.portOf (k / 4)) 0x68)) (if isPath (k / 4) then 23 else 25) then 0
  else match c.backFrom k with
    | [] => 0
    | [j] => (c.obj j).txRei
    | _ => Config.freeNat (c.freeCtr + k) % (if c.isTu (k / 4) then 2 else 9)

/-- What an object sends in the running frame but for its bytes: path overhead inserted, an empty place's zeros, a pattern. -/
structure VcMode where
  term : Bool
  fill : Bool
  slot : Option (Nat × Nat)
  /-- The Path carries a TU multiframe (R128). -/
  mf : Bool
  label : Nat

/-- The path overhead byte at a place of the VC (Tables 5-3, 5-4). An unequipped VC holds only its parity (R197). H4 of a Path with TU
multiframe gives the phase of the next VC in its last two bits, the others one (G.707: PRESUMED). -/
def Core.pohSent (c : Core) (k o : Nat) (m : VcMode) (raw : Byte) (x : TxVc) : Byte :=
  let q := o / c.pohStep k
  let n := x.blk.getD 0
  let trace := x.trace.getD (n % x.trace.length) 0
  if c.isTu (k / 4) then
    let bip := BitVec.ofNat 8 (bip2 x.bip * 64)
    if m.fill then (if q = 0 then bip else 0)
    else match q with
      | 0 => bip ||| (if x.rei = 0 then 0 else 0x20) ||| BitVec.ofNat 8 (2 * (if m.slot.isSome then 5 else m.label % 8)) |||
          (if c.rdiSent k then 1 else 0)
      | 1 => trace
      | 2 => 0
      | _ => match m.slot with | some g => c.k4Sent g.1 g.2 n m.label raw x.hist | none => 0
  else if m.fill then (if q = 1 then x.bip else 0)
  else match q with
    | 0 => trace
    | 1 => x.bip
    | 2 => BitVec.ofNat 8 m.label
    | 3 => BitVec.ofNat 8 (x.rei * 16) ||| (if c.rdiSent k then 8 else 0)
    | 5 => match m.slot with
        | some g => c.h4Sent g.1 g.2 n raw x.hist
        | none => if m.mf then BitVec.ofNat 8 (0xFC + n % 4) else 0
    | _ => 0

/-- A VC begins: its number follows the last one's, parity of the last one is closed, and REI and, once a trace is through, the trace are
taken (R141, R146). The number after an interruption is the frame's, or the multiframe's. -/
def Core.vcBegin (c : Core) (k : Nat) (x : TxVc) : TxVc :=
  let n := match x.blk with | some b => b + 1 | none => if c.isTu (k / 4) then c.frame / 4 else c.frame
  { x with bip := x.acc, acc := 0, blk := some n, rei := c.reiSent k
           trace := if x.trace = [] ∨ n % x.trace.length = 0 then c.traceFor k else x.trace }

/-- The pair whose generator runs on an object. -/
def Core.generator (c : Core) (k : Nat) : Option Nat :=
  (List.range 64).find? fun j => bitOf (c.trd (prbs j 4)) 1 && okey (c.genKey j).1 (c.genKey j).2 = k

/-- Eight bits of a generator: its pattern, inverted with GEN_INV, with one bit in 10^k inverted by ERR_RATE, and the first one after SINGLE
(R201, R203). -/
def patByte (code : Nat) (inv : Bool) (rate : Nat) (single : Bool) (x : Prbs) (reg : Nat) : Byte × Prbs :=
  let r := (List.range 8).foldl (fun (q : List Bool × Nat × Nat) i =>
    let b := patNext code q.2.1
    let err := (rate ≠ 0 && (q.2.2 + 1) % 10 ^ rate = 0) != (single && i = 0)
    (q.1 ++ [(b.1 != inv) != err], b.2, q.2.2 + 1)) ([], reg, x.genN)
  (BitVec.ofNat 8 (bitsNat r.1), { x with gen := some r.2.1, genN := r.2.2, done := x.done || single })

/-- ERR_RATE as it acts (Table 6-9). -/
def errRate (v : Nat) : Nat := if v = 0 then 0 else clamp 3 9 v

/-- One byte of an object composed: path overhead and pattern in their places. A generator starts with the first VC that begins once it
is active (R203). -/
def Core.composeByte (c : Core) (k : Nat) (m : VcMode) (gen : Option Nat) (q : TxVc × Prbs × List Byte) (ob : Nat × Byte) :
    TxVc × Prbs × List Byte :=
  let x := if ob.1 = 0 then c.vcBegin k q.1 else q.1
  let g := if ob.1 = 0 ∧ gen.isSome ∧ q.2.1.gen.isNone then { q.2.1 with gen := some (2 ^ 31 - 1), genN := 0 } else q.2.1
  let poh := c.isPoh k ob.1
  let (b, g) : Byte × Prbs :=
    if poh then (if m.term then c.pohSent k ob.1 m ob.2 x else ob.2, g)
    else match gen, g.gen with
      | some j, some reg =>
        let w := c.trd (prbs j 0)
        let w3 := c.trd (prbs j 3)
        patByte (fld w 2 3) (bitOf w 5) (errRate (fld w3 4 4)) (bitOf w3 1 && !g.done) g (reg % 2 ^ (patTaps (fld w 2 3)).1)
      | _, _ => (ob.2, g)
  let kept := if poh ∧ ob.1 / c.pohStep k = (if c.isTu (k / 4) then 3 else 5) then (b :: x.hist).take 32 else x.hist
  ({ x with acc := x.acc ^^^ b, hist := kept }, g, q.2.2 ++ [b])

/-! ## Elastic stores of the transmit side -/

/-- A frame's worth of a VC-3 in an AU-3: fixed stuff in front of columns 30 and 59 of 87 (G.707). -/
def stuffAu3 (phase : Nat) (bs : List Byte) : List Byte × Nat :=
  let col j := (phase + j) % 85
  let at_ := phase % 765
  (bs.zipIdx.flatMap fun q => if col q.2 = 29 ∨ col q.2 = 57 then [0, q.1] else [q.1],
    at_ / 85 * 87 + at_ % 85 + (if at_ % 85 > 29 then 1 else 0) + (if at_ % 85 > 57 then 1 else 0))

/-- `n` bytes taken; where the store holds too few, one whole container of `len` bytes is left out instead. -/
def TxVc.fetch (x : TxVc) (n len : Nat) : List Byte × TxVc :=
  let rep := min x.gap n
  let got := min (n - rep) x.out.length
  let short := n - rep - got
  (((x.out ++ List.replicate rep 0).take rep) ++ x.out.take got ++ List.replicate short 0,
    { x with out := x.out.drop got, head := (x.head + got) % len
             gap := x.gap - rep + (if short = 0 then 0 else len - short % len) })

/-- The store brought to the byte at place `want` of the container: bytes are lost, or the next ones repeated (R195). -/
def TxVc.align (x : TxVc) (want len : Nat) : TxVc :=
  let d := (want + x.gap + len - x.head % len) % len
  if d = 0 then x
  else if 2 * d ≤ len ∧ d ≤ x.out.length then { x with out := x.out.drop d, head := (x.head + d) % len }
  else { x with gap := x.gap + (len - d) }

/-- The place in the container of the byte at a pointer position, counted from the byte after H3 or V3. -/
def placeOf (pos : Int) (v u len : Nat) : Nat := ((pos - (v * u : Nat)) % (len : Int)).toNat

/-- The pointer that the generator made last is taken for the block about to be sent. -/
def TxVc.latch (x : TxVc) (word : BitVec 16) (v : Nat) : TxVc := { x with word := word, val := v, adj := x.just, just := 0 }

/-- One frame of a container with H1–H3: the bytes before its pointer position 0, those in H3, and those after, with units of `u` bytes; an
increment leaves the bytes after H3 empty, a decrement uses H3 (R194). -/
def TxVc.block (x : TxVc) (u len before after : Nat) : (List Byte × List Byte × List Byte) × TxVc :=
  let p := x.fetch before len
  let y := p.2.align (placeOf p.2.adj p.2.val u len) len
  let q := y.fetch (((after : Int) - y.adj).toNat) len
  let z := { q.2 with adj := 0 }
  if 0 < y.adj then ((p.1, List.replicate u 0, List.replicate u 0 ++ q.1), z)
  else if y.adj < 0 then ((p.1, q.1.take u, q.1.drop u), z)
  else ((p.1, List.replicate u 0, q.1), z)

/-- High and low byte of a pointer word. -/
def hiByte (w : BitVec 16) : Byte := w.extractLsb' 8 8
def loByte (w : BitVec 16) : Byte := w.extractLsb' 0 8

/-- Frame `t` of the TU multiframe of a TU-11, TU-12 or TU-2: one of V1 to V4, then a quarter of the VC. -/
def TxVc.tuFrame (x : TxVc) (word : BitVec 16) (v len t : Nat) : List Byte × TxVc :=
  let q := len / 4
  match t with
  | 0 => let y := x.latch word v; let r := y.fetch q len; (hiByte y.word :: r.1, r.2)
  | 1 => let r := (x.align (placeOf x.adj x.val 1 len) len).fetch q len; (loByte x.word :: r.1, r.2)
  | 2 =>
    if x.adj < 0 then let r := x.fetch (q + 1) len; (r.1, { r.2 with adj := 0 })
    else if 0 < x.adj then let r := x.fetch (q - 1) len; (0 :: 0 :: r.1, { r.2 with adj := 0 })
    else let r := x.fetch q len; (0 :: r.1, r.2)
  | _ => let r := x.fetch q len; (0 :: r.1, r.2)

/-! ## Tributaries in a Path (R197, R198) -/

/-- Columns of a TU in its TUG-2, and the TUs of a TUG-2, by TYPE. -/
def tuCols (t : Nat) : Nat := match t with | 8 => 3 | 9 => 4 | _ => 12
def tuCount (t : Nat) : Nat := match t with | 8 => 4 | 9 => 3 | _ => 1

/-- The TYPE that DEF_TU gives empty TUG-2s (Table 6-5). -/
def Core.defTu (c : Core) (i : Nat) : Nat := match fld (c.trc (trib i 0)) 8 2 with | 1 => 8 | 2 => 10 | _ => 9

/-- A place in a Path object: TUG-3, TUG-2 and TU as one number. -/
def placeNo (g3 g2 tu : Nat) : Nat := g3 * 64 + g2 * 8 + tu

/-- The transmit Tributaries in service in a Path object, with their places. -/
def Core.tribsOf (c : Core) (k : Nat) : List (Nat × Nat × Nat × Nat) :=
  ((c.inPath k).filter fun j => !c.received (j / 4)).map fun j =>
    let (_, g3, g2, tu, _) := c.place (j / 4)
    (j, g3, g2, tu)

/-- One frame of a Tributary that is in service; under its AIS mark all is ones (R199). -/
def Core.tribFrame (c : Core) (j t : Nat) : Core × List Byte :=
  let x := c.obj j
  let n := c.vcLen j
  if c.ttype (j / 4) = 11 then
    if x.gHeld then (c, List.replicate 774 0xFF)
    else
      let r := (x.tx.latch x.gOut x.gVal).block 1 765 170 595
      let pay := r.1.1 ++ r.1.2.2
      (c.setObj j { x with tx := r.2 }, (List.range 9).flatMap fun row =>
        (match row with | 0 => hiByte r.2.word | 1 => loByte r.2.word | 2 => r.1.2.1.getD 0 0 | _ => 0) :: (pay.drop (85 * row)).take 85)
  else if x.gHeld then (c, List.replicate (n / 4 + 1) 0xFF)
  else
    let r := x.tx.tuFrame x.gOut x.gVal n t
    (c.setObj j { x with tx := r.2 }, r.1)

/-- One frame of an empty TU of a Path object: an unequipped VC under pointer 0, with NDF in its first block (R197). -/
def Core.emptyTu (c : Core) (k place ty t : Nat) : Core × List Byte :=
  let key := k * 256 + place
  let n : Nat := Sparse.get (fun _ => 0) c.rsvS.fills key
  let n := if t = 0 then min 2 (n + 1) else n
  let w := if n = 0 then 0 else ptrWord (n = 1) (c.txSs (k / 256)) 0
  ({ c with rsvS := { c.rsvS with fills := Sparse.put (fun _ => 0) c.rsvS.fills key n } },
    (match t with | 0 => hiByte w | 1 => loByte w | _ => 0) :: List.replicate (9 * tuCols ty - 1) 0)

/-- The frames of every TU of TUG-2 `g2`: their TYPE is that of the transmit Tributaries in it, else DEF_TU (R197). -/
def Core.tug2 (c : Core) (k g3 g2 t : Nat) (ts : List (Nat × Nat × Nat × Nat)) : Core × Nat × List (List Byte) :=
  let mine := ts.filter fun q => q.2.1 = g3 && q.2.2.1 = g2
  let ty := match mine with | q :: _ => c.ttype (q.1 / 4) | [] => c.defTu (k / 4)
  let r := (List.range (tuCount ty)).foldl (fun (a : Core × List (List Byte)) u =>
    let place := placeNo g3 g2 (u + 1)
    let q := match mine.find? (·.2.2.2 = u + 1) with
      | some q =>
        let r := a.1.tribFrame q.1 t
        ({ r.1 with rsvS := { r.1.rsvS with fills := Sparse.drop (k * 256 + place) r.1.rsvS.fills } }, r.2)
      | none => a.1.emptyTu k place ty t
    (q.1, a.2 ++ [q.2])) (c, [])
  (r.1, ty, r.2)

/-- Byte of a TUG-2 at row `r`, column `j` of 12: its TUs' columns in turn. -/
def tug2At (q : Nat × List (List Byte)) (r j : Nat) : Byte :=
  let n := tuCount q.1
  (q.2.getD (j % n) []).getD (r * tuCols q.1 + j / n) 0

/-- Seven TUG-2s of a Path object. -/
def Core.tug2s (c : Core) (k g3 t : Nat) (ts : List (Nat × Nat × Nat × Nat)) : Core × List (Nat × List (List Byte)) :=
  (List.range 7).foldl (fun (a : Core × List (Nat × List (List Byte))) g =>
    let r := a.1.tug2 k g3 (g + 1) t ts
    (r.1, a.2 ++ [r.2])) (c, [])

/-- A TUG-3, 86 columns of 9 rows: a TU-3, or two columns of stuff, whose first rows carry the null pointer indication, and seven TUG-2s. -/
def Core.tug3 (c : Core) (k g3 t : Nat) (ts : List (Nat × Nat × Nat × Nat)) : Core × List Byte :=
  match ts.find? fun q => q.2.1 = g3 && c.ttype (q.1 / 4) = 11 with
  | some q => c.tribFrame q.1 t
  | none =>
    let r := c.tug2s k g3 t ts
    (r.1, (List.range 9).flatMap fun row => (List.range 86).map fun j =>
      if j = 0 then (match row with | 0 => 0x9B | 1 => 0xE0 | _ => 0) else if j = 1 then 0
      else tug2At (r.2.getD ((j - 2) % 7) (9, [])) row ((j - 2) / 7))

/-- The VC of a Path object built from its Tributaries, path overhead still zero; `n` is its number, and H4 of the VC before named its place in
the TU multiframe. -/
def Core.builtVc (c : Core) (k n : Nat) : Core × List Byte :=
  let ts := c.tribsOf k
  let t := (n + 3) % 4
  if c.ttype (k / 4) = 1 then
    let r := [1, 2, 3].foldl (fun (a : Core × List (List Byte)) g => let q := a.1.tug3 k g t ts; (q.1, a.2 ++ [q.2])) (c, [])
    (r.1, (List.range 9).flatMap fun row => (List.range 261).map fun j =>
      if j < 3 then 0 else (r.2.getD ((j - 3) % 3) []).getD (86 * row + (j - 3) / 3) 0)
  else
    let r := c.tug2s k (k % 4) t ts
    (r.1, (List.range 9).flatMap fun row => (List.range 85).map fun j =>
      if j = 0 then 0 else tug2At (r.2.getD ((j - 1) % 7) (9, [])) row ((j - 1) / 7))

/-! ## Objects (R138, R197–R199, R203) -/

/-- What one transmit object sends in the frame that ends, and its elastic store after it. Under the AIS mark every byte is ones, a pattern
generator's too (DEDUCED from R199); a generator runs in a filled place. -/
def Core.sendObj (c : Core) (s : Sent) : Core × Sent :=
  let k := s.key
  let n := c.vcLen k
  let mean := c.bytesOf k
  if s.ais then
    (c.updObj k fun x => { x with tx := { x.tx with acc := 0, bip := 0, blk := none, rei := 0, hist := [], trace := [], out := [], gap := 0 } },
      { s with bytes := List.replicate mean (none, 0xFF) })
  else
    let built := c.built k
    let (c, raw, phase) : Core × List Byte × Nat :=
      if built then
        let b := c.builtVc k (match (c.obj k).tx.blk with | some b => b + 1 | none => c.frame)
        (b.1, b.2, 0)
      else if s.bytes = [] then (c, List.replicate mean 0, s.phase)
      else (c, s.bytes.map (·.2), s.phase)
    let gen := c.generator k
    let fill := !built && s.bytes = [] && gen.isNone
    let w0 := c.trc (trib (k / 4) 0)
    let slot := if fill then none else c.slotFor k
    let m : VcMode := { term := s.term || fill || gen.isSome, fill := fill, slot := slot, mf := built
                        label := if c.isTu (k / 4) && slot.isNone then fld w0 24 3 else fld w0 24 8 }
    let pat := match gen with | some j => c.pat j | none => {}
    let r := (raw.zipIdx.map fun b => ((phase + b.2) % n, b.1)).foldl (c.composeByte k m gen) ((c.obj k).tx, pat, [])
    let c := match gen with | some j => c.setPat j r.2.1 | none => c
    let au3 := isPath (k / 4) && k % 4 ≠ 0
    let e := if au3 then stuffAu3 phase r.2.2 else (r.2.2, phase)
    let tx := { r.1 with out := r.1.out ++ e.1, head := if r.1.out = [] then e.2 else r.1.head }
    (c.updObj k fun x => { x with tx := tx }, { s with bytes := r.2.2.map fun b => (none, b), phase := phase })

/-- A generator that does not run has no pattern (R203). -/
def Core.patStop (c : Core) : Core :=
  forN 64 (fun j c => if bitOf (c.trd (prbs j 4)) 1 || (c.pat j).gen.isNone then c else c.setPat j { c.pat j with gen := none, genN := 0 }) c

/-! ## AUs and STM-N frames -/

/-- The nine bytes of an AU-4 pointer: H1, Y, Y, H2, 1, 1 and three H3. -/
def au4Ptr (ss : Nat) (w : BitVec 16) (h3 : List Byte) : List Byte :=
  let y : Byte := BitVec.ofNat 8 (0x93 + ss * 4)
  [hiByte w, y, y, loByte w, 0xFF, 0xFF, h3.getD 0 0, h3.getD 1 0, h3.getD 2 0]

/-- An AUG-1 on transmit: its pointer bytes and its nine rows of 261. -/
abbrev Aug := List Byte × List Byte

/-- All ones: AU-AIS. -/
def augAis : Aug := (List.replicate 9 0xFF, List.replicate 2349 0xFF)

/-- The AUG-1s of a VC-4 or VC-4-Xc at position `i`; continuation positions send CI (R200). -/
def Core.augConc (c : Core) (i x : Nat) : Core × List Aug :=
  let k := okey i 0
  let o := c.obj k
  if o.gHeld then (c, List.replicate x augAis)
  else
    let r := (o.tx.latch o.gOut o.gVal).block (3 * x) (2349 * x) (783 * x) (1566 * x)
    let pay := r.1.1 ++ r.1.2.2
    let ss := c.txSs (i / 64)
    (c.setObj k { o with tx := r.2 }, (List.range x).map fun e =>
      (au4Ptr ss (if e = 0 then r.2.word else ptrWord true ss 1023) ((List.range 3).map fun a => r.1.2.1.getD (a * x + e) 0),
       (List.range 2349).map fun b => pay.getD (b * x + e) 0))

/-- The AUG-1 of an AU-3 position: three AU-3s byte by byte. -/
def Core.augAu3 (c : Core) (i : Nat) : Core × List Aug :=
  let r := [1, 2, 3].foldl (fun (a : Core × List (List Byte × List Byte)) e =>
    let k := okey i e
    let o := a.1.obj k
    if o.gHeld then (a.1, a.2 ++ [([0xFF, 0xFF, 0xFF], List.replicate 783 0xFF)])
    else
      let q := (o.tx.latch o.gOut o.gVal).block 1 783 261 522
      (a.1.setObj k { o with tx := q.2 },
        a.2 ++ [([hiByte q.2.word, loByte q.2.word, q.1.2.1.getD 0 0], q.1.1 ++ q.1.2.2)])) (c, [])
  (r.1, [((List.range 9).map fun b => (r.2.getD (b % 3) ([], [])).1.getD (b / 3) 0,
    (List.range 2349).map fun b => (r.2.getD (b % 261 % 3) ([], [])).2.getD (b / 261 * 87 + b % 261 / 3) 0)])

/-- An empty position: an unequipped VC-4 under pointer 0, or AU-AIS (R197). -/
def Core.augEmpty (c : Core) (i : Nat) : Aug :=
  if c.gb (pe (i / 64) 0x64) 16 then augAis
  else (au4Ptr (c.txSs (i / 64)) (c.fillWord (okey i 0)) [], List.replicate 2349 0)

/-- The AUG-1s of a port's positions, from `a` on. -/
def Core.augs (c : Core) (q n : Nat) : Nat → Nat → Core × List Aug
  | 0, _ => (c, [])
  | fuel + 1, a =>
    if n ≤ a then (c, [])
    else
      let i := q * 64 + a
      let live := c.tvalid i && !c.unused i && ((c.obj (okey i 0)).svc || (c.obj (okey i 1)).svc)
      let r : Core × List Aug :=
        if live && c.ttype i = 2 then c.augAu3 i
        else if live && (c.ttype i = 1 || decide (1 < concX (c.ttype i))) then c.augConc i (concX (c.ttype i))
        else (c, [c.augEmpty i])
      let s := r.1.augs q n fuel (a + max 1 r.2.length)
      (s.1, r.2 ++ s.2)

/-- The port whose payload a port sends: that of WPORT on a PPORT, whose bridge is permanent (R298). -/
def Core.payPort (c : Core) (p : Nat) : Nat :=
  match (List.range 48).find? fun k => mspV (c.mspEff k) && mspP (c.mspEff k) = p with | some k => mspW (c.mspEff k) | none => p

/-- The J0 byte: from the transmit buffer, or 0x01 (R150). -/
def Core.j0Sent (c : Core) (p : Nat) (x : PortTx) : PortTx × Byte :=
  if c.gb (pe p 0x54) 2 then
    let len64 := c.gb (pe p 0x54) 1
    let n := if len64 then 64 else 16
    let tr := if x.j0.length ≠ n ∨ x.stm % n = 0 then traceSent len64 (c.ttiBytes (96 + p) 0 n) else x.j0
    ({ x with j0 := tr }, tr.getD (x.stm % n) 0)
  else ({ x with j0 := [] }, 1)

/-- The STM-N frame that a port sends with its AUG-1s: section overhead, pointers and payload, scrambled (R118, R138). -/
def Core.stmSend (c : Core) (p n : Nat) (augs : List Aug) : Core × List Byte :=
  let rs := c.dccTake p false
  let ms := rs.1.dccTake p true
  let c := ms.1
  let x := (c.port p).tx
  let j0 := c.j0Sent p x
  let flip (b : Nat) (l : List Byte) : List Byte := invert (c.gb (pe p 0x64) b) l
  let h : StmOh := {
    j0 := j0.2, b1 := (flip 10 [x.b1]).headD 0, b2 := flip 11 ((x.b2 ++ List.replicate (3 * n) 0).take (3 * n))
    k1 := x.k1, k2 := (x.k2 &&& 0xF8) ||| (if x.msRdi then 6 else x.k2 &&& 7), s1 := x.s1 &&& 0xF, rei := x.msRei
    rs := rs.2, ms := ms.2, ais := x.msAis }
  let f := stmFrame n h (fun j => (augs.getD (j % n) augAis).1.getD (j / n) 0)
    (fun r j => (augs.getD (j % n) augAis).2.getD (261 * r + j / n) 0)
  let out := scrambleStm n f
  (c.updPort p fun y => { y with tx := { j0.1 with b1 := bip8 out, b2 := bip24 n f, stm := x.stm + 1 } }, out)

/-! ## OTU frames -/

/-- One OTU frame with the client bytes that are due, and the transmit side after it (R119, R124, R125, R150, R162, Table 5-5). -/
def Core.otuSend (c : Core) (p : Nat) (otu2 : Bool) (x : PortTx) : PortTx × List Byte :=
  let mf := x.otu % 256
  let tr := if x.sm.length ≠ 64 ∨ x.otu % 64 = 0 then c.ttiBytes (288 + p) 0 64 else x.sm
  let tti : Byte := if c.gb (pe p 0x54) 7 then tr.getD (x.otu % 64) 0 else 0
  let bip : Byte := match x.bips with | [_, b] => b | _ => 0
  let sm3 := BitVec.ofNat 8 (x.smBei * 16 + (if x.smBdi then 8 else 0))
  let pm3 := BitVec.ofNat 8 (x.pmBei * 16 + (if x.pmBdi then 8 else 0) + 1)
  let pt : Byte := if mf ≠ 0 then 0 else if c.gb (pe p 0x50) 30 then 3 else 2
  let room := opuRoom otu2
  let f := otuFrame otu2 (c.gb (pe p 0x4C) 31) { mfas := mf, sm := [tti, bip, sm3], pm := [0, bip, pm3], psi := pt } (x.client.take room)
  ({ x with otu := x.otu + 1, sm := tr, client := x.client.drop room, bips := (bip8 (opuArea (scrambleOtu f)) :: x.bips).take 2 }, f)

/-- Every OTU frame for which the client has bytes. -/
def Core.otuSends (c : Core) (p : Nat) (otu2 : Bool) : Nat → PortTx → PortTx × List (List Byte)
  | 0, x => (x, [])
  | fuel + 1, x =>
    if x.client.length < opuRoom otu2 then (x, [])
    else
      let r := c.otuSend p otu2 x
      let s := c.otuSends p otu2 fuel r.1
      (s.1, r.2 :: s.2)

/-! ## Ports -/

/-- The line frames that a port originates in the frame that ends, as they would be driven on the pins (R78, R81, R118, R119). -/
def Core.originate (c : Core) (p : Nat) (augs : List Aug) : Core × List (List Byte) :=
  let r := (c.port p).txRate
  let f := c.stmSend p (rateN r) augs
  let inv := c.gb (pe p 0x40) 1
  if isOtu r then
    let x := (f.1.port p).tx
    let q := f.1.otuSends p (r = 6) 16 { x with client := x.client ++ f.2 }
    (f.1.updPort p fun y => { y with tx := q.1 }, q.2.map (invert inv))
  else (f.1, [invert inv f.2])

/-- What a port sends in the frame that ends: in line loopback what it received, else what it originates, where its lane is active; in internal
loopback that is what it receives (R79–R81). -/
def Core.portSend (c : Core) (p : Nat) (augs : List Aug) : Core :=
  let x := c.port p
  let active := c.gb (pe p 0x200) 6
  if c.en (0x20 + p) && c.gf (pe p 0x40) 2 2 = 3 then
    c.setPort p { x with heard := []
                         tx := { x.tx with out := if active then x.heard.map (invert (c.rxInv p != c.gb (pe p 0x40) 1)) else [] } }
  else if x.txRate = 0 ∨ x.txSettle ≠ 0 then c.setPort p { x with heard := [], tx := { x.tx with out := [], loop := [] } }
  else
    let r := c.originate p augs
    r.1.updPort p fun y => { y with
      heard := [], tx := { y.tx with out := if active then r.2 else [], loop := if r.1.loopInt p then r.2 else [] } }

/-- The AUGs of every port that originates frames, each port's own once. -/
def Core.allAugs (c : Core) : Core × List (Nat × List Aug) :=
  let ps := (((List.range 96).filter fun q => (c.port q).txRate ≠ 0).map c.payPort).eraseDups
  ps.foldl (fun (a : Core × List (Nat × List Aug)) p =>
    let r := a.1.augs p (rateN (if (a.1.port p).txRate = 0 then a.1.rate p else (a.1.port p).txRate)) 64 0
    (r.1, a.2 ++ [(p, r.2)])) (c, [])

/-- Everything that the transmit side sends in the frame that ends: Tributaries, then the Paths that may hold them, then the ports. -/
def Core.sendAll (c : Core) : Core :=
  let one (a : Core × List Sent) (s : Sent) : Core × List Sent := let r := a.1.sendObj s; (r.1, a.2 ++ [r.2])
  let c := c.patStop
  let lo := (c.rsvS.sent.filter fun s => !isPath (s.key / 4)).foldl one (c, [])
  let hi := (c.rsvS.sent.filter fun s => isPath (s.key / 4)).foldl one lo
  let c := { hi.1 with rsvS := { hi.1.rsvS with out := hi.2 } }
  let a := c.allAugs
  forN 96 (fun p c =>
    if c.port p = {} then c
    else c.portSend p (match a.2.find? (·.1 = a.1.payPort p) with | some q => q.2 | none => [])) a.1

end Sys2Proof.Machine
end

