-- ==== Sys2Proof/Machine/Protection.lean ====
section
/-! DEFINITION. SNCP and MSP selectors, alignment of the copies, external commands, the mate, and the boundary at which a
commit is taken (Protection Switching: the Sluice and the Mate; The Reservoir, R260). -/

namespace Sys2Proof.Machine

/-! ## Conditions (R281, R300) -/

/-- SF of a copy (R281). -/
def Core.copySf (c : Core) (k : Nat) (sncN : Bool) : Bool :=
  let x := c.obj k
  let p := c.rxPort (k / 4)
  let cq := c.rd (pe p 0x68)
  let own := x.reported
  let isOwn (d : Defect) : Bool := own.contains d
  let loud : List Defect := [.hpUneq, .lpUneq, .hpTim, .lpTim, .hpExc, .lpExc]
  let srv : List Defect := [.auAis, .auLop, .tuAis, .tuLop, .tuLom]
  !x.svc || !c.en (0x20 + p) || c.gb (pe p 0x70) 1 ||
    (if sncN then c.objSf k || own.any loud.contains
     else (c.governs k).any fun d => d.fails cq && (!isOwn d || srv.contains d))

/-- SD of a copy: a DEG reported on it or on what contains it. -/
def Core.copyDeg (c : Core) (k : Nat) : Bool := (c.governs k).any (·.isDeg)

/-- The four conditions of an SNCP pair. -/
def Core.pairCond (c : Core) (n : Nat) : List Bool :=
  let p := c.mapsNow.p
  let w0 := c.trd (pmap p n 0)
  let one (prot : Bool) : List Bool :=
    let k := c.copyKey p n prot
    let sf := c.copySf k (bitOf w0 1)
    [sf, bitOf w0 3 && !sf && c.copyDeg k]
  one false ++ one true

def Core.msp (c : Core) (k : Nat) : Msp := Sparse.get (fun _ => {}) c.sluS.msp k
def Core.setMsp (c : Core) (k : Nat) (x : Msp) : Core :=
  { c with sluS := { c.sluS with msp := Sparse.put (fun _ => {}) c.sluS.msp k x } }

/-- The two ports of an MSP pair run at different sensed rates (R300). -/
def Core.rateMm (c : Core) (w : Word) : Bool :=
  let a := c.rate (mspW w)
  let b := c.rate (mspP w)
  a ≠ 0 && b ≠ 0 && a ≠ b

/-- The four conditions of an MSP pair. -/
def Core.mspCond (c : Core) (w : Word) : List Bool :=
  let one (p : Nat) : List Bool :=
    let rep := (c.port p).reported
    let sf := c.portSf p || rep.contains .msExc || c.rateMm w
    [sf, bitOf w 17 && !sf && rep.contains .msDeg]
  one (mspW w) ++ one (mspP w)

/-! ## Selectors (R288–R292, Table 9-4) -/

/-- What a selector is set up with: REVERT, hold-off and WTR in frames, and whether a confirmed offset is needed for the
changes R292 defers. -/
structure SelCfg where
  revert : Bool
  hold : Nat
  wtr : Nat
  defer : Bool

def Core.pairCfg (c : Core) (n : Nat) : SelCfg :=
  let p := c.mapsNow.p
  let w3 := c.trd (pmap p n 3)
  { revert := bitOf (c.trd (pmap p n 0)) 2, hold := min 100 (fld w3 0 7) * 800, wtr := fld w3 7 10 * 8000, defer := true }
def mspCfg (w : Word) : SelCfg :=
  { revert := bitOf w 16, hold := min 100 (fld w 18 7) * 800
    wtr := (if fld w 25 7 = 0 then 30 else fld w 25 7) * 80000, defer := false }

/-- The highest request in force, as SLU_PS_STAT.REQ (Table 9-4). -/
def Pair.highest (x : Pair) : Nat :=
  let r (i : Nat) := x.raised.getD i false
  if x.cmd = 1 then 10 else if x.cmd = 2 then 9 else if x.cmd = 3 then 8
  else if r 2 then 7 else if r 0 then 6 else if r 3 then 5 else if r 1 then 4
  else if x.cmd = 4 then 3 else if x.cmd = 5 then 2 else if x.wtr.isSome then 1 else 0

/-- The copy a request selects: true = P. -/
def Pair.choice (x : Pair) (revert : Bool) (req : Nat) : Bool :=
  match req with
  | 9 => true | 6 => true | 4 => true | 3 => true | 1 => true
  | 0 => if revert then false else x.next
  | _ => false

/-- The selector decides on its requests (R288, R292): the choice takes effect at the next boundary. -/
def Pair.settle (x : Pair) (g : SelCfg) : Pair :=
  let req := x.highest
  let want := x.choice g.revert req
  let soft := req = 3 || req = 2 || req = 1 || req = 0
  { x with req := req, next := if g.defer && soft && x.offset.isNone then x.next else want }

/-- The hold-off of a condition: the one in effect when the condition began (R295). -/
def Pair.holdOf (x : Pair) (g : SelCfg) (i : Nat) : Nat := x.holds.getD i g.hold

/-- Conditions taken at a boundary: hold-off runs, requests without hold-off are raised, WTR starts, runs and stops, an MS
falls (R289–R291). -/
def Pair.take (x : Pair) (g : SelCfg) (cond : List Bool) : Pair :=
  let held i := cond.getD i false
  let runs := (List.range 4).map fun i => if held i then x.runs.getD i 0 + 1 else 0
  let holds := (List.range 4).map fun i => if held i && x.runs.getD i 0 != 0 then x.holdOf g i else g.hold
  let raised := (List.range 4).map fun i => held i && (x.raised.getD i false || holds.getD i 0 = 0)
  let was := x.raised.getD 0 false || x.raised.getD 1 false
  let now := raised.getD 0 false || raised.getD 1 false
  let onW := held 0 || held 1
  let ms := decide (4 ≤ x.cmd) && raised.any id
  let cmd := if ms then 0 else x.cmd
  let wtr := if !g.revert || onW then none
    else if was && !now && x.next then some g.wtr
    else x.wtr.map (· - 1)
  let y := { x with cond := cond, runs := runs, holds := holds, raised := raised, cmd := cmd, wtr := none }
  { y with wtr := if y.highest = 0 then wtr else none, dirty := x.dirty || ms }

/-- A hold-off ends while its condition holds (R289). `i` is 0 W_SF, 1 W_SD, 2 P_SF, 3 P_SD. -/
def Pair.holdEnd (x : Pair) (g : SelCfg) (i : Nat) : Pair :=
  if x.cond.getD i false && decide (x.holdOf g i < x.runs.getD i 0) then
    let y := { x with raised := (List.range 4).map fun j => x.raised.getD j false || decide (j = i) }
    let ms := decide (4 ≤ y.cmd)
    { y with cmd := if ms then 0 else y.cmd, wtr := none, dirty := y.dirty || ms }.settle g
  else x

/-- WTR ends (R290). -/
def Pair.wtrDone (x : Pair) (g : SelCfg) : Pair :=
  if x.wtr = some 0 then { x with wtr := none, dirty := true }.settle g else x

/-- An external command (R291): the new selector, or the cause of its refusal. -/
def Pair.command (x : Pair) (cmd : Nat) : Except Nat Pair :=
  let cls (k : Nat) := match k with | 1 => 3 | 2 => 2 | 3 => 2 | 4 => 1 | 5 => 1 | _ => 0
  if cmd = 0 then .ok { x with cmd := 0, wtr := none, dirty := true }
  else if cls cmd < cls x.cmd ∨ (cls cmd = 1 ∧ x.raised.any id = true) then .error 2
  else .ok { x with cmd := cmd, dirty := true }

/-! ## Alignment of the copies (R283–R285) -/

def Core.confN (c : Core) : Nat := max 1 (c.gf (slu 0x40) 0 3)
def Core.loseN (c : Core) : Nat := max 2 (c.gf (slu 0x40) 3 4)

/-- Markers run: the pair is aligned under, and neither copy is under SF. -/
def Pair.marking (x : Pair) : Bool := x.align ≠ 0 && !x.sf false && !x.sf true

/-- ALIGN set, with its event. -/
def Core.setAlign (c : Core) (n st : Nat) (f : Pair → Pair) : Core :=
  let x := c.pair n
  let c := c.setPair n { f x with align := st }
  if x.align = st then c else c.ev (slu 0x400) (bit 1)

/-- The signature of a VC frame (R283). -/
def sigOf (bs : List Byte) : Nat := crcOnes 32 0x04C11DB7 false bs

/-- The signatures of the VC frames that the copies of the pairs in effect completed in the frame that ends (R283); they are
recorded for the pairs whose markers run. -/
def Core.recordSigs (c : Core) : Core :=
  let p := c.mapsNow.p
  forL (c.pairsOf p) (fun n c =>
    let x := c.pair n
    let of_ (prot : Bool) := (c.obj (c.copyKey p n prot)).rx.done.map fun q => (sigOf q.1, q.2)
    if x.marking then c.setPair n { x with sigW := x.sigW ++ of_ false, sigP := x.sigP ++ of_ true } else c) c

/-- The oldest VC frame recorded for a copy: its signature is compared with the other copy's marker, and it becomes the copy's own
marker where none is in flight (R283, R284). -/
def Core.vcSignature (c : Core) (n : Nat) (prot : Bool) : Core :=
  let x := c.pair n
  match (if prot then x.sigP else x.sigW) with
  | [] => c
  | (sig, pos, at_) :: rest =>
    let x := if prot then { x with sigP := rest } else { x with sigW := rest }
    if !c.pairValid c.mapsNow.p n || !x.marking then c.setPair n x else
    let cmp (m : Option Marker) : Option Marker := m.map fun m =>
      if m.hit = none ∧ m.sig = sig ∧ m.frame ≤ at_ ∧ at_ ≤ m.frame + 1024 then
        { m with hit := some ((pos + 2 ^ 32 - m.pos) % 2 ^ 32, at_ - m.frame) } else m
    let new : Marker := { sig := sig, pos := pos, frame := at_ }
    c.setPair n (if prot then { x with markW := cmp x.markW, markP := some (x.markP.getD new) }
      else { x with markP := cmp x.markP, markW := some (x.markW.getD new) })

/-- Signatures recorded that no row has taken, in the order in which their VC frames began (R283, R284). -/
def Core.sigsDue (c : Core) : Core :=
  forL (c.pairsOf c.mapsNow.p) (fun n c =>
    forN ((c.pair n).sigW.length + (c.pair n).sigP.length) (fun _ c =>
      match (c.pair n).sigW, (c.pair n).sigP with
      | a :: _, b :: _ => c.vcSignature n (decide (b.2.2 < a.2.2))
      | [], _ :: _ => c.vcSignature n true
      | _, _ => c.vcSignature n false) c) c

/-- A marker that was lost, or that gave another offset (Table 9-3). -/
def Core.markerBad (c : Core) (n : Nat) : Core :=
  let x := c.pair n
  let m := x.missRun + 1
  if x.align = 1 then c.setPair n { x with candRun := 0, cand := none }
  else if c.loseN ≤ m then c.setAlign n 1 fun x => { x with offset := none, rd := none, rdNow := none, cand := none, candRun := 0, missRun := 0 }
  else c.setPair n { x with missRun := m, candRun := 0 }

/-- A marker's match is taken (R284, R285). -/
def Core.markerMatch (c : Core) (n : Nat) (prot : Bool) : Core :=
  let x := c.pair n
  match (if prot then x.markP else x.markW).bind (·.hit) with
  | none => c
  | some (off, skew) =>
    if !x.marking then c
    else
      let x := if prot then { x with markP := none } else { x with markW := none }
      let s := c.pairSkew c.mapsNow.p n
      let same := match x.cand with | some q => q.1 = off && q.2.1 = prot | none => false
      let run := if same then x.candRun + 1 else 1
      let y := { x with cand := some (off, prot, skew), candRun := run }
      let confirm (c : Core) : Core := c.setAlign n 2 fun x => { x with
        offset := some off, lead := prot, skew := skew, missRun := 0, candRun := 0
        rd := if x.offset = some off ∧ x.lead = prot then x.rd else none
        rdNow := if x.offset = some off ∧ x.lead = prot then x.rdNow else none }
      let c := c.setPair n y
      match x.align with
      | 1 =>
        if run < c.confN then c
        else if skew ≤ s then confirm c
        else c.setAlign n 3 fun x => { x with offset := none, rd := none, rdNow := none, lead := prot, skew := skew, missRun := 0, candRun := 0 }
      | 2 =>
        if x.offset = some off ∧ x.lead = prot then c.setPair n { y with missRun := 0, candRun := 0 } else c.markerBad n
      | _ =>
        if s < skew then (if same then c.setPair n { y with missRun := 0 } else c.markerBad n)
        else if c.confN ≤ run then confirm c else c

/-- A marker finds no equal signature within 1,024 frames (R284). -/
def Core.markerMiss (c : Core) (n : Nat) (prot : Bool) : Core :=
  let x := c.pair n
  match (if prot then x.markP else x.markW) with
  | some m =>
    if m.hit = none ∧ m.frame + 1024 < c.frame then
      (c.setPair n (if prot then { x with markP := none } else { x with markW := none })).markerBad n
    else c
  | none => c

/-! ## External commands (R291, R294, R309) -/

/-- The Warden writes SLU_XCMD with GO (R70, R291). -/
def Core.xcmdGo (c : Core) (w : Word) (left : Nat) (cmd : Option Nat) : Core :=
  if c.gb (slu 0xB04) 0 then c.ign (slu 0xB00) 8
  else
    let c := (c.wr (slu 0xB00) (w &&& 0xFFFDE)).sb (slu 0xB04) 0 true
    { c with sluS := { c.sluS with xcmd := some { w := w, skip := if left < 8 then 1 else 0, cmd := cmd } } }

/-- The command's evaluation at its boundary. -/
def Core.evalXcmd (c : Core) : Core :=
  match c.sluS.xcmd with
  | none => c
  | some q =>
    if 0 < q.skip then { c with sluS := { c.sluS with xcmd := some { q with skip := q.skip - 1 } } }
    else
      let c := { c with sluS := { c.sluS with xcmd := none } }
      let k := fld q.w 1 3
      let t := fld q.w 6 14
      let isMsp := bitOf q.w 4
      let effect := if isMsp then decide (t < 48) && mspV (c.mspEff t) else c.pairValid c.mapsNow.p t
      let x := if isMsp then (c.msp t).p else c.pair t
      let r : Except Nat Pair :=
        if !c.en 8 then .error 5 else if c.gf (slu 0x200) 0 3 = 2 then .error 3 else if 5 < k then .error 4
        else if !effect then .error 1 else x.command k
      let (c, res, cause) : Core × Nat × Nat := match r with
        | .ok y => (if isMsp then c.setMsp t { c.msp t with p := y } else c.setPair t y, 1, 0)
        | .error n => (c, 2, n)
      let c := (c.wr (slu 0xB04) (BitVec.ofNat 32 (res * 2 + cause * 16))).ev (slu 0x400) (bit 9)
      c.fixOpt q.cmd (if res = 1 then stOk else stRefused) (le 4 (c.rd (slu 0xB04)).toNat)

/-! ## SNCP pairs at a boundary -/

/-- ALIGN of a pair as an entry in effect names it or does not (Table 9-3). -/
def Core.nameAlign (c : Core) (named : List Nat) (n : Nat) : Core :=
  if !named.contains n then
    c.setAlign n 0 fun x => { x with
      offset := none, rd := none, rdNow := none, cand := none, candRun := 0, missRun := 0, markW := none, markP := none
      sigW := [], sigP := [], skew := 0, lead := false }
  else if (c.pair n).align = 0 then c.setAlign n 1 id
  else c

/-- One pair at a boundary (R285, R288–R292, R296): the selection decided before takes effect, the conditions are taken,
and the next selection is decided. `named` are the pairs that an entry in effect names. -/
def Core.pairFrame (c : Core) (named : List Nat) (n : Nat) : Core :=
  let x := c.pair n
  if c.rsvS.held.contains n then c.setPair n { x with next := x.sel }
  else
    let moved := c.en 8 && x.next != x.sel
    let c := c.setPair n { x with sel := x.next }
    let c := if moved then
        (((c.cn (slu 0x500) 1).ev (slu 0x400) (bit 0)).protNotice n x.next x.req)
      else c
    let g := c.pairCfg n
    let x := c.pair n
    let cond := c.pairCond n
    let inSf := cond.getD 0 false || cond.getD 2 false
    let left := (x.sf false && !cond.getD 0 false) || (x.sf true && !cond.getD 2 false)
    let y := (x.take g cond).settle g
    let y := if inSf then { y with markW := none, markP := none, sigW := [], sigP := [] } else y
    let c := (c.setPair n y).nameAlign named n
    if left && (c.pair n).align ≠ 0 then c.setAlign n 1 fun x => { x with cand := none, candRun := 0, missRun := 0 }
    else c

/-- Pairs named by an XMAP entry in effect (R282). -/
def Core.namedPairs (c : Core) : List Nat :=
  let m := c.mapsNow
  let cl := c.claims m
  c.txObjs.filterMap fun k => match c.xsrc m cl k with | some (.pair n) => some n | _ => none

/-- SLU_PS_STAT of a pair as it stands (Table 9-13). -/
def Core.psNow (c : Core) (n : Nat) : Word :=
  if !c.pairValid c.mapsNow.p n then 0
  else
    let x := c.pair n
    let b (k : Nat) (v : Bool) : Nat := if v then 2 ^ k else 0
    let holding := (List.range 4).any fun i => x.cond.getD i false && !x.raised.getD i false
    BitVec.ofNat 32 (x.req + b 4 (c.en 8 && x.sel) + x.align * 32 + b 7 x.lead + min 1023 x.skew * 256 + x.cmd * 2 ^ 18 +
      b 21 holding + b 22 x.wtr.isSome + b 23 (x.cond.getD 0 false) + b 24 (x.cond.getD 1 false) + b 25 (x.cond.getD 2 false) +
      b 26 (x.cond.getD 3 false) + b 27 x.offset.isSome + b 28 (c.rsvS.held.contains n))

/-- SLU_PS_STAT as it reads: the pair's state at the last boundary (R313). -/
def Core.psStat (c : Core) (n : Nat) : Word := if c.pairValid c.mapsNow.p n then (c.pair n).shown else 0

/-- SLU_PS_STAT of a pair latched at a boundary. -/
def Core.latchPair (c : Core) (n : Nat) : Core := c.setPair n { c.pair n with shown := c.psNow n }

/-- Every pair of the active plane, and SLU_NPAIR. The pairs of `all` are taken as at a boundary; of the others only what the map
names changes, as at a commit (R285, R295). -/
def Core.pairsFrame (c : Core) (all : Nat → Bool) : Core :=
  let ps := c.pairsOf c.mapsNow.p
  let named := c.namedPairs
  let c := forL ps (fun n c => (if all n then c.pairFrame named n else c.nameAlign named n).latchPair n) c
  let prot := (ps.filter fun n => c.en 8 && (c.pair n).sel).length
  let unal := (ps.filter fun n => (c.pair n).offset.isNone).length
  c.wr (slu 0x204) (BitVec.ofNat 32 (prot + unal * 65536))

/-- Every pair of the active plane at a boundary. -/
def Core.sncpFrame (c : Core) : Core := c.pairsFrame fun _ => true

/-! ## MSP pairs (R297–R303, Table 9-6) -/

/-- The local request as a K1 code, and its channel. -/
def Msp.localReq (x : Msp) (revert : Bool) : Nat × Nat :=
  match x.p.req with
  | 10 => (15, 0) | 9 => (14, 1) | 8 => (14, 0) | 7 => (12, 0) | 6 => (12, 1) | 5 => (10, 0) | 4 => (10, 1) | 3 => (8, 1)
  | 2 => (8, 0) | 1 => (6, 1)
  | _ => if !revert && x.p.next then (1, 1) else (0, 0)

/-- The far request a received K1 stands for. -/
def Msp.far (x : Msp) : Nat :=
  match x.k1.toNat / 16 with
  | 15 => 15 | 14 => 14 | 13 => 12 | 12 => 12 | 11 => 10 | 10 => 10 | 8 => 8 | 6 => 6 | 2 => 2 | 1 => 1 | _ => 0

/-- The governing choice of a bidirectional pair, and what it sends (R301, R302). -/
def Msp.govern (x : Msp) : Msp :=
  let w := x.eff
  let bi := bitOf w 15 && !x.psbf && !x.chMm && !x.modeMm
  let l := x.localReq (bitOf w 16)
  let farCh := x.k1.toNat % 16
  let rr := bi && (decide (l.1 < x.far) || (x.k1.toNat / 16 = 4 && decide (l.1 < 4)))
  let next := if bi && decide (l.1 < x.far) then decide (farCh = 1) else x.p.next
  let k1 := if rr then 32 + farCh else l.1 * 16 + l.2
  let k2 := (if bitOf w 15 then farCh else if l.1 = 15 then 0 else 1) * 16 + (if bitOf w 15 then 5 else 4)
  { x with p := { x.p with next := next }, tx1 := BitVec.ofNat 8 k1, tx2 := BitVec.ofNat 8 k2 }

/-- SLU_MSP_STk. -/
def Msp.stat (x : Msp) (on : Bool) : Word :=
  let b (k : Nat) (v : Bool) : Nat := if v then 2 ^ k else 0
  if !mspV x.eff then 0
  else
    let cnd i := x.p.cond.getD i false
    BitVec.ofNat 32 ((x.localReq (bitOf x.eff 16)).1 + x.far * 16 + b 8 (on && x.p.sel) + b 9 (cnd 0) + b 10 (cnd 1) + b 11 (cnd 2) +
      b 12 (cnd 3) + b 13 x.p.wtr.isSome + b 14 x.psbf + b 15 x.chMm + b 16 x.modeMm + b 17 x.rate + 2 ^ 18 + x.p.cmd * 2 ^ 19)

/-- The status register of an MSP pair, with the pair's change event. -/
def Core.showMsp (c : Core) (k : Nat) : Core :=
  let new := (c.msp k).stat (c.en 8)
  let old := c.rd (slu (0x280 + 4 * k))
  if old = new then c
  else ((c.wr (slu (0x280 + 4 * k)) new).ev (slu (0x408 + 4 * (k / 32))) (bit (k % 32))).ev (slu 0x400) (bit 2)

/-- An event bit of PE_APS_EV on both ports of a pair (Table 9-14). -/
def Core.apsEv (c : Core) (w : Word) (b : Nat) : Core := (c.ev (pe (mspW w) 0x410) (bit b)).ev (pe (mspP w) 0x410) (bit b)

/-- The K1 and K2 that a port in no MSP pair sends: 0 (R152). -/
def Core.plainK (c : Core) (p : Nat) : Core := c.updPort p fun x => { x with tx := { x.tx with k1 := 0, k2 := 0 } }

/-- One MSP pair at a boundary (R299–R303). -/
def Core.mspFrame (c : Core) (k : Nat) : Core :=
  let x := c.msp k
  let w := x.eff
  if !mspV w then c.showMsp k
  else
    let moved := c.en 8 && x.p.next != x.p.sel
    let c := if moved then
        ((((c.cn (slu 0x504) 1).apsEv w 1).protNotice (0xC000 + k) x.p.next x.p.req))
      else c
    let g := mspCfg w
    let rate := c.rateMm w
    let c := if rate = x.rate then c else c.apsEv w 5
    let pt := c.port (mspP w)
    let heard := decide (max 3 (c.gf (pe (mspP w) 0x50) 8 3) ≤ pt.kRun)
    let y := { x with
      p := ({ x.p with sel := x.p.next }.take g (c.mspCond w)).settle g
      rate := rate
      noK := if heard then 0 else x.noK + 1
      chRun := if bitOf w 15 && x.k2.toNat / 16 != x.tx1.toNat % 16 then x.chRun + 1 else 0 }
    let y := y.govern
    let c := c.setMsp k y
    let c := (c.updPort (mspP w) fun p => { p with tx := { p.tx with k1 := y.tx1, k2 := y.tx2 } }).plainK (mspW w)
    c.showMsp k

/-- The ports received from (R299). Where a WPORT changes over, its objects' interpreters change places with those of the other port; an
object of no pair has no second interpreter. -/
def Core.mspPorts (c : Core) : Core :=
  let rx := if c.en 8 then ((List.range 48).filter fun k => mspV (c.msp k).eff && (c.msp k).p.sel).map fun k =>
    (mspW (c.msp k).eff, mspP (c.msp k).eff) else []
  let turned (p : Nat) : Bool := (c.mspRx.any (·.1 = p)) != (rx.any (·.1 = p))
  let paired (p : Nat) : Bool := c.en 8 && (List.range 48).any fun k => mspV (c.msp k).eff && mspW (c.msp k).eff = p
  let c := forL (c.inService.filter fun k => turned (c.portOf (k / 4)) && c.received (k / 4)) (fun k c => c.switchPtr k) c
  { c with mspRx := rx, spare := c.spare.filter fun q => (c.obj q.1).svc && paired (c.portOf (q.1 / 4)) }

/-- A pointer word received on the port of an MSP pair that is not selected, for an object of WPORT (R299). -/
def Core.pointerHeard (c : Core) (o : ObjRef) (other : Bool) (w : BitVec 16) : Core :=
  let p := c.portOf o.idx.val
  if !other then c.pointerReceive o w
  else if c.en 8 && (List.range 48).any (fun k => mspV (c.msp k).eff && mspW (c.msp k).eff = p) then c.pointerOther o w
  else c

/-- Every MSP pair, the ports received from (R299), and MSP_STAGED (R298). -/
def Core.mspFrameAll (c : Core) : Core :=
  let c := (forN 48 (fun k c => c.mspFrame k) c).mspPorts
  let diff := (List.range 48).any fun k => mspV (c.msp k).eff && c.mspStaged k != (c.msp k).eff
  let diff := diff || (List.range 48).any fun k => !mspV (c.msp k).eff && mspV (c.mspStaged k)
  c.sb (slu 0x200) 10 diff

/-- The MSP pair in effect whose PPORT a port is. -/
def Core.mspOf (c : Core) (p : Nat) : Option Nat :=
  (List.range 48).find? fun k => mspV (c.msp k).eff && mspP (c.msp k).eff = p

/-- A K1/K2 pair accepted, shown, and handed to the Sluice (R152, R301, R303). -/
def Core.k1k2Accept (c : Core) (p : Nat) : Core :=
  let old := c.gf (pe p 0x210) 0 16
  let c := c.kAccept p
  let new := c.gf (pe p 0x210) 0 16
  let c := if old = new then c else c.ev (pe p 0x410) 1
  match c.mspOf p with
  | none => c
  | some k =>
    let x := c.msp k
    if (c.port p).kRun < max 3 (c.gf (pe p 0x50) 8 3) then c
    else
      let k1 : Byte := BitVec.ofNat 8 (new % 256)
      let k2 : Byte := BitVec.ofNat 8 (new / 256)
      let mm := k2.getLsbD 3 || (k2.toNat % 8 = 4 && bitOf x.eff 15)
      let c := if mm = x.modeMm then c else c.apsEv x.eff 4
      let y := { x with k1 := k1, k2 := k2, noK := 0, modeMm := mm }
      (c.setMsp k { y with p := y.p.settle (mspCfg y.eff) }.govern).showMsp k

/-- PSBF declared after 12 frames without an accepted value, cleared by one (R303). -/
def Core.psbf (c : Core) (k : Nat) : Core :=
  let x := c.msp k
  let v := if x.psbf then decide (0 < x.noK) else decide (12 ≤ x.noK)
  if mspV x.eff && v != x.psbf then ((c.setMsp k { x with psbf := v }.govern).apsEv x.eff 2).showMsp k else c

/-- CH_MM declared after 400 frames of mismatch, cleared by agreement (R303). -/
def Core.chMm (c : Core) (k : Nat) : Core :=
  let x := c.msp k
  let v := if x.chMm then decide (0 < x.chRun) else decide (400 ≤ x.chRun)
  if mspV x.eff && v != x.chMm then ((c.setMsp k { x with chMm := v }.govern).apsEv x.eff 3).showMsp k else c

/-! ## Hold-off, WTR and changes outside a boundary -/

def Core.pairHoldEnd (c : Core) (n : Nat) (prot sd : Bool) : Core :=
  if c.pairValid c.mapsNow.p n && !c.rsvS.held.contains n then
    c.setPair n ((c.pair n).holdEnd (c.pairCfg n) ((if prot then 2 else 0) + (if sd then 1 else 0)))
  else c
def Core.pairWtrEnd (c : Core) (n : Nat) : Core :=
  if c.pairValid c.mapsNow.p n && !c.rsvS.held.contains n then c.setPair n ((c.pair n).wtrDone (c.pairCfg n)) else c

/-- MSP hold-offs and WTRs that end at a boundary, as SF_HOLDOFF_END and WTR_END do for SNCP pairs (R300). -/
def Core.mspTimers (c : Core) : Core :=
  forN 48 (fun k c =>
    let x := c.msp k
    if mspV x.eff then
      let g := mspCfg x.eff
      let p := ([0, 1, 2, 3].foldl (fun (p : Pair) i => p.holdEnd g i) x.p).wtrDone g
      c.setMsp k { x with p := p }.govern
    else c) c

/-! ## The mate (R305–R311) -/

def Core.role (c : Core) : Nat := c.gf (slu 0x200) 0 3
def Core.mateOn (c : Core) : Bool := c.gb (slu 0x44) 0 && c.en 8
def Core.unit (c : Core) : Bool := c.gb (slu 0x44) 1

/-- A role taken (Table 9-8), with the lanes it idles (R305). -/
def Core.setRole (c : Core) (r : Nat) : Core :=
  if c.role = r then c
  else
    let c := (c.sf (slu 0x200) 0 3 r).ev (slu 0x400) (bit 3)
    let idle := if r = 0 then c.sluS.mateIdle else (r = 1 || r = 2) && !c.gb (slu 0x44) 2
    { c with sluS := { c.sluS with arb := 0, dual := 0, mateIdle := idle, took := if r = 2 then false else c.sluS.took } }

/-- The CRC of a heartbeat is right (Table 9-9). -/
def hbGood (msg : List Byte) : Bool := decide (unle ((msg.drop 60).take 4) = sigOf (msg.take 60))

/-- The fields of a heartbeat message (Table 9-9). -/
def hbOf (msg : List Byte) : Heartbeat :=
  let n (at_ len : Nat) : Nat := unle ((msg.drop at_).take len)
  { role := Fin.ofNat 8 (n 1 1), flags := BitVec.ofNat 8 (n 2 1), frame := BitVec.ofNat 64 (n 4 8), yieldAt := BitVec.ofNat 32 (n 12 4)
    xmapH := BitVec.ofNat 128 (n 16 16), pmapH := BitVec.ofNat 128 (n 32 16) }

/-- A heartbeat received in the running frame (R307). -/
def Core.heartbeatReceive (c : Core) (msg : List Byte) : Core :=
  let h := hbOf msg
  if c.gf (slu 0x44) 4 2 = 0 then c
  else if !hbGood msg then c.cn (slu 0x50C) 1
  else { c with sluS := { c.sluS with hb := some h, lastHb := some h } }

/-- READY of the device (R307). -/
def Core.mateReady (c : Core) : Bool := c.en 7 && c.gb (rsv 0x204) 3 && c.gb (slu 0x200) 6

/-- A heartbeat message (Table 9-9). -/
def Core.heartbeatMsg (c : Core) : List Byte :=
  let f : Nat := (if c.unit then 1 else 0) + (if c.sluS.yieldAt.isSome then 2 else 0) + (if c.mateReady then 4 else 0) +
    (if c.wState = 4 then 8 else 0) + (if c.sealed then 16 else 0) + (if c.gb (slu 0x44) 2 then 32 else 0)
  let body := le 1 1 ++ le 1 c.role ++ le 1 f ++ le 1 0 ++ le 8 c.frame ++ le 4 (c.sluS.yieldAt.getD 0) ++
    le 16 c.sluS.xHash.toNat ++ le 16 c.sluS.pHash.toNat ++ List.replicate 12 0
  body ++ le 4 (sigOf body)

/-- The mate at a boundary: what the ended frame received, the roles that follow from it, and the heartbeat and the timing marker that are
sent (R306, R307, R308 counts, R311, R316). Partner loss, the arbitration time-out, the end of a dual state, a yield and a frame
number are steps of their own. -/
def Core.mateFrame (c : Core) : Core :=
  let s := c.sluS
  let hb := if c.mateOn then s.hb else none
  let st := slu 0x200
  let was := c.gb st 5
  let eq := match hb with
    | some h => h.xmapH = s.xHash.extractLsb' 0 128 && h.pmapH = s.pHash.extractLsb' 0 128
    | none => c.gb st 6
  let c := if c.role ≠ 0 ∧ hb = none then c.cn (slu 0x508) 1 else c
  let c := c.sb st 5 hb.isSome
  let c := if hb.isSome && !was then c.ev (slu 0x400) (bit 5) else c
  let c := if c.gb st 6 && !eq then c.ev (slu 0x400) (bit 6) else c
  let c := c.sb st 6 eq
  let c := match hb with | some h => c.sb st 9 (h.flags.getLsbD 3) | none => c
  let pr : Nat := match hb with | some h => h.role.val | none => 0
  let sameUnit := match hb with | some h => h.flags.getLsbD 0 = c.unit | none => false
  let r := c.role
  let active (n : Nat) : Bool := n = 3 || n = 4
  let dual := active r && active pr
  let c := if dual && !c.gb st 7 then c.ev (slu 0x400) (bit 7) else c
  let c := c.sb st 7 dual
  let clash := sameUnit && ((r = 1 && pr = 1) || (r = 2 && pr = 2) || dual)
  let c := if clash != c.gb st 11 then c.ev (slu 0x400) (bit 11) else c
  let c := c.sb st 11 clash
  let c := if dual || clash then c.report 109 else c
  let c := { c with sluS := { c.sluS with
    hb := none
    missed := if hb.isSome || r = 0 then 0 else s.missed + 1
    arb := if r = 1 && hb.isNone then s.arb + 1 else 0
    dual := if dual && c.unit && !sameUnit then s.dual + 1 else 0
    differ := match hb with
      | some h => if h.frame.toNat + 1 = c.frame then 0 else s.differ + 1
      | none => s.differ
    out := []
    marks := if c.mateOn then (c.rd (slu 0x44)).extractLsb' 4 2 else 0 } }
  let go : Option Nat :=
    if r ≠ 0 ∧ c.mateOn = false then some 0
    else if r = 0 ∧ c.mateOn = true then some 1
    else if r = 1 then
      (if pr = 2 ∨ pr = 3 ∨ pr = 4 then some 2 else if pr = 1 ∧ sameUnit = false then some (if c.unit then 2 else 3) else none)
    else if r = 2 then
      (if pr = 1 then some 3 else if pr = 2 ∧ sameUnit = false ∧ c.unit = false then some 3 else none)
    else if active r ∧ active pr then (if sameUnit ∨ c.unit = false then some 3 else none)
    else if r = 4 ∧ (pr = 1 ∨ pr = 2) then some 3
    else none
  let c : Core := match go with | some n => c.setRole n | none => c
  if c.role = 0 ∨ c.gf (slu 0x44) 4 2 = 0 then c
  else { c with sluS := { c.sluS with out := [c.heartbeatMsg] } }

/-- The partner is lost after three frames without a heartbeat (R308). -/
def Core.partnerLost (c : Core) : Core :=
  if 3 ≤ c.sluS.missed ∧ (c.role = 2 ∨ c.role = 3) then
    let c := (c.setRole 4).ev (slu 0x400) (bit 4)
    ({ c with sluS := { c.sluS with yieldAt := none } }).sb (slu 0x200) 8 false
  else c

/-- ARB_WAIT frames in ARBITRATE without a heartbeat (Table 9-8). -/
def Core.arbTimeout (c : Core) : Core :=
  let n := c.gf (slu 0x44) 8 13
  if c.role = 1 ∧ (if n = 0 then 8000 else n) ≤ c.sluS.arb then c.setRole 4 else c

/-- Unit 1 gives way 8 frames after a dual state is seen (Table 9-8). -/
def Core.dualResolve (c : Core) : Core :=
  if (c.role = 3 ∨ c.role = 4) ∧ c.unit = true ∧ 8 ≤ c.sluS.dual then c.setRole 2 else c

/-- YIELD written (R310): refused while YIELD_BUSY = 1 (R70). -/
def Core.yieldGo (c : Core) : Core :=
  if c.gb (slu 0x200) 8 then c.ign (slu 0xB08) 8
  else
    let ok := match c.sluS.lastHb with | some h => h.role.val = 2 && h.flags.getLsbD 2 | none => false
    if c.role = 3 && ok then
      ({ c with sluS := { c.sluS with yieldAt := some ((c.frame + 9) % 2 ^ 32) } }).sb (slu 0x200) 8 true
    else c

/-- The boundary of a yield: the device hands over, or takes over from a partner that yields (R310). -/
def Core.yieldTake (c : Core) : Core :=
  if c.role = 3 ∧ c.sluS.yieldAt = some (c.frame % 2 ^ 32) then
    (({ c with sluS := { c.sluS with yieldAt := none } }).setRole 2).sb (slu 0x200) 8 false
  else
    match c.sluS.lastHb with
    | some h => if c.role = 2 ∧ h.flags.getLsbD 1 = true ∧ h.yieldAt.toNat = c.frame % 2 ^ 32 then c.setRole 3 else c
    | none => c

/-- What waits for a boundary when the frame number changes (R311): a snapshot of the next boundary waits for the next; a snapshot target
passed over counts as missed (R63), a commit due at the boundary just passed stays due, and one whose boundary is passed over ends
MISSED, as one whose boundary has passed at its check (DESIGN CHOICE, log entry 116). -/
def Core.numberMoved (c : Core) (old : Nat) : Core :=
  let c := match c.snpS.req with
    | some (src, t) =>
      if src ≠ 2 then { c with snpS := { c.snpS with req := some (src, c.frame + 1) } }
      else if t ≤ c.frame ∧ old < t then ({ c with snpS := { c.snpS with req := none } }).snapMiss.sb (snp 0xB00) 8 false
      else c
    | none => c
  if c.gf (rsv 0x208) 1 2 ≠ 2 then c
  else if c.armedAt = old then (c.wr (rsv 0x210) (BitVec.ofNat 32 c.frame)).wr (rsv 0x214) (BitVec.ofNat 32 (c.frame / 2 ^ 32))
  else if c.armedAt ≤ c.frame then c.endReq 5 8
  else c

/-- A standby takes the partner's frame number (R311): the frame that now runs is the one after the partner's last. -/
def Core.frameNumberTake (c : Core) : Core :=
  match c.sluS.lastHb with
  | some h =>
    if c.role = 2 ∧ (c.sluS.took = false ∨ 8 ≤ c.sluS.differ) then
      let n := h.frame.toNat + 1
      ({ c with frame := n, pmSec := n / 8000, pmSuspect := 2, sluS := { c.sluS with took := true, differ := 0 } } : Core).numberMoved c.frame
    else c
  | none => c

/-- A mirror record of 8 bytes (R309). -/
def mirrorBytes (t : Nat) (x : Pair) : List Byte := le 2 t ++ le 1 x.cmd ++ le 1 0 ++ le 4 (x.wtr.getD 0)

/-- The active device sends a mirror message: changed records first, and every record once per 1,024 frames (R309). -/
def Core.mirrorSend (c : Core) : Core :=
  if c.role = 3 && c.gb (slu 0x44) 3 then
    let due (x : Pair) : Bool := x.dirty || decide (x.mirAt + 1024 ≤ c.frame)
    let ps := (c.pairsOf c.mapsNow.p).filter fun n => due (c.pair n)
    let ms := (List.range 48).filter fun k => mspV (c.msp k).eff && due (c.msp k).p
    let all := (((ps.filter fun n => (c.pair n).dirty) ++ (ms.filter fun k => (c.msp k).p.dirty).map (0xC000 + ·)) ++
      ps ++ ms.map (0xC000 + ·)).eraseDups.take 32
    let get (t : Nat) : Pair := if t < 0xC000 then c.pair t else (c.msp (t - 0xC000)).p
    let sent (x : Pair) : Pair := { x with dirty := false, mirAt := c.frame }
    let msg := le 1 2 ++ all.flatMap fun t => mirrorBytes t (get t)
    let c := { c with sluS := { c.sluS with out := c.sluS.out ++ [msg] } }
    forL all (fun t c =>
      if t < 0xC000 then c.setPair t (sent (c.pair t))
      else c.setMsp (t - 0xC000) { c.msp (t - 0xC000) with p := sent (c.msp (t - 0xC000)).p }) c
  else c

/-- The standby adopts commands and WTR timers (R309). -/
def Core.mirrorReceive (c : Core) (rs : List MirrorRec) : Core :=
  if c.role = 2 && c.gb (slu 0x44) 3 then
    forL rs (fun r c =>
      let late := match (c.sluS.mirIn.find? (·.1 = r.target)) with | some q => decide (q.2 + 1024 < c.frame) | none => false
      let c := if late then c.ev (slu 0x400) (bit 12) else c
      let c := { c with sluS := { c.sluS with mirIn := Sparse.put (fun _ => 0) c.sluS.mirIn r.target c.frame } }
      let put (x : Pair) : Pair := { x with cmd := if r.cmd.val ≤ 5 then r.cmd.val else 0, wtr := if r.wtr = 0 then none else some r.wtr }
      if r.target < 16384 then (if c.pairValid c.mapsNow.p r.target then c.setPair r.target (put (c.pair r.target)) else c)
      else if 0xC000 ≤ r.target ∧ r.target < 0xC000 + 48 then
        let k := r.target - 0xC000
        if mspV (c.msp k).eff then c.setMsp k { c.msp k with p := put (c.msp k).p } else c
      else c) c
  else c

/-- A MATE lane locks, or is lost (SLU_STATE.LANE_UP; source S109 with both enabled lanes down, Table 15-1). -/
def Core.mateLane (c : Core) (lane : Bool) (up : Bool) : Core :=
  let b := if lane then 4 else 3
  if c.gb (slu 0x200) b = up ∨ (up = true ∧ c.gb (lev 0x204) 6 = false) then c
  else
    let c := (c.sb (slu 0x200) b up).ev (slu 0x400) (bit 8)
    let e := c.gf (slu 0x44) 4 2
    if !up && c.gb (slu 0x44) 0 && (c.gf (slu 0x200) 3 2 &&& e) = 0 then c.report 109 else c

/-! ## The boundary of a commit (R260, R295) -/

/-- A pair that a PMAP commit leaves unchanged in W0–W2 keeps its state; the others start again (R295). -/
def Core.pairKept (c : Core) (old new n : Nat) : Bool :=
  c.pairValid new n && (List.range 3).all fun w => c.trd (pmap old n w) = c.trd (pmap new n w)
def Core.pairsTake (c : Core) (old new : Nat) : Core :=
  let ks := ((c.sluS.pairs.map (·.1)) ++ c.pairsOf new).eraseDups
  forL ks (fun n c => if c.pairKept old new n then c else c.setPair n {}) c

/-- MSP definitions taken at a PMAP commit (R298); an unchanged pair keeps its state, and the ports of a pair that ends send K1 and K2 as
a port in no pair does (R152). -/
def Core.mspTake (c : Core) : Core :=
  let c := forN 48 (fun k c =>
    let w := c.mspStaged k
    let x := c.msp k
    if (if mspV w then w else 0) = x.eff then c
    else
      let c := if mspV x.eff then (c.plainK (mspW x.eff)).plainK (mspP x.eff) else c
      (c.setMsp k { eff := if mspV w then w else 0 }).showMsp k) c
  c.mspPorts.sb (slu 0x200) 10 false

/-- A commit is taken at its boundary: the named planes become active, definitions staged with them too, and the frame is
read under them (R260). -/
def Core.commitTake (c : Core) (m : List Host.Cell) : Core × List MemOp :=
  if !c.commitDue then (c, [])
  else
    match c.rsvS.req with
    | none => (c, [])
    | some q =>
      let maps := fld q.bits 1 2
      let a := c.mapsNow
      let st := rsv 0x200
      let live (r : Ring) : Ring := match c.rsvS.rings.find? fun o => r.kept && o.key = r.key with
        | some o => { r with start := o.start, recs := o.recs }
        | none => r
      let rings := c.rsvS.plan.map live
      let c := { c with rsvS := { c.rsvS with rings := rings } }
      let c := if maps % 2 = 1 then
          ({ ((c.sb st 0 (a.x = 0)).sb st 2 false) with rsvS := { c.rsvS with bad := [], blank := [] } }).takeGroups.groupChecks
        else c
      let c := if maps / 2 % 2 = 1 then
          ((({ ((c.sb st 1 (a.p = 0)).sb st 3 false) with rsvS := { c.rsvS with held := [] } }).pairsTake a.p (1 - a.p)).mspTake)
        else c
      let c := c.pairsFrame fun n => maps / 2 % 2 = 1 && !c.pairKept a.p (1 - a.p) n
      let c := (c.wr (rsv 0x230) (c.rd (rsv 0x234))).showStore
      let c := if rings = [] then c else c.srExit
      let c := c.endReq 1 0
      let c := { c with wrdS := { c.wrdS with lastB := c.frame, hashDue := true } }
      let c := if bitOf q.bits 4 then (c.sb st 5 false).sb (rsv 0x208) 0 false
        else ({ c with rsvS := { c.rsvS with copy := maps } }).sb st 4 true
      (c.readAll m, [])

def execK1k2Accept (p : Port) (s : State) : Host.Outcome State Fault Refusal := s.on (·.k1k2Accept p.val)
def execPointerReceive (o : ObjRef) (w : PtrIn) (s : State) : Host.Outcome State Fault Refusal :=
  s.on (·.pointerHeard o w.other w.word)
def execVcFrameSignature (n : PairNo) (prot : Bool) (sig pos at_ : Nat) (s : State) : Host.Outcome State Fault Refusal :=
  s.onSeen (fun c => decide ((if prot then (c.pair n.val).sigP else (c.pair n.val).sigW).head? = some (sig, pos, at_))) (·.vcSignature n.val prot)
def execMarkerMatch (n : PairNo) (prot : Bool) (s : State) : Host.Outcome State Fault Refusal :=
  s.on (·.markerMatch n.val prot)
def execMarkerMiss (n : PairNo) (prot : Bool) (s : State) : Host.Outcome State Fault Refusal :=
  s.on (·.markerMiss n.val prot)
def execSfHoldoffEnd (n : PairNo) (prot sd : Bool) (s : State) : Host.Outcome State Fault Refusal :=
  s.on (·.pairHoldEnd n.val prot sd)
def execWtrEnd (n : PairNo) (s : State) : Host.Outcome State Fault Refusal := s.on (·.pairWtrEnd n.val)

/-- SLU_XCMD as a command names it. -/
def xcmdWord (cmd : Nat) (t : BitVec 14) (msp : Bool) : Word :=
  BitVec.ofNat 32 (1 + cmd * 2 + (if msp then 16 else 0) + t.toNat * 64)
def execXcmdClear (t : BitVec 14) (m : Bool) (left : Nat) (s : State) : Host.Outcome State Fault Refusal :=
  s.on (·.byWarden (·.xcmdGo (xcmdWord 0 t m) left none))
def execXcmdLo (t : BitVec 14) (m : Bool) (left : Nat) (s : State) : Host.Outcome State Fault Refusal :=
  s.on (·.byWarden (·.xcmdGo (xcmdWord 1 t m) left none))
def execXcmdFsP (t : BitVec 14) (m : Bool) (left : Nat) (s : State) : Host.Outcome State Fault Refusal :=
  s.on (·.byWarden (·.xcmdGo (xcmdWord 2 t m) left none))
def execXcmdFsW (t : BitVec 14) (m : Bool) (left : Nat) (s : State) : Host.Outcome State Fault Refusal :=
  s.on (·.byWarden (·.xcmdGo (xcmdWord 3 t m) left none))
def execXcmdMsP (t : BitVec 14) (m : Bool) (left : Nat) (s : State) : Host.Outcome State Fault Refusal :=
  s.on (·.byWarden (·.xcmdGo (xcmdWord 4 t m) left none))
def execXcmdMsW (t : BitVec 14) (m : Bool) (left : Nat) (s : State) : Host.Outcome State Fault Refusal :=
  s.on (·.byWarden (·.xcmdGo (xcmdWord 5 t m) left none))
def execPsbf (k : MspNo) (s : State) : Host.Outcome State Fault Refusal := s.on (·.psbf k.val)
def execChMm (k : MspNo) (s : State) : Host.Outcome State Fault Refusal := s.on (·.chMm k.val)
def execHeartbeatReceive (msg : List Byte) (s : State) : Host.Outcome State Fault Refusal := s.on (·.heartbeatReceive msg)
def execPartnerLost (s : State) : Host.Outcome State Fault Refusal := s.on (·.partnerLost)
def execArbitrateTimeout (s : State) : Host.Outcome State Fault Refusal := s.on (·.arbTimeout)
def execDualResolve (s : State) : Host.Outcome State Fault Refusal := s.on (·.dualResolve)
def execMirrorSend (s : State) : Host.Outcome State Fault Refusal := s.on (·.mirrorSend)
def execMirrorReceive (rs : List MirrorRec) (s : State) : Host.Outcome State Fault Refusal := s.on (·.mirrorReceive rs)
def execYield (s : State) : Host.Outcome State Fault Refusal := s.on (·.byWarden (·.yieldGo))
def execYieldTake (s : State) : Host.Outcome State Fault Refusal := s.on (·.yieldTake)
def execFrameNumberTake (s : State) : Host.Outcome State Fault Refusal := s.on (·.frameNumberTake)
def execMateLaneUp (lane : Bool) (s : State) : Host.Outcome State Fault Refusal := s.on (·.mateLane lane true)
def execMateLaneDown (lane : Bool) (s : State) : Host.Outcome State Fault Refusal := s.on (·.mateLane lane false)
def execCommitTake (s : State) : Host.Outcome State Fault Refusal := s.onMem (·.commitTake ·)

end Sys2Proof.Machine
end

