-- ==== Sys2Proof/Machine/Timing.lean ====
section
/-! DEFINITION. Timing, reference selection and Gauges (chapter 10): the Gauge chain, the loop, the selector, the commands
of the TIM page. -/

namespace Sys2Proof.Machine

/-! ## Gauges (R315–R323) -/

/-- One frame in q (R317). -/
abbrev frameQ : Int := 4976640

def Core.gauge (c : Core) (g : Nat) : Gauge := Sparse.get (fun _ => {}) c.timS.gauges g
def Core.setGauge (c : Core) (g : Nat) (x : Gauge) : Core :=
  { c with timS := { c.timS with gauges := Sparse.put (fun _ => {}) c.timS.gauges g x } }
def Core.updGauge (c : Core) (g : Nat) (f : Gauge → Gauge) : Core := c.setGauge g (f (c.gauge g))

/-- Whether a Gauge runs (R320). -/
def Core.gaugeOn (c : Core) (g : Nat) : Bool := c.en (0xA + g / 12) && c.gb (gaR g 0) 0 && c.d06

/-- Events of a Gauge, with its bit in GA_PEV. -/
def Core.gaEv (c : Core) (g : Nat) (m : Word) : Core :=
  (c.ev (gaR g 0x28) m).ev (ga (g / 12) 0x400) (bit (g % 12))

/-- DECIM and T in effect (Table 10-13). -/
def Core.gaR_ (c : Core) (g : Nat) : Nat := clamp 8 4096 (c.gf (gaR g 8) 0 13)
def Core.gaT (c : Core) (g : Nat) : Nat := c.gf (gaR g 8) 13 6 + 1

/-- VALID of a Gauge (GA_STAT, GA_VALID), with its events. -/
def Core.setValid (c : Core) (g : Nat) (v : Bool) : Core :=
  let was := c.gb (gaR g 0x18) 0
  let c := (c.sb (gaR g 0x18) 0 v).sb (ga (g / 12) 0x200) (g % 12) v
  let c := if v then c else c.wr (gaR g 0x20) 0
  if was = v then c else c.gaEv g (bit (if v then 0 else 1))

/-- SETTLING and SETTLE_LEFT from the samples produced (R323). -/
def Core.showSettle (c : Core) (g : Nat) (on : Bool) : Core :=
  let left := if on && !c.gb (gaR g 0x18) 0 then c.gaT g + 13 - (c.rd (gaR g 0x1C)).toNat else 0
  (c.sb (gaR g 0x18) 6 (decide (0 < left))).sf (gaR g 0x18) 7 8 left

/-- A Gauge's filter state, decimation counters and GA_SEQ cleared (R321). -/
def Core.gaugeClear (c : Core) (g : Nat) : Core :=
  let c := c.updGauge g fun x =>
    { swap := x.swap, latch := x.latch, recs := x.recs, start := x.start, last := x.last }
  ((c.setValid g false).wr (gaR g 0x1C) 0).sb (gaR g 0) 8 false

/-- A cause of a synchronising reset (R321); it takes effect at the next boundary. -/
def Core.gaugeReset (c : Core) (g : Nat) : Core := c.updGauge g fun x => { x with reset := true }

/-- Signed saturation to `n` bits, and whether it changed the value. -/
def satInt (n : Nat) (v : Int) : Int × Bool :=
  let m : Int := 2 ^ (n - 1)
  if m ≤ v then (m - 1, true) else if v < -m then (-m, true) else (v, false)

/-- Wrapping to `n` bits, signed. -/
def wrapInt (n : Nat) (v : Int) : Int :=
  let m : Int := 2 ^ n
  let r := v % m
  if 2 * r < m then r else r - m

/-- A stage's shift, toward minus infinity, and its saturation (R318). -/
def stageOut (n sh : Nat) (v : Int) : Int × Bool := satInt n (v / 2 ^ sh)

/-- The half-band coefficients from tap −9 to tap 9 (Table 10-3). -/
def halfBand : List Int :=
  [242, 0, -911, 0, 2418, 0, -5872, 0, 20507, 32768, 20507, 0, -5872, 0, 2418, 0, -911, 0, 242]

/-- A sum of products of coefficients and a delay line, newest first. -/
def dot (cs xs : List Int) : Int := (cs.zip xs).foldl (fun a q => a + q.1 * q.2) 0

/-- One CIC output through the half-band stages: HB1 after every second CIC output, HB2 after every second HB1 output,
and a final output due after every HB2 output (Table 10-2). -/
def Gauge.halfBands (x : Gauge) (sh1 sh2 : Nat) (v : Int) : Gauge :=
  let x := { x with h1 := (v :: x.h1).take 19, h1n := x.h1n + 1 }
  if x.h1n % 2 ≠ 0 then x
  else
    let y := stageOut 48 sh1 (dot halfBand x.h1)
    let x := { x with h2 := (y.1 :: x.h2).take 19, h2n := x.h2n + 1, sat := x.sat || y.2 }
    if x.h2n % 2 ≠ 0 then x
    else
      let z := stageOut 48 sh2 (dot halfBand x.h2)
      { x with fir := (z.1 :: x.fir).take 64, sat := x.sat || z.2, due := true }

/-- One PD sample into the chain (R318). -/
def Gauge.sample (x : Gauge) (r sh0 sh1 sh2 : Nat) (v : Int) : Gauge :=
  let i1 := wrapInt 76 (x.int1 + v)
  let i2 := wrapInt 76 (x.int2 + i1)
  let i3 := wrapInt 76 (x.int3 + i2)
  let x := { x with int1 := i1, int2 := i2, int3 := i3, n := x.n + 1 }
  if x.n % r ≠ 0 then x
  else
    let d1 := wrapInt 76 (i3 - x.comb1)
    let d2 := wrapInt 76 (d1 - x.comb2)
    let d3 := wrapInt 76 (d2 - x.comb3)
    let y := stageOut 48 sh0 d3
    { x with comb1 := i3, comb2 := d1, comb3 := d2, sat := x.sat || y.2 }.halfBands sh1 sh2 y.1

/-- GA_MEAS each second of PD samples: an input faster than D07 moves its events earlier (R317, Table 10-12). -/
def Core.gaugeMeasure (c : Core) (g : Nat) (v : Int) : Core :=
  let x := c.gauge g
  if x.n = 1 then c.setGauge g { x with mPh := v, mN := 0 }
  else if x.mN + 1 < 8000 then c.setGauge g { x with mN := x.mN + 1 }
  else
    let m := (satInt 32 ((x.mPh - v) * 1000000000000 / (8000 * frameQ))).1
    (c.setGauge g { x with mPh := v, mN := 0 }).wr (gaR g 0x24) (BitVec.ofInt 32 m)

/-- A Gauge at a frame boundary: a due reset takes effect, else a PD sample is taken (R317, R321, R322). -/
def Core.gaugeFrame (c : Core) (g : Nat) : Core :=
  let x := c.gauge g
  if x.reset then (c.gaugeClear g).showSettle g (c.gaugeOn g && c.gb (gaR g 0x18) 5)
  else if !c.gaugeOn g || !c.gb (gaR g 0x18) 5 then c
  else match x.ph with
    | none => c
    | some v =>
      let sh := c.rd (gaR g 0xC)
      (c.setGauge g (x.sample (c.gaR_ g) (fld sh 0 5) (fld sh 5 5) (fld sh 10 5) v)).gaugeMeasure g v

/-- The fixed latency of a timing marker, 1.6 µs, in q to the nearest whole number: DESIGN CHOICE, it is 63,700.99 q (R316). -/
def markerLatency : Nat := 63701

/-- An input event: the first one after a reset is taken as it is, each later one nearest the one before it; one that would leave
the 40 bits sets PD_WRAP and resets the Gauge (R317). The fixed latency and TIM_MATE_DLY come off the arrival of the partner's timing marker
(R316). -/
def Core.gaugeInput (c : Core) (g phase : Nat) : Core :=
  let x := c.gauge g
  let mate := c.gf (gaR g 4) 0 8 = 100
  let c := if mate then { c with timS := { c.timS with mark := true } } else c
  if !c.gaugeOn g || x.reset || !c.gb (gaR g 0x18) 5 then c
  else
    let late : Nat := if mate then markerLatency + c.gf (tim 0x4C) 0 24 else 0
    let p : Int := ((phase : Int) - late) % frameQ
    match x.ph with
    | none => c.setGauge g { x with ph := some p }
    | some q =>
      let d := (p - q) % frameQ
      let v := if 2 * d ≤ frameQ then q + d else q + d - frameQ
      if v < 2 ^ 39 ∧ -(2 ^ 39) < v then c.setGauge g { x with ph := some v } else (c.gaEv g (bit 7)).gaugeReset g

/-- A period of a TREF pin in q, by its rate (Table 10-1). -/
def trefPeriod (rate : Nat) : Nat := match rate with | 0 => 4976640 | 1 => 19440 | 2 => 2048 | _ => 256

/-- A pin TREFk is present: in use, with an edge in each of the last 4 expected periods (Table 10-1). `ages` says how long ago edges were. -/
def Core.trefUp (c : Core) (k : Nat) (ages : List Nat) : Bool :=
  let p := trefPeriod (c.gf (tim 0x48) (4 * k) 2)
  c.gb (tim 0x48) (4 * k + 2) && (List.range 4).all fun j => ages.any fun a => decide (j * p ≤ a ∧ a < (j + 1) * p)

/-- Whether a source is present (Table 10-1); `ages` are the edges of a TREF pin. -/
def Core.srcUp (c : Core) (s : Nat) (ages : List Nat) : Bool :=
  if s < 96 then decide (5 ≤ c.pst s) && !c.portSf s
  else if s < 100 then c.trefUp (s - 96) ages
  else s = 100 && c.mateOn && decide (3 ≤ c.timS.marks)

/-- TIM_TREF_ST of a pin. -/
def Core.showTref (c : Core) (k : Nat) (on : Bool) : Core :=
  if c.gb (tim 0x234) (4 * k) = on then c else (c.sb (tim 0x234) (4 * k) on).ev (tim 0x400) (bit 7)

/-- A Gauge's input found absent or present (R322). -/
def Core.gaugePresent (c : Core) (g : Nat) (on : Bool) : Core :=
  if c.gb (gaR g 0x18) 5 = on then c
  else
    let c := (c.sb (gaR g 0x18) 5 on).sb (ga (g / 12) 0x200) (16 + g % 12) on
    if on then (c.gaEv g (bit 6)).gaugeReset g
    else
      let c := (c.gaEv g (bit 5)).gaugeClear g
      c.showSettle g false

/-- INPUT_LOST and INPUT_BACK: the source is found absent, or present, with the edges then seen on its pin. -/
def Core.inputFound (c : Core) (g : Nat) (ages : List Nat) (on : Bool) : Core :=
  let s := c.gf (gaR g 4) 0 8
  if !c.en (0xA + g / 12) || c.srcUp s ages != on then c
  else (if 96 ≤ s ∧ s < 100 then c.showTref (s - 96) on else c).gaugePresent g on

/-! ## The loop and the selector (R324–R338) -/

/-- The rank of an SSM code in a code set (Table 10-6). -/
def qlRank (sonet : Bool) (code : Nat) : Nat :=
  if sonet then match code with
    | 1 => 1 | 0 => 2 | 7 => 3 | 4 => 4 | 13 => 5 | 10 => 6 | 12 => 7 | _ => 15
  else match code with
    | 2 => 1 | 0 => 2 | 4 => 3 | 8 => 5 | 11 => 6 | _ => 15

/-- The code sent for a rank: a rank without one is sent as the next higher rank number that has one (R336). -/
def qlCode (sonet : Bool) (rank : Nat) : Nat :=
  if sonet then
    if rank ≤ 1 then 1 else if rank = 2 then 0 else if rank = 3 then 7 else if rank = 4 then 4 else if rank = 5 then 13
    else if rank = 6 then 10 else if rank = 7 then 12 else 15
  else
    if rank ≤ 1 then 2 else if rank = 2 then 0 else if rank = 3 then 4 else if rank ≤ 5 then 8 else if rank = 6 then 11
    else 15

def Core.loop (c : Core) : Nat := c.gf (tim 0x200) 0 3
def Core.siReg (c : Core) (n : Nat) : Word := c.rd (tim (0xB04 + 4 * n))
def Core.siGauge (c : Core) (n : Nat) : Nat := fld (c.siReg n) 0 5
def Core.siEn (c : Core) (n : Nat) : Bool := bitOf (c.siReg n) 5
def Core.selIn (c : Core) (n : Nat) : SelIn := Sparse.get (fun _ => {}) c.timS.sis n
def Core.setSelIn (c : Core) (n : Nat) (x : SelIn) : Core :=
  { c with timS := { c.timS with sis := Sparse.put (fun _ => {}) c.timS.sis n x } }

/-- The QL of an input (R332). -/
def Core.siQl (c : Core) (n : Nat) : Nat :=
  let w := c.siReg n
  let s := c.gf (gaR (fld w 0 5) 4) 0 8
  if bitOf w 10 then fld w 11 4
  else if fld w 0 5 < 24 ∧ s < 96 then
    let a := c.rd (pe s 0x214)
    if bitOf a 8 then qlRank (decide (c.gf (pe s 0x208) 4 2 = 2)) (fld a 4 4) else 15
  else 15

/-- The failure cause of an input, 0 for none (R331). -/
def Core.siCause (c : Core) (n : Nat) : Nat :=
  let w := c.siReg n
  let g := fld w 0 5
  if 24 ≤ g then 6
  else if !c.gb (gaR g 0) 0 then 6
  else if !c.gb (gaR g 0x18) 5 then 1
  else if !c.gb (gaR g 0x18) 0 then 2
  else if max 1 (fld w 15 4) * 1000000 < (c.rd (tim (0x240 + 4 * n))).toInt.natAbs then 3
  else 0

def Core.lockedOut (c : Core) (n : Nat) : Bool := c.gb (tim 0xB34) (6 + n)

/-- An input selectable (R331), a failure counting as R334 says. -/
def Core.selectable (c : Core) (n : Nat) : Bool :=
  let x := c.selIn n
  c.siEn n && !x.counted && x.wtr.isNone && !c.lockedOut n && (!c.gb (tim 0x40) 0 || c.siQl n != 15)

/-- The best rank among the selectable inputs. -/
def Core.bestRank (c : Core) : Nat :=
  (List.range 8).foldl (fun b n => if c.selectable n then min b (c.siQl n) else b) 16

/-- Whether an input meets the condition of a MANUAL (R335). -/
def Core.manualOk (c : Core) (n : Nat) : Bool :=
  c.selectable n && (!c.gb (tim 0x40) 0 || c.siQl n = c.bestRank)

/-- The order of rule 5 of R333. -/
def Core.siOrder (c : Core) (n : Nat) : Nat :=
  let pr := fld (c.siReg n) 6 4
  (if c.gb (tim 0x40) 0 then c.siQl n else 0) * 256 + (if pr = 0 then 15 else pr) * 16 + n

/-- The current selection. -/
def Core.selNow (c : Core) : Option Nat := if c.gb (tim 0x200) 3 then some (c.gf (tim 0x200) 4 3) else none

/-- Whether an input's Gauge takes mate timing. -/
def Core.siMate (c : Core) (n : Nat) : Bool := decide (c.siGauge n < 24) && c.gf (gaR (c.siGauge n) 4) 0 8 = 100

/-- The mate input rule 1 of R333 chooses, where it applies. -/
def Core.mateInput (c : Core) : Option Nat :=
  if c.gb (tim 0x40) 3 && c.role = 2 then (List.range 8).find? fun n => c.selectable n && c.siMate n else none

/-- The selector's choice (R333). -/
def Core.selChoice (c : Core) : Option Nat :=
  match c.mateInput with
  | some n => some n
  | none =>
    let st := c.rd (tim 0xB34)
    if fld st 14 2 = 1 then
      let n := fld st 16 3
      if (c.selIn n).counted then none else some n
    else if fld st 14 2 = 2 then some (fld st 16 3)
    else
      let keep := match c.selNow with
        | some n => !c.gb (tim 0x40) 4 && c.selectable n && (!c.gb (tim 0x40) 0 || c.siQl n = c.bestRank)
        | none => false
      if keep then c.selNow
      else (List.range 8).foldl (fun b n =>
        if !c.selectable n then b
        else match b with
          | some m => if c.siOrder n < c.siOrder m then some n else b
          | none => some n) none

/-- A state of the loop entered (Table 10-5), with its frequency, counters and the timing source (R337). -/
def Core.setLoop (c : Core) (st : Nat) : Core :=
  if c.loop = st then c
  else
    let c := ((c.sf (tim 0x200) 0 3 st).ev (tim 0x400) (bit 0))
    let c := { c with timS := { c.timS with lockRun := 0, lossRun := 0 } }
    let c := if st = 0 then c.wr (tim 0x204) 0 else c
    let c := if st = 3 then ((c.wr (tim 0x204) (c.rd (tim 0x20C))).cn (tim 0x504) 1).ev (tim 0x400) (bit 5) else c
    if (st = 0 || st = 3) && c.en 0xD && (List.range 6).any c.bankOn then c.report 110 else c

/-- The locked seconds of the HO_AVG seconds that ended 1 s before now (R327). -/
def Core.hoSeconds (c : Core) : List Int :=
  let n := max 1 (c.gf (tim 0x44) 12 10)
  ((c.timS.hist.drop 1).take n).filterMap id

/-- The loop enters BRIDGE (R327). -/
def Core.bridge (c : Core) : Core :=
  let hs := c.hoSeconds
  let c := if hs = [] then c else
    c.wr (tim 0x20C) (BitVec.ofInt 32 (hs.foldl (· + ·) 0 / (hs.length : Int)))
  let b := c.loop
  let t := c.timS
  let c := (c.setLoop 4).cn (tim 0x51C) 1
  { c with timS := { c.timS with before := b, hold := 0, lockRun := t.lockRun, lossRun := t.lossRun } }

/-- XFADE of the loop and of both Gauges of a cross-fade. -/
def Core.showFade (c : Core) (f : Fade) (on : Bool) : Core :=
  let c := (c.sb (tim 0x200) 7 on).sb (gaR f.new 0x18) 2 on
  match f.old with | some g => c.sb (gaR g 0x18) 2 on | none => c

/-- A swap that is deferred applies at the Gauge's next sample once its cross-fade has ended (R339). -/
def Core.endFade (c : Core) : Core :=
  match c.timS.fade with
  | none => c
  | some f => { (c.showFade f false) with timS := { c.timS with fade := none } }

/-- A selection taken (R333, R338): ACQUIRE and a cross-fade to the new Gauge, or BRIDGE where nothing is selected. -/
def Core.setSel (c : Core) (dst : Option Nat) : Core :=
  let old := c.selNow
  if old = dst then c
  else
    let c := (c.cn (tim 0x500) 1).ev (tim 0x400) (bit 1)
    match dst with
    | none =>
      let c := (c.sb (tim 0x200) 3 false).sf (tim 0x200) 4 3 0
      let c := c.endFade
      if c.loop = 1 ∨ c.loop = 2 then c.bridge else c
    | some n =>
      let from0 : Bool := c.loop = 0 || c.loop = 3
      let t := c.timS
      let g := c.siGauge n
      let q : Option Nat × Int × Int := if from0 then (none, t.delta, 0) else match t.fade with
        | some f => if f.started then (none, t.delta, t.x) else (f.old, f.oldDelta, f.xOld)
        | none => (old.map c.siGauge, t.delta, t.x)
      let f : Fade := { old := q.1, new := g, oldDelta := q.2.1, xOld := q.2.2, k := 0, len := 16, started := false }
      let c := c.endFade
      let c := (c.sb (tim 0x200) 3 true).sf (tim 0x200) 4 3 n
      let c := { c with timS := { c.timS with fade := some f, hold := 0 } }
      if c.loop = 1 then { c with timS := { c.timS with lockRun := 0 } } else c.setLoop 1

/-- A free frequency within the loop's range of ±12 ppm (R325); the loop filter's numbers are not given. -/
def freeFreq (k : Nat) : Int := (Config.freeWord k).toInt % 24000001 - 12000000

/-- A steering value taken (R325): shown, and D07 adjusted. -/
def Core.steer (c : Core) (x : Int) : Core :=
  let c := c.wr (tim 0x208) (BitVec.ofInt 32 (satInt 32 x).1)
  let c := { c with timS := { c.timS with x := x } }
  if c.loop = 1 ∨ c.loop = 2 then (c.wr (tim 0x204) (BitVec.ofInt 32 (freeFreq c.freeCtr))).fresh else c

/-- A valid sample `b` of Gauge `g`, whose last valid output before it was `b0`, in the loop (R325, R338). -/
def Core.steerSample (c : Core) (g : Nat) (b0 b : Int) : Core :=
  let c := match c.timS.fade with
    | some f => if f.old = some g ∧ f.new ≠ g then
        { c with timS := { c.timS with fade := some { f with xOld := b - f.oldDelta } } } else c
    | none => c
  match c.selNow with
  | none => c
  | some n =>
    if c.siGauge n ≠ g ∨ c.loop = 4 then c
    else match c.timS.fade with
      | none => c.steer (b - c.timS.delta)
      | some f =>
        let start := !f.started
        let delta := if !start then c.timS.delta else if c.gb (tim 0x40) 1 && !c.siMate n then b0 - f.xOld else 0
        let len := if start then clamp 16 65536 (c.gf (gaR g 0x10) 0 17) else f.len
        let k := f.k + 1
        let x := (f.xOld * ((len : Int) - k) + (b - delta) * k) / len
        let f := { f with started := true, k := k, len := len }
        let c := { c with timS := { c.timS with fade := some f, delta := delta } }
        let c := (c.showFade f true).steer x
        if len ≤ k then (c.endFade.cn (tim 0x514) 1).ev (tim 0x400) (bit 4) else c

/-- The failure of each input and its WTR at a boundary (R331, R334). -/
def Core.siFrame (c : Core) (n : Nat) : Core :=
  let x := c.selIn n
  let cause := c.siCause n
  let g := c.siGauge n
  let c := if g < 24 then
      let v := (c.rd (gaR g 0x24)).toInt + (c.rd (tim 0x204)).toInt
      c.wr (tim (0x240 + 4 * n)) (if c.gb (gaR g 0x18) 5 then BitVec.ofInt 32 (satInt 32 v).1 else 0)
    else c.wr (tim (0x240 + 4 * n)) 0
  let failed := cause ≠ 0
  let sel := c.selNow = some n
  let counted := failed && (x.counted || !sel)
  let ended := x.counted && !failed
  let wtr := if failed && counted then none
    else if ended then some (c.gf (tim 0xB00) 5 10 * 8000)
    else x.wtr.map (· - 1)
  let c := if failed && !x.failed && c.siEn n then c.cn (tim 0x50C) 1 else c
  let c := if failed != x.failed && c.siEn n then c.ev (tim 0x400) (bit 2) else c
  c.setSelIn n { failed := failed, counted := counted, wtr := wtr }

/-- TIM_SI_STn (Table 10-11). -/
def Core.showSi (c : Core) (n : Nat) : Core :=
  let x := c.selIn n
  let cause := c.siCause n
  let shown := if x.failed then cause else if x.wtr.isSome then 4 else if c.lockedOut n then 5 else 0
  let left := match x.wtr with | some f => (f + 7999) / 8000 | none => 0
  c.wr (tim (0x210 + 4 * n))
    (BitVec.ofNat 32 ((if x.failed then 1 else 0) + shown * 2 + c.siQl n * 16 + (if x.failed && !x.counted then 256 else 0) +
      left * 512))

/-- TIM_CMD evaluated (R335). -/
def Core.timCmdEval (c : Core) (w : Word) : Core :=
  let st := c.rd (tim 0xB34)
  let n := fld w 3 3
  let cause : Nat := match fld w 1 2 with
    | 1 => if !c.siEn n then 1 else 0
    | 2 => if fld st 14 2 = 1 then 3 else if !c.siEn n then 1 else if !c.manualOk n then 2 else 0
    | _ => 0
  let st := setFld (setFld (setFld st 0 1 0) 1 2 (if cause = 0 then 1 else 2)) 3 3 cause
  let st := if cause ≠ 0 then st else match fld w 1 2 with
    | 0 => setFld (setFld st 14 2 0) 16 3 0
    | 1 => setFld (setFld st 14 2 1) 16 3 n
    | 2 => setFld (setFld st 14 2 2) 16 3 n
    | _ => setFld st (6 + n) 1 (fld w 6 1)
  (c.wr (tim 0xB34) st).ev (tim 0x400) (bit 6)

/-- A pending TIM_CMD at a boundary, and a held MANUAL whose input no longer meets its condition (R335). -/
def Core.timCmdFrame (c : Core) : Core :=
  let c := match c.timS.cmd with
    | some (w, 0) => { c with timS := { c.timS with cmd := none } }.timCmdEval w
    | some (w, k + 1) => { c with timS := { c.timS with cmd := some (w, k) } }
    | none => c
  if c.gf (tim 0xB34) 14 2 = 2 ∧ c.manualOk (c.gf (tim 0xB34) 16 3) = false then
    (c.sf (tim 0xB34) 14 2 0).sf (tim 0xB34) 16 3 0
  else c

/-- S1 of every port, and TIM_QL_TX (R336). -/
def Core.qlFrame (c : Core) : Core :=
  let old := c.gf (tim 0x230) 0 4
  let rank := match c.loop with
    | 4 => old
    | 0 => c.gf (tim 0x40) 8 4
    | 3 => c.gf (tim 0x40) 8 4
    | _ => match c.selNow with | some n => c.siQl n | none => old
  let c := if rank = old then c else (c.cn (tim 0x510) 1).ev (tim 0x400) (bit 3)
  let c := c.wr (tim 0x230) (BitVec.ofNat 32 (rank + qlCode false rank * 16 + qlCode true rank * 256))
  let back := match c.selNow with
    | some n => if c.gb (tim 0x40) 2 && decide (c.siGauge n < 24) then some (c.gf (gaR (c.siGauge n) 4) 0 8) else none
    | none => none
  forN 96 (fun p c =>
    let sonet := c.gf (pe p 0x208) 4 2 = 2
    let r := if c.gb (tim (0xB24 + 4 * (p / 32))) (p % 32) || back = some p then 15 else rank
    c.updPort p fun x => { x with tx := { x.tx with s1 := BitVec.ofNat 8 (qlCode sonet r) } }) c

/-- The running second of the loop (R327). -/
def Core.loopSecond (c : Core) : Core :=
  let t := c.timS
  let t := { t with secSum := t.secSum + (c.rd (tim 0x204)).toInt, secN := t.secN + 1,
                    secLocked := t.secLocked && decide (c.loop = 2) }
  let t := if t.secN < 8000 then t
    else { t with hist := ((if t.secLocked then some (t.secSum / 8000) else none) :: t.hist).take 1024,
                  secSum := 0, secN := 0, secLocked := true }
  let c := { c with timS := t }
  let n := max 1 (c.gf (tim 0x44) 12 10)
  c.sb (tim 0x200) 8 (decide (n ≤ ((t.hist.take (n + 1)).filterMap id).length))

/-- The runs of R326, |TIM_PHERR| against LOCK_WIN × 10 ns, 398.1312 q each. -/
def Core.lockRuns (c : Core) : Core :=
  let win := max 1 (c.gf (tim 0x44) 2 8)
  let out := win * 3981312 < (c.rd (tim 0x208)).toInt.natAbs * 10000
  let t := c.timS
  if c.loop = 1 then { c with timS := { t with lockRun := if out then 0 else t.lockRun + 1 } }
  else if c.loop = 2 then { c with timS := { t with lossRun := if out then t.lossRun + 1 else 0 } }
  else c

/-- SLOPE limiting in the frame: whether the loop's phase rate met the limit is the loop filter's, a free value. -/
def Core.slopeFrame (c : Core) : Core :=
  let can := (c.loop = 1 || c.loop = 2) && !c.gb (tim 0x40) 1 && c.gf (tim 0x44) 10 2 != 0
  let hit := can && Config.freeNat c.freeCtr % 2 = 1
  let c := if can then c.fresh else c
  (c.sb (tim 0x200) 10 hit).cn (tim 0x518) (if hit then 1 else 0)

/-- The timing part of a frame boundary: Gauges, the loop's runs, the inputs, commands, selection and S1. -/
def Core.timingFrame (c : Core) : Core :=
  let c := forN 24 (fun g c => c.gaugeFrame g) c
  let c := c.sb (tim 0xB38) 1 false
  if !c.d06 then c
  else
    let c := c.lockRuns.slopeFrame.loopSecond
    let c := forN 8 (fun n c => c.siFrame n) c
    let c := c.timCmdFrame
    let c := if c.loop = 4 then { c with timS := { c.timS with hold := c.timS.hold + 1 } } else c
    let selFails : Bool := match c.selNow with | some n => (c.selIn n).failed | none => false
    let c := if selFails && (c.loop = 1 || c.loop = 2) then c.bridge else c
    let c := if !selFails && c.loop = 4 && c.selNow.isSome then
        let t := c.timS
        let c := c.setLoop t.before
        { c with timS := { c.timS with lockRun := t.lockRun, lossRun := t.lossRun } }
      else c
    let c := c.sb (tim 0x200) 9 c.mateInput.isSome
    let c := c.setSel c.selChoice
    let c := forN 8 (fun n c => c.showSi n) c
    c.qlFrame

/-- The hold-off of the selector ends (R327, R334): the failure counts, and the loop leaves BRIDGE. -/
def Core.holdoffEnd (c : Core) : Core :=
  if c.loop = 4 ∧ min 18 (c.gf (tim 0xB00) 0 5) * 800 ≤ c.timS.hold then
    let c := match c.selNow with
      | some n => if (c.selIn n).failed then c.setSelIn n { c.selIn n with counted := true, wtr := none } else c
      | none => c
    let ch := c.selChoice
    let c := c.setSel ch
    let c := if ch.isSome then c else c.setLoop (if c.hoSeconds = [] then 0 else 3)
    let c := forN 8 (fun n c => c.showSi n) c
    c.qlFrame
  else c

/-- WTR of an input over (R334). -/
def Core.siWtrEnd (c : Core) (n : Nat) : Core :=
  let x := c.selIn n
  if x.wtr = some 0 then
    let c := (c.setSelIn n { x with wtr := none }).showSi n
    c.ev (tim 0x400) (bit 2)
  else c

def Core.loopLock (c : Core) : Core := if c.loop = 1 ∧ 16000 ≤ c.timS.lockRun then c.setLoop 2 else c
def Core.loopLoss (c : Core) : Core := if c.loop = 2 ∧ 800 ≤ c.timS.lossRun then (c.setLoop 1).cn (tim 0x508) 1 else c

/-- TIM_CMD.GO accepted (R335). -/
def Core.timCmdGo (c : Core) (w : Word) (left : Nat) : Core :=
  let c := (c.sf (tim 0xB34) 1 2 0).sf (tim 0xB34) 3 3 0
  { (c.sb (tim 0xB34) 0 true) with timS := { c.timS with cmd := some (w, if left < 8 then 1 else 0) } }

/-! ## Coefficients and swaps (R319, R339) -/

/-- The coefficient at a Gauge, a bank and a tap. -/
def Core.coefAt (c : Core) (g : Nat) (b : Bool) (t : Nat) : BitVec 20 :=
  Sparse.get (fun _ => 0) c.timS.coef (g * 128 + (if b then 64 else 0) + t)

/-- GA_COEF_DATA as it reads: the coefficient at GA_COEF_ADDR, sign-extended (Table 10-12). -/
def Core.coefRead (c : Core) (i : Nat) : Word :=
  let a := c.rd (ga i 0xE00)
  if 12 ≤ fld a 0 4 then 0 else (c.coefAt (12 * i + fld a 0 4) (bitOf a 4) (fld a 5 6)).signExtend 32

/-- TAP advanced after an access, with AUTO_INC. -/
def Core.coefStep (c : Core) (i : Nat) : Core :=
  let a := c.rd (ga i 0xE00)
  if bitOf a 16 then c.wr (ga i 0xE00) (setFld a 5 6 (fld a 5 6 + 1)) else c

/-- A write of GA_COEF_DATA: refused with cause 0x5 past Gauge 11, and with cause 0x1 into the active bank of a Gauge with
GEN = 1 (R319). -/
def Core.coefWrite (c : Core) (i : Nat) (v : Word) : Core :=
  let a := c.rd (ga i 0xE00)
  let l := fld a 0 4
  let g := 12 * i + l
  if 12 ≤ l then c.ign (ga i 0xE04) 5
  else if c.gb (gaR g 0) 0 && (c.gb (gaR g 0x18) 1 = bitOf a 4) then
    (c.ign (ga i 0xE04) 1).sb (ga i 0xE08) 0 true
  else
    let c := c.sb (ga i 0xE08) 0 false
    { c with timS := { c.timS with
      coef := Sparse.put (fun _ => 0) c.timS.coef (g * 128 + (if bitOf a 4 then 64 else 0) + fld a 5 6) (v.extractLsb' 0 20) } }

/-- A swap to a bank completes (R339). -/
def Core.swapDone (c : Core) (g : Nat) (dst : Bool) : Core :=
  let c := ((c.sb (gaR g 0x18) 1 dst).sb (gaR g 0x18) 3 false).sb (gaR g 0x18) 4 false
  (c.updGauge g fun x => { x with swap := none }).gaEv g (bit 3)

/-- The sources as a boundary finds them: markers counted, the TREF pins shown, and every Gauge told (R315, R322). -/
def Core.gaugeSources (c : Core) (tref : List (Fin 4 × List Nat)) : Core :=
  let c := { c with timS := { c.timS with mark := false, marks := if c.timS.mark then c.timS.marks + 1 else 0 } }
  let ages (k : Nat) : List Nat := match tref.find? (·.1.val = k) with | some q => q.2 | none => []
  let c := forN 4 (fun k c => c.showTref k (c.trefUp k (ages k))) c
  forN 24 (fun g c =>
    let s := c.gf (gaR g 4) 0 8
    if c.en (0xA + g / 12) then c.gaugePresent g (c.srcUp s (ages (s - 96))) else c) c

/-- Whether a Gauge is part of a running cross-fade. -/
def Core.inFade (c : Core) (g : Nat) : Bool := c.gb (gaR g 0x18) 2

/-- A recorded swap request (R339). -/
def Core.swapReq (c : Core) (g : Nat) (dst : Bool) : Core :=
  if c.inFade g then
    let c := ((c.sb (gaR g 0x18) 3 true).sb (gaR g 0x18) 4 dst).gaEv g (bit 4)
    c.updGauge g fun x => { x with swap := some dst }
  else if c.gb (gaR g 0x18) 1 = dst ∨ !c.gb (gaR g 0) 0 then c.swapDone g dst
  else c.updGauge g fun x => { x with swap := some dst }

/-- A final output sample (R318, R323) with the swap due at it, its wander record (R340) and its steering (R325). -/
def Core.gaugeOutput (c : Core) (g : Nat) (_m : List Host.Cell) : Core × List MemOp :=
  let x := c.gauge g
  if !x.due ∨ !c.gaugeOn g then (c, [])
  else
    let c : Core := match x.swap with | some dst => if c.inFade g then c else c.swapDone g dst | none => c
    let t := c.gaT g
    let bank := c.gb (gaR g 0x18) 1
    let cs := (List.range t).map fun k => (c.coefAt g bank k).toInt
    let y := stageOut 32 (c.gf (gaR g 0xC) 15 5) (dot cs x.fir)
    let sat := x.sat || y.2
    let seq := (c.rd (gaR g 0x1C)).toNat + 1
    let c := c.updGauge g fun x => { x with due := false, sat := false }
    let c := c.wr (gaR g 0x1C) (BitVec.ofNat 32 seq)
    let c := if sat then (c.cn (ga (g / 12) (0x530 + 4 * (g % 12))) 1).gaEv g (bit 2) else c
    let was := c.gb (gaR g 0x18) 0
    let ok := was || decide (t + 14 ≤ seq)
    let c := if ok then (c.setValid g true).wr (gaR g 0x20) (BitVec.ofInt 32 y.1)
      else c.cn (ga (g / 12) (0x500 + 4 * (g % 12))) 1
    let c := c.showSettle g true
    let b0 := x.last
    let c := if ok then (c.updGauge g fun x => { x with last := y.1 }).steerSample g (if was then b0 else y.1) y.1
      else c
    let div := c.gf (gaR g 0x14) 0 16
    if c.gb (ga (g / 12) 0x40) 0 && div != 0 && seq % div = 0 && c.orReady then
      let x : Gauge := c.gauge g
      let base := orBase + 0x1C000000 + g * 0x100000
      let start := if x.recs = 0 then c.frame else x.start
      let flags := (if ok then 1 else 0) + (if c.inFade g then 2 else 0) + (if bank then 4 else 0) + (if sat then 8 else 0) +
        x.recs % 2 ^ 28 * 16
      let head := le 8 x.recs ++ le 4 div ++ le 4 (c.rd (gaR g 8)).toNat ++ le 4 (c.rd (gaR g 0xC)).toNat ++
        le 4 (c.rd (gaR g 4)).toNat ++ le 8 start ++ List.replicate 32 0
      (c.srExit.setGauge g { x with recs := x.recs + 1, start := start },
        [.write (base + 0x40 + x.recs % 131064 * 8) (le 4 (c.rd (gaR g 0x20)).toNat ++ le 4 flags), .write base head])
    else (c, [])

/-- Output samples due that no row has taken. -/
def Core.gaugesDue (c : Core) (m : List Host.Cell) : Core × List MemOp :=
  forN 24 (fun g r => let q := r.1.gaugeOutput g m; (q.1, r.2 ++ q.2)) (c, [])

/-! ## What register writes of these pages do -/

/-- GA_CTL written: GEN turned on is a reset cause (R321), GEN turned off stops the Gauge, and the commands of bits 1
and 2. `old` is the value before, `v` the value written. -/
def Core.gaCtlWrite (c : Core) (g : Nat) (old v : Word) : Core :=
  let c := if !bitOf old 0 && bitOf v 0 && c.en (0xA + g / 12) then c.gaugeReset g else c
  let c := if bitOf old 0 && !bitOf v 0 then ((c.setValid g false).showSettle g false) else c
  let c := if bitOf v 1 then (c.gaugeReset g).sb (gaR g 0) 8 true else c
  if bitOf v 2 then c.swapReq g (bitOf v 3) else c

/-- GA_SRC written: a changed SRC is a reset cause (R321), its presence is found afresh, and the wander records start
again (R340). -/
def Core.gaSrcWrite (c : Core) (g : Nat) (old : Nat) : Core :=
  let s := c.gf (gaR g 4) 0 8
  if old = s then c
  else
    let c := c.gaugePresent g false
    let c := c.gaugeReset g
    let c := if s < 96 ∨ s = 100 then c.inputFound g [] true else c
    c.updGauge g fun x => { x with recs := 0 }

/-- The wander records of a Gauge start again (R340). -/
def Core.wanderRestart (c : Core) (g : Nat) : Core := c.updGauge g fun x => { x with recs := 0 }

/-- TIM_GA_SYNC.SYNC: every running Gauge takes a synchronising reset (R321). -/
def Core.gaSync (c : Core) : Core :=
  (forN 24 (fun g c => if c.gaugeOn g then c.gaugeReset g else c) c).sb (tim 0xB38) 1 true

/-- The GA page's EN turned on or off (R320, R321). -/
def Core.gaPageOn (c : Core) (i : Nat) : Core :=
  forN 12 (fun k c => if c.gb (gaR (12 * i + k) 0) 0 then c.gaugeReset (12 * i + k) else c) c
def Core.gaPageOff (c : Core) (i : Nat) : Core :=
  forN 12 (fun k c => (c.setValid (12 * i + k) false).showSettle (12 * i + k) false) c

/-- The FSYNC8K pin: active from a frame boundary on with FS_EN = 1, and inactive again after its 64 D06 cycles, which the model ends with the
next Levee tick (R330; the tick is a DESIGN CHOICE). -/
def Core.fsyncPin (c : Core) (on : Bool) : Core :=
  { c with timS := { c.timS with fsync := (on && c.gb (tim 0x40) 5) != c.gb (tim 0x40) 6 } }

/-- TIM enabled: D07, D06 and D08 run, the frame number restarts at 0, the loop is in FREERUN (R63, R324, R329). -/
def Core.timStart (c : Core) : Core :=
  let c := { c with d06 := true, frame := 0, pmSec := 0, harvest := none, timS :=
    { c.timS with fade := none, delta := 0, x := 0, hold := 0, lockRun := 0, lossRun := 0, secSum := 0, secN := 0,
                  secLocked := true, hist := [], sis := [] } }
  let c := (((c.sf (tim 0x200) 0 11 0).wr (tim 0x204) 0).wr (tim 0x208) 0).ev (tim 0x400) (bit 0)
  if (List.range 6).any c.bankOn then c.report 110 else c

/-- TIM disabled: D06 stops, every transmit lane idles, a map commit in progress ends as R503 says (R329). -/
def Core.timStop (c : Core) : Core :=
  let c := { c with d06 := false }
  let c := forN 96 (fun p c => ((c.sb (pe p 0x200) 6 false).sb (bk (p / 16) 0x204) (p % 16) false).updPort p fun x =>
    { x with txRate := 0, txSettle := 0, tx := { x.tx with out := [], loop := [] } }) c
  (c.fsyncPin false).stopReq 5 8

/-! ## The meanings of the timing rows -/

def execGaugeInputEvent (g : GaugeNo) (phase : Nat) (s : State) : Host.Outcome State Fault Refusal :=
  s.on (·.gaugeInput g.val phase)
def execGaugeOutputSample (g : GaugeNo) (s : State) : Host.Outcome State Fault Refusal := s.onMem (·.gaugeOutput g.val ·)
def execInputLost (g : InputSeen) (s : State) : Host.Outcome State Fault Refusal := s.on (·.inputFound g.gauge.val g.ages false)
def execInputBack (g : InputSeen) (s : State) : Host.Outcome State Fault Refusal := s.on (·.inputFound g.gauge.val g.ages true)
def execLoopLock (s : State) : Host.Outcome State Fault Refusal := s.on (·.loopLock)
def execLoopLockLoss (s : State) : Host.Outcome State Fault Refusal := s.on (·.loopLoss)
def execRefHoldoffEnd (s : State) : Host.Outcome State Fault Refusal := s.on (·.holdoffEnd)
def execRefWtrEnd (n : Fin 8) (s : State) : Host.Outcome State Fault Refusal := s.on (·.siWtrEnd n.val)

end Sys2Proof.Machine
end

