-- ==== Sys2Proof/Machine/CheckUnit.lean ====
section
/-! DEFINITION. The Check Units (chapter 12). -/

namespace Sys2Proof.Machine

/-- RESULT codes (Table 12-4). -/
abbrev cuDone : Nat := 1
abbrev cuMatch : Nat := 2
abbrev cuMismatch : Nat := 3
abbrev cuMisdirect : Nat := 4
abbrev cuSuspended : Nat := 5
abbrev cuAborted : Nat := 6
abbrev cuRefused : Nat := 7
abbrev cuPoisonedR : Nat := 8

/-- A profile (R367). -/
structure Profile where
  width : Nat
  poly : Nat
  init : Nat
  xorout : Nat
  refin : Bool
  refout : Bool
  deriving DecidableEq, Repr

def Core.profile (c : Core) (p : Nat) : Profile :=
  let r (o : Nat) := (c.rd (cuP (0x40 + p * 0x20 + o))).toNat
  let w := c.gf (cuP (0x40 + p * 0x20 + 0x18)) 0 7
  let q (o : Nat) := (r o + r (o + 4) * 2 ^ 32) % 2 ^ w
  { width := w, poly := q 0, init := q 8, xorout := q 16
    refin := c.gb (cuP (0x40 + p * 0x20 + 0x18)) 7, refout := c.gb (cuP (0x40 + p * 0x20 + 0x18)) 8 }

/-- The register after bytes (R368). -/
def Profile.run (q : Profile) (r : Nat) (bs : List Byte) : Nat := crcRun q.width q.poly r q.refin bs

/-- The final reflection and XOR (R368). -/
def Profile.finish (q : Profile) (r : Nat) : Nat := (if q.refout then reflect q.width r else r) ^^^ q.xorout

/-- The initial value with FOLD 1 (R369). -/
def Profile.start (q : Profile) (fold v : Nat) : Nat := if fold = 1 then q.init ^^^ (v % 2 ^ q.width) else q.init

/-- The bytes FOLD 2 appends (R369). -/
def foldBytes (fold len v : Nat) : List Byte := if fold = 2 then le (len + 1) v else []

/-- C, the number of check bytes (R370). -/
def Profile.checkBytes (q : Profile) : Nat := (q.width + 7) / 8

def Core.cuJob (c : Core) (u : Nat) : CuJob := Sparse.get (fun _ => {}) c.cuS u
def Core.setCuJob (c : Core) (u : Nat) (x : CuJob) : Core := { c with cuS := Sparse.put (fun _ => {}) c.cuS u x }
def Core.cuOpen (c : Core) (u : Nat) : Bool := c.gb (cuR u 0) 9
def Core.cuCmd (c : Core) (u : Nat) : Bool := c.gb (cuR u 0) 11

/-- CU_VAL of a unit given a value. -/
def Core.setCuVal (c : Core) (u v : Nat) : Core :=
  (c.wr (cuR u 0xC) (BitVec.ofNat 32 v)).wr (cuR u 0x10) (BitVec.ofNat 32 (v / 2 ^ 32))
def Core.cuVal (c : Core) (u : Nat) : Nat := (c.rd (cuR u 0xC)).toNat + (c.rd (cuR u 0x10)).toNat * 2 ^ 32

/-- How many of the bytes fed are held back (R373). -/
def Core.cuHeld (c : Core) (u n : Nat) : Nat :=
  let j := c.rd (cuR u 4)
  if bitOf j 8 then min n (c.profile (fld j 0 4)).checkBytes else 0

/-- The running value over the bytes absorbed (R376). -/
def Core.cuRunning (c : Core) (u : Nat) : Nat :=
  let x := c.cuJob u
  (c.profile (c.gf (cuR u 4) 0 4)).run x.init (x.bytes.take (x.bytes.length - c.cuHeld u x.bytes.length))

/-- The counter of a result (Table 12-3). -/
def cuCounts (res : Nat) : List Nat :=
  match res with
  | 1 => [0x500] | 2 => [0x500, 0x504] | 3 => [0x500, 0x508] | 4 => [0x500, 0x50C]
  | 5 => [0x51C] | 6 => [0x510] | 7 => [0x514] | 8 => [0x518] | _ => []

/-- A job ends with a result, a cause and a DELTA; a command job's command is completed from it (R370, R374). -/
def Core.cuEnd (c : Core) (u res cause delta held : Nat) : Core :=
  let x := c.cuJob u
  let w := c.rd (cuR u 0) &&& 0x30
  let c := c.wr (cuR u 0) (w ||| BitVec.ofNat 32 (res * 2 ^ 12 + held * 2 ^ 16 + delta % 512 * 2 ^ 20 + cause * 2 ^ 29))
  let c := ((c.sb (cuP 0x200) u false).ev (cuP 0x400) (bit u)).setCuJob u {}
  let c := forL (cuCounts res) (fun o c => c.cn (cuP o) 1) c
  let run : Nat := Sparse.get (fun _ => 0) c.levS.periods 9
  let c := if c.en 9 then { c with levS := { c.levS with periods := Sparse.put (fun _ => 0) c.levS.periods 9 (run + 1) } } else c
  match x.cmd with
  | none => c
  | some (id, _, _) =>
    c.fixCmd id (if res = cuPoisonedR then stPoisoned else if res = cuRefused then stRefused else stOk)
      (le 4 (c.rd (cuR u 0)).toNat ++ le 8 (c.cuVal u))

/-- A job starts on a unit: refused for its profile or its fold, or open with its initial value (R367, R369, R373). -/
def Core.cuStart (c : Core) (u : Nat) (cmd : Option (Nat × Nat × Nat)) : Core :=
  let j := c.rd (cuR u 4)
  let q := c.profile (fld j 0 4)
  let c := c.setCuJob u { cmd := cmd }
  if 9 < fld j 0 4 ∨ q.width = 0 ∨ 64 < q.width then c.cuEnd u cuRefused 1 0 0
  else if fld j 4 2 = 3 then c.cuEnd u cuRefused 2 0 0
  else
    let init := if bitOf j 10 then c.cuVal u % 2 ^ q.width else q.start (fld j 4 2) (c.rd (cuR u 8)).toNat
    let c := c.setCuJob u { init := init, cmd := cmd }
    let c := c.wr (cuR u 0) ((c.rd (cuR u 0) &&& 0x30) ||| bit 9 ||| (if cmd.isSome then bit 11 else 0))
    (c.sb (cuP 0x200) u true).setCuVal u init

/-- The candidates of the misdirect search, in order (R371). -/
def mdOrder (m : Nat) : List Int := (List.range m).flatMap fun (k : Nat) => [Int.ofNat (k + 1), -Int.ofNat (k + 1)]

/-- A job over its whole stream: the result, the value and the DELTA (R370, R371). -/
def cuCompute (q : Profile) (j fold : Word) (init : Nat) (bs : List Byte) : Nat × Nat × Nat :=
  let f := fld j 4 2
  let len := fld j 6 2
  let v := fold.toNat
  let value (i v : Nat) (xs : List Byte) : Nat := q.finish (q.run i (xs ++ foldBytes f len v))
  if !bitOf j 8 then (cuDone, value init v bs, 0)
  else
    let n := bs.length - q.checkBytes
    let data := bs.take n
    let chk := bs.drop n
    let want := unle (if bitOf j 9 then chk.reverse else chk) % 2 ^ q.width
    let got := value init v data
    if got = want then (cuMatch, got, 0)
    else
      let m := fld j 16 8
      let seen (x : Nat) : Nat := if f = 1 then x % 2 ^ q.width else x % 2 ^ (8 * (len + 1))
      let hit : Option Int :=
        if (f = 1 || f = 2) && !(bitOf j 10 && f = 1) then
          (mdOrder m).find? fun k =>
            let x := (BitVec.ofInt 32 (v + k)).toNat
            seen x != seen v && value (if f = 1 then q.start 1 x else init) x data = want
        else none
      match hit with
      | some k => (cuMisdirect, got, (BitVec.ofInt 9 k).toNat)
      | none => (cuMismatch, got, 0)

/-- The result of a job is written: of a register job after FINISH, of a command job after its range is read. -/
def Core.cuResult (c : Core) (u : Nat) (m : List Host.Cell) : Core × List MemOp :=
  let x := c.cuJob u
  if !c.cuOpen u || !c.en 9 then (c, [])
  else
    let j := c.rd (cuR u 4)
    let q := c.profile (fld j 0 4)
    let go (c : Core) (bs : List Byte) : Core :=
      if bitOf j 8 && decide (bs.length < q.checkBytes + 1) then c.cuEnd u cuRefused 2 0 0
      else
        let r := cuCompute q j (c.rd (cuR u 8)) x.init bs
        (c.setCuVal u r.2.1).cuEnd u r.1 0 r.2.2 0
    match x.cmd with
    | none => if c.gb (cuR u 0) 8 then (go c x.bytes, []) else (c, [])
    | some (_, o, n) =>
      if c.orPoison o n then (c, [])
      else (go (c.srExit.cn (rsv 0x534) ((n + 31) / 32)) (memBytes m (orBase + o) n), [])

/-- CU_VAL given a free value: undefined after an ABORT (R377), and not stated where a command job stops partway. -/
def Core.cuLose (c : Core) (u : Nat) : Core :=
  let w := (c.profile (c.gf (cuR u 4) 0 4)).width
  let v := ((Config.freeWord c.freeCtr).toNat + (Config.freeWord (c.freeCtr + 1)).toNat * 2 ^ 32) % 2 ^ w
  (c.setCuVal u v).fresh.fresh

/-- A line read of a command job returned poison (R374). -/
def Core.cuPoison (c : Core) (u : Nat) : Core :=
  match (c.cuJob u).cmd with
  | some (_, o, n) => if c.cuOpen u && c.en 9 && c.orPoison o n then (c.cuLose u).cuEnd u cuPoisonedR 0 0 0 else c
  | none => c

/-- An open job aborted with a cause (R374, R377). -/
def Core.cuAbortJob (c : Core) (u cause : Nat) : Core :=
  if !c.cuOpen u then c
  else (if cause = 5 ∨ (c.cuJob u).cmd.isSome then c.cuLose u else c).cuEnd u cuAborted cause 0 0

/-- Every open job ends: the page disabled or reset (R377). -/
def Core.cuAbortAll (c : Core) : Core := forN 32 (fun u c => c.cuAbortJob u 6) c

/-- A host write to CU_CTL: its command bits against the companions as they stood (R70, R373, R375–R377). -/
def Core.cuCtlWrite (c : Core) (u : Nat) (v : Word) : Core :=
  let isOpen := c.cuOpen u
  let busy := c.gb (cuR u 0) 8
  let late := c.gb (cuR u 0) 10
  let c := c.sf (cuR u 0) 4 2 (fld v 4 2)
  let c := if bitOf v 0 then (if isOpen then c.ign (cuR u 0) 8 else if c.en 9 then c.cuStart u none else c) else c
  let c := if (bitOf v 1 || bitOf v 2) && busy then c.ign (cuR u 0) 8 else c
  let c := if bitOf v 1 && isOpen && !busy then
      let x := c.cuJob u
      let t := fld v 4 2
      let bs := if x.bytes = [] ∨ t = 0 then x.bytes else x.bytes.take (x.bytes.length - (4 - t))
      (c.setCuJob u { x with bytes := bs }).sb (cuR u 0) 8 true
    else c
  let c := if bitOf v 2 && isOpen && !busy && !bitOf v 1 then
      let held := c.cuHeld u (c.cuJob u).bytes.length
      (c.setCuVal u (c.cuRunning u)).cuEnd u cuSuspended 0 0 held
    else c
  if !bitOf v 3 then c
  else if late then c.ign (cuR u 0) 8
  else if isOpen then (c.cuAbortJob u 5).sb (cuR u 0) 10 true
  else c

/-- ABORT_BUSY reads 1 from an ABORT until the next tick or boundary (R69). -/
def Core.cuSettle (c : Core) : Core := forN 32 (fun u c => if c.gb (cuR u 0) 10 then c.sb (cuR u 0) 10 false else c) c

/-- A write of CU_DIN (R373): four stream bytes to the selected unit's open job. -/
def Core.cuDin (c : Core) (v : Word) : Core :=
  let u := c.gf (cuP 0xB00) 0 5
  if c.cuCmd u then c.ign (cuP 0xB04) 1
  else if !c.cuOpen u || c.gb (cuR u 0) 8 then c
  else
    let x := c.cuJob u
    let c := c.setCuJob u { x with bytes := x.bytes ++ le 4 v.toNat }
    (c.sf (cuR u 0) 16 4 (c.cuHeld u (x.bytes.length + 4))).setCuVal u (c.cuRunning u)

/-- The check command's job (R374, R375): refused on an open unit, or where the page does not run its units. -/
def Core.cuCheck (c : Core) (id u : Nat) (job fold : Word) (o n : Nat) : Core :=
  if c.cuOpen u || !c.en 9 then c.fixCmd id stRefused (le 4 (c.rd (cuR u 0)).toNat ++ le 8 (c.cuVal u))
  else ((c.wr (cuR u 4) (job &&& 0xFF07FF)).wr (cuR u 8) fold).cuStart u (some (id, o, n))

/-- The job of a command withdrawn at its deadline or by an ABORT: ABORTED, cause 4 (R374, R398). -/
def Core.cuWithdraw (c : Core) (id : Nat) : Core :=
  forN 32 (fun u c => match (c.cuJob u).cmd with
    | some (k, _, _) => if k = id then c.cuAbortJob u 4 else c
    | none => c) c

def execCuResult (u : UnitNo) (s : State) : Host.Outcome State Fault Refusal := s.onMem (·.cuResult u.val ·)
def execCuPoisoned (u : UnitNo) (s : State) : Host.Outcome State Fault Refusal := s.on (·.cuPoison u.val)

end Sys2Proof.Machine
end

