-- ==== Sys2Proof/Machine/Levee.lean ====
section
/-! DEFINITION. The Levee: Warden states and their watchdog, power states and islands, resets and start-up (chapter 16), with
what a page keeps across each of them (R499, Table 16-2). -/

namespace Sys2Proof.Machine

/-! ## Warden states (section 14.4) and the watchdog (R456) -/

/-- The watchdog's period in ticks. -/
def Core.wdtPeriod (c : Core) : Nat := max 1 (c.gf (lev 0xB0C) 0 16) * 1024

/-- The watchdog reloaded. -/
def Core.wdtReload (c : Core) : Core :=
  { c with levS := { c.levS with wdtRun := 0 } }.wr (lev 0x228) (BitVec.ofNat 32 c.wdtPeriod)

/-- The watchdog armed in RUNNING and SLEEPING, disarmed in every other state; arming reloads it. -/
def Core.wdtArm (c : Core) : Core :=
  let was := c.gb (lev 0x200) 5
  let c := c.sb (lev 0x200) 5 (!c.wDown)
  if c.wDown then (c.wr (lev 0x228) 0).sb (lev 0x200) 6 false else if was then c else c.wdtReload

/-- A Warden state entered: shown, with its events, the watchdog and WDOWN following. -/
def Core.setW (c : Core) (st : Nat) : Core :=
  if c.wState = st then c
  else
    let c := ((c.sf (hif 0x20C) 0 3 st).sf (wrd 0x200) 0 3 st).ev (hif 0x400) (bit 10)
    let c := (c.ev (wrd 0x400) (bit 0)).wdtArm
    (c.sb (spw 0 0x254) 4 c.wDown).sb (spw 1 0x254) 4 c.wDown

/-- Frames within which the restarts are counted (R418). -/
abbrev restartWindow : Nat := 480000

/-- The automatic restarts of the last 480,000 frames (60 s), with RESTARTS_60S. -/
def Core.recentRestarts (c : Core) : List Nat := c.wrdS.restarts.filter fun t => decide (c.levS.frames < t + restartWindow)
def Core.showRestarts (c : Core) : Core := c.sf (wrd 0x200) 8 2 (min 3 c.recentRestarts.length)

/-- A pending attestation request of the DOE answered without a report (R388). -/
def Core.doeError (c : Core) : Core :=
  if c.hifS.doe then
    let c := { c with hifS := { c.hifS with doe := false }
                      linkOut := [LinkResp.doe []]
                      wrdS := { c.wrdS with attest := c.wrdS.attest.filter (·.1.isSome) } }
    (((c.sb (hif 0x208) 0 false).sb (hif 0x208) 1 true).sb (hif 0x208) 2 true).ev (hif 0x400) (bit 8) |>.cn (hif 0x52C) 1
  else c

/-- Every outstanding command whose completion is not fixed completes NO_WARDEN (R400), but a CHECK whose job runs and a
MAP_COMMIT whose boundary has begun (R263). -/
def Core.noWarden (c : Core) : Core :=
  let live (k : Cmd) : Bool := ((List.range 32).any fun u => match (c.cuJob u).cmd with
    | some q => q.1 = k.id | none => false) ||
    (c.commitDue && (match c.rsvS.req with | some q => q.cmd = some k.id | none => false))
  forL (c.cmds.filter fun k => !k.fixed && !live k) (fun k c => c.fixCmd k.id stNoWarden []) c

/-- A commit request ends CANCELLED with cause FAILED as the Warden fails (R263): an armed MAP_COMMIT's completion carries it. -/
def Core.failReq (c : Core) : Core :=
  let armed := if c.gf (rsv 0x208) 1 2 = 2 then (c.rsvS.req.filter fun q => q.capsule.isNone).bind (·.cmd) else none
  let c := { c with rsvS := { c.rsvS with req := c.rsvS.req.map fun (q : Req) => { q with cmd := none } } }
  let c := c.stopReq 4 7
  c.fixOpt armed stNoWarden (le 4 (c.rd (rsv 0x208)).toNat)

/-- The Warden enters FAILED (R417, R263, R400): the planes freeze, a commit ends CANCELLED with cause FAILED, which an
armed MAP_COMMIT carries, unless its boundary has begun (R28), and an automatic restart is due after causes 1 to 3 within the limit of R418. -/
def Core.wardenFail (c : Core) (cause : Nat) : Core :=
  let auto := decide (cause ≤ 3) && c.gb (wrd 0x40) 1
  let limit := auto && decide (3 ≤ c.recentRestarts.length)
  let c := c.setW 4
  let c := ((c.sf (wrd 0x200) 4 3 (if limit then 5 else cause)).cn (wrd 0x504) 1).ev (wrd 0x400) (bit 1)
  let c := (c.wr (wrd 0x20C) (BitVec.ofNat 32 c.frame)).sb (rsv 0x200) 7 true
  let c := (if c.commitDue then c else c.failReq).noWarden.doeError
  ({ c with wrdS := { c.wrdS with
      fw := none, cap := none, left := none, staging := false
      hold := if auto && !limit then some 8 else none
      ledger := c.wrdS.ledger.filter (·.isNone)
      attest := c.wrdS.attest.filter (·.1.isNone) } } : Core).showRestarts

/-- A Warden reset (Table 16-2): FAILED with cause 2, from RUNNING or SLEEPING (Table 14-5). -/
def Core.wardenReset (c : Core) : Core := if c.wDown then c else c.wardenFail 2

/-- A sleeping Warden wakes (R27, R457). -/
def Core.wakeWarden (c : Core) (cause : Nat) : Core :=
  if c.wState = 3 then ((c.leaveL1.setW 2).cn (wrd 0x51C) 1).wakeLast cause else c

/-! ## Commands withdrawn (R398, R399, R382) -/

/-- The effect of an outstanding command withdrawn: its armed commit is cancelled, its Check Unit job ends ABORTED, its
image is not run, its capsule is not applied, and its Ledger, report or protection command is given up. -/
def Core.withdraw (c : Core) (id : Nat) : Core :=
  let mine : Bool := match c.rsvS.req with | some q => q.cmd = some id | none => false
  let c := if mine then c.stopReq 4 10 else c
  let c := c.cuWithdraw id
  let c := match c.sluS.xcmd with
    | some q => if q.cmd = some id then { c with sluS := { c.sluS with xcmd := none } }.sb (slu 0xB04) 0 false else c
    | none => c
  let c := { c with wrdS := { c.wrdS with
      ledger := c.wrdS.ledger.filter (· ≠ some id)
      attest := c.wrdS.attest.filter fun q => match q.1 with | some r => r.1 ≠ id | none => true
      cap := c.wrdS.cap.filter (·.cmd ≠ id) } }
  match c.wrdS.fw with
  | some q =>
    if q.cmd = id ∧ q.verified = false then
      let c := { c with wrdS := { c.wrdS with fw := none } }
      if c.wState = 1 then (if q.fromFailed then c.wardenFail 6 else c.setW 0) else c
    else c
  | none => c

/-! ## What a page keeps (R499, R459, R463) -/

/-- The listed registers of a page changed by a function of offset, row and value. -/
def Core.mapPage (c : Core) (slot : Nat) (f : Nat → Row → Word) : Core :=
  match pageKind slot with
  | none => c
  | some k =>
    let l : List (Nat × Word) := Sparse.range (pg slot) (pg slot + 0x1000) c.regs
    forL l (fun q d =>
      let keep := f (q.1 % 0x1000) ((findRow k (q.1 % 0x1000)).getD { off := 0 })
      d.wr q.1 ((c.rd q.1 &&& keep) ||| (regReset q.1 &&& ~~~keep))) c

/-- Bits kept by a soft reset (R499, R464, R454): CF, CT, GD and HLD, live conditions of the exempt pages and of the
windows, the recovery counters, and of the common registers SLEEP_OK and the access record. -/
def softKeep (slot o : Nat) (r : Row) : Word :=
  if o = 4 then bit 2 else if o = 8 then 0xF00 else if o = 0xC then all32
  else if o < 0x40 then (if o = 0x10 then all32 else 0)
  else
    ((r.cf ||| r.ct ||| r.gd ||| r.hd ||| r.ro) &&& ~~~r.cmd) |||
      (if staleExempt slot || decide (0xB00 ≤ o) then r.lv else 0) ||| (if 0xC00 ≤ o then r.cn else 0)

/-- Bits kept in retention cells while an island is off: CF, CT, GD and RO, with the common registers, which lie in the
register fabric (R37, R459, R499). -/
def offKeep (o : Nat) (r : Row) : Word :=
  if o < 0x40 then all32 else r.cf ||| r.ct ||| r.gd ||| r.ro

/-- Bits kept by an island reset: GD, HLD and RO (R463, R499). -/
def islandKeep (o : Nat) (r : Row) : Word := if o < 0x40 then (if o = 0x10 then all32 else 0) else r.gd ||| r.hd ||| r.ro

/-- A guarded-fallback sequence open on a page discarded without a record (R499, R461). -/
def Core.dropGrd (c : Core) (slot : Nat) : Core :=
  match c.grd with
  | some q => if q.1 = slot then { c with grd := none }.sf (pg slot + 0x3C) 0 2 0 else c
  | none => c

/-! ## The datapath of a block reset -/

/-- A Port Engine back at its start: transmit idle, sensing and alignment abandoned, its first PM second suspect (R168, R464,
R465). A squelch and a disable follow PE_GUARD. -/
def Core.portDown (c : Core) (p : Nat) : Core :=
  let x := c.port p
  let c := c.setPort p { dis := x.dis, sq := x.sq, eFilt := x.eFilt, pm := { x.pm with suspect := true }, pmHeld := x.pmHeld }
  c.sb (bk (p / 16) 0x204) (p % 16) false

/-- What a block loses when it is reset or switched off. -/
def Core.blockDown (c : Core) (slot : Nat) : Core :=
  match pageKind slot with
  | some .pe => c.portDown (slot - 0x20)
  | some .rsv => { c with rsvS := { c.rsvS with
      rings := c.rsvS.rings.map fun r => { r with start := none, recs := [] }
      sent := [] } }
  | some .slu => ({ c with mspRx := [], sluS := { c.sluS with
      pairs := [], msp := c.sluS.msp.map fun (q : Nat × Msp) => (q.1, ({ eff := q.2.eff } : Msp)), xcmd := none, hb := none, missed := 0
      arb := 0, dual := 0, yieldAt := none, differ := 0, mirIn := [], out := [] } }.sb (slu 0xB04) 0 false).setRole 0
  | some .cu => c.cuAbortAll
  | some .ga =>
    let i := slot - 0xA
    let c := c.gaPageOff i
    let c := { c with timS := { c.timS with
      gauges := Sparse.clear (12 * i) (12 * i + 12) c.timS.gauges
      coef := Sparse.clear (12 * i * 128) ((12 * i + 12) * 128) c.timS.coef } }
    forN 12 (fun k c => (c.clearRegs (gaR (12 * i + k) 0x18) (gaR (12 * i + k) 0x2C)).sb (gaR (12 * i + k) 0) 8 false) c
  | some .wq => c.wqEnable false
  | some .tim =>
    let c := if c.d06 then c.timStop else c
    { c with timS := { gauges := c.timS.gauges, coef := c.timS.coef } }.wr (tim 0xB34) 0
  | _ => c

/-- The block of a page returns (R464): EN = 0, STALE = 1, its Gauges reset, its first PM second suspect. The DEV page is no
returning block (R496). -/
def Core.blockReturn (c : Core) (slot : Nat) : Core :=
  let c := (c.sb (pg slot + 4) 0 false).sb (pg slot + 4) 8 false
  let c := { c with scans := c.scans.filter (· ≠ slot) }
  match pageKind slot with
  | some .dev => c
  | some .pe => (c.setStale slot).updPort (slot - 0x20) fun x => { x with pm := { x.pm with suspect := true } }
  | some .ga => forN 12 (fun k c => c.gaugeReset (12 * (slot - 0xA) + k)) (c.setStale slot)
  | some _ => c.setStale slot
  | none => c

/-- PERST_N or a SOFT_RST of the HIF page (R382): the ring state and the MSI-X state are discarded, every outstanding
command is withdrawn without a completion, and the page returns to its reset values, but for what it shows of the
Warden, the HBM, the Ledger and, where the link stays trained, of the link. -/
def Core.hifReset (c : Core) (keepLink : Bool) : Core :=
  let lost := c.cmds.length
  let c := forL (c.cmds.filter (!·.fixed)) (fun k c => c.withdraw k.id) c
  let c := { c with cmds := [], cpls := [], hifS := { lost := lost, chip := c.hifS.chip }
                    wrdS := { c.wrdS with attest := c.wrdS.attest.filter (·.1.isSome), ledger := c.wrdS.ledger.filter (·.isSome) } }
  let keep (a : Nat) : Bool := [hif 0x20C, hif 0x21C, hif 0x220].contains a || (keepLink && a = hif 0x200)
  let c := c.leaveL1
  let kept := ((Sparse.range (pg 4) (pg 5) c.regs).filter fun q => keep q.1).map fun q => (q.1, c.rd q.1)
  let hdm := c.rd (hif 0x204) &&& (if keepLink then 7 else 6)
  let c := { c.clearRegs (pg 4) (pg 5) with
    parMis := Sparse.clear (pg 4) (pg 5) c.parMis
    blocked := if keepLink then c.blocked else [] }
  let c := forL kept (fun q c => c.wr q.1 q.2) c
  ((c.wr (hif 0x204) hdm).wr (wrd 0x218) 0).blockReturn 4

/-- A soft reset of a page, or the repair of its block by BLKRST (R499, R443): it is complete at SOFT_RST_DONE. -/
def Core.softReset (c : Core) (slot : Nat) : Core :=
  let c := if slot = 4 then c.hifReset true
    else
      let c := c.dropGrd slot
      ((c.blockDown slot).mapPage slot (softKeep slot)).blockReturn slot
  let c := match pageKind slot with
    | some .pe => c.setEnergy (slot - 0x20) (c.energy (slot - 0x20))
    | some .snp => { c with snpS := { c.snpS with sel := none } }
    | _ => c
  c.sb (pg slot + 4) 8 true

/-- The soft reset of a page is complete. -/
def Core.softDone (c : Core) (slot : Nat) : Core := if c.gb (pg slot + 4) 8 then c.blockReturn slot else c

/-! ## Islands (R459, R463) -/

/-- The page slots of an island. -/
def islandSlots (i : Nat) : List Nat := (List.range 128).filter fun s => (pageKind s).isSome && islandOf s = i

/-- An island on (LEV_ISLAND). -/
def Core.islandUp (c : Core) (i : Nat) : Bool := c.gb (lev 0x204) i

/-- An island switched on: its pages return with STALE = 1, and its wake took up to 64 ticks (Table 16-1); how many is not
fixed. -/
def Core.powerOn (c : Core) (i : Nat) : Core :=
  if c.islandUp i then c
  else
    let c := ((c.sb (lev 0x204) i true).cn (lev 0x508) 1).ev (lev 0x400) (bit 3)
    let c := (c.wr (lev (0x240 + 4 * i)) (BitVec.ofNat 32 (Config.freeNat c.freeCtr % 65))).fresh
    let c := { c with levS := { c.levS with waking := c.levS.waking.filter (· ≠ i), offRun := Sparse.drop i c.levS.offRun } }
    let c := forL (islandSlots i) (fun s c => if s = 0 then c else c.setStale s) c
    c.showPstate

/-- An island switched off: its pages keep CF, CT and GD, and the contents of tables; everything else in it is lost. -/
def Core.powerOff (c : Core) (i : Nat) : Core :=
  let c := (c.sb (lev 0x204) i false).ev (lev 0x400) (bit 3)
  let c := if i = 1 then c.hifReset false
    else forL (islandSlots i) (fun s c => ((c.blockDown s).mapPage s offKeep).setStale s) c
  let c := if i = 6 then (c.mateLane false false).mateLane true false else c
  let c := if 7 ≤ i then c.sb (lev 0x200) (8 + (i - 7)) false else c
  { c with levS := { c.levS with offRun := Sparse.drop i c.levS.offRun, slept := c.levS.slept.filter (· + 7 ≠ i) } }.showPstate

/-- Whether a domain of the island runs (Table 1-6), so that it may not be switched off. -/
def Core.islandBusy (c : Core) (i : Nat) : Bool :=
  match i with
  | 0 => true
  | 1 => c.pins.perst
  | 2 => true
  | 3 => c.levS.started
  | 4 => c.d06
  | 5 => c.en 0xC || (List.range 32).any c.cuOpen
  | 6 => c.mateOn
  | _ => c.gb (bk (i - 7) 0x200) 0 || (c.gb (lev 0x200) (8 + (i - 7)) && !c.levS.slept.contains (i - 7))

/-- The conditions of R459. -/
def Core.mayOff (c : Core) (i : Nat) : Bool :=
  c.islandUp i && !c.islandBusy i && !c.gb (lev (0xB80 + 4 * i)) 0 && !c.levS.waking.contains i &&
    (islandSlots i).all fun s => !c.en s && c.gb (pg s + 4) 2

/-- ISLAND_OFF: the conditions have held for OFF_DLY × 16 ticks. -/
def Core.islandOff (c : Core) (i : Nat) : Core :=
  let run : Nat := Sparse.get (fun _ => 0) c.levS.offRun i
  if c.mayOff i && decide (c.gf (lev (0xB80 + 4 * i)) 8 8 * 16 ≤ run) then c.powerOff i else c

/-- A domain of the island is to start (Table 1-6). -/
def Core.domainStarts (c : Core) (i : Nat) : Bool :=
  match i with
  | 1 => c.pins.perst
  | 4 => c.en 0xD || c.en 0xA || c.en 0xB
  | 5 => c.en 0xC || c.en 9
  | 6 => c.mateOn
  | _ => false

/-- A domain of the island is to start, or a host access waits for it (R37, R459). -/
def Core.islandWanted (c : Core) (i : Nat) : Bool := c.gb (lev 0x204) 2 && (c.levS.waking.contains i || c.domainStarts i)

/-- An island reset (R463): the CF and CT fields of its pages return to their reset values, their GD fields and HLD areas are
kept, and its blocks return. -/
def Core.islandReset (c : Core) (i : Nat) : Core :=
  let one (s : Nat) (c : Core) : Core :=
    let c := ((c.dropGrd s).blockDown s).mapPage s islandKeep
    let c := { c with
      parMis := Sparse.clear (pg s) (pg s + 0x1000) c.parMis
      ct1 := Sparse.clear (pg s) (pg s + 0x1000) c.ct1
      ct2 := Sparse.clear (pg s) (pg s + 0x1000) c.ct2 }
    c.blockReturn s
  let c := if i = 1 then c.hifReset false
    else if i = 6 then (c.mateLane false false).mateLane true false
    else
      let awake := 7 ≤ i && c.gb (bk (i - 7) 0x200) 0
      let sup := 7 ≤ i && c.gb (bk (i - 7) 0x200) 4
      let c := forL (islandSlots i) one c
      if 7 ≤ i then
        let c := (c.sb (bk (i - 7) 0x200) 0 awake).sb (bk (i - 7) 0x200) 4 sup
        forN 16 (fun k c => let p := 16 * (i - 7) + k; c.setEnergy p (c.energy p)) c
      else c
  { c with levS := { c.levS with resets := c.levS.resets.filter (·.1 ≠ i) } }

/-- Companion bits of the island resets: BLK_BUSY of DEV_BLKRST, and BUSY of BK_RST (Table 16-7). -/
def Core.showResets (c : Core) : Core :=
  let c := c.sb (dev 0xB04) 8 (c.levS.resets.any fun q => decide (q.1 < 7))
  forN 6 (fun b c => c.sb (bk b 0xB00) 8 (c.levS.resets.any (·.1 = 7 + b))) c

/-- An island reset asked for by its GD field (R463, R469): refused while its companion reads 1 (R70). -/
def Core.askReset (c : Core) (a i : Nat) : Core :=
  if c.gb a 8 then c.ign a 8 else { c with levS := { c.levS with resets := c.levS.resets ++ [(i, c.frame)] } }.showResets

/-- ISLAND_RESET: a request takes effect at the next frame boundary, or within a tick while D06 is stopped; a chip reset
due governs (R463, R467). -/
def Core.takeReset (c : Core) (i : Nat) : Core :=
  if c.levS.chipReq.isSome then c
  else match c.levS.resets.find? fun q => q.1 = i with
    | some q => if c.d06 && decide (c.frame = q.2) then c else (c.islandReset i).showResets
    | none => c

/-! ## Banks (R25, R32, R86) -/

/-- A bank wake cause is acted on once the Warden has run, and recorded before (R32). -/
def Core.bankWake (c : Core) (b : Nat) : Core :=
  let up := c.gb (lev 0x200) (8 + b)
  if !c.bankCause b || (up && !c.levS.slept.contains b) then c
  else if !c.wrdS.ran then
    if c.gb (lev 0x230) b then c else (c.sb (lev 0x230) b true).ev (lev 0x400) (bit 2)
  else
    let port := (List.range 16).any fun k => c.en (0x20 + 16 * b + k) && !c.gb (pe (16 * b + k) 0x70) 1
    let c := (c.leaveL1.sb (lev 0x230) b false).cn (lev (0x514 + 4 * b)) 1
    let c := (c.sb (lev 0x200) (8 + b) true).wakeLast (if port then 5 else 4)
    { c with levS := { c.levS with slept := c.levS.slept.filter (· ≠ b) } }.showPstate

/-- Every recorded wake whose cause still holds is carried out once the Warden runs (R32). -/
def Core.bankWakes (c : Core) : Core := forN 6 (fun b c => if c.gb (lev 0x230) b then c.bankWake b else c) c

/-- The bank is up: its island, its PLL references and its PE pages (R86); a port with energy shows it as its page comes
up. -/
def Core.bankUp (c : Core) (b : Nat) : Core :=
  if c.gb (lev 0x200) (8 + b) && !c.levS.slept.contains b && !c.gb (bk b 0x200) 0 then
    let c := c.powerOn (7 + b)
    let c := (c.sb (bk b 0x200) 0 true).sb (bk b 0x200) 4 true
    forN 16 (fun k c =>
      let p := 16 * b + k
      let on := c.energy p
      let c := c.setEnergy p on
      if on then c.ev (pe p 0x408) (bit 0) else c) c
  else c

/-- The bank sleeps: no port enabled and no listening port with energy (R25). A wake that has started completes first (R27, R100). Its
lanes idle (R465). -/
def Core.bankSleep (c : Core) (b : Nat) : Core :=
  if c.gb (lev 0x200) (8 + b) && c.gb (bk b 0x200) 0 && !c.bankCause b && !c.levS.slept.contains b then
    let c := (c.sb (bk b 0x200) 0 false).sf (bk b 0x200) 1 3 0
    let c := (c.wr (bk b 0x204) 0).wr (bk b 0x210) 0
    let c := forN 16 (fun k c => (c.sb (pe (16 * b + k) 0x200) 6 false).updPort (16 * b + k) fun x =>
      { x with txRate := 0, txSettle := 0 }) c
    if c.islandUp (7 + b) then { c with levS := { c.levS with slept := c.levS.slept ++ [b] } }
    else (c.sb (lev 0x200) (8 + b) false).showPstate
  else c

/-- Wake records whose cause has ended are withdrawn (R32). -/
def Core.wakeRecords (c : Core) : Core :=
  forN 6 (fun b c => if c.gb (lev 0x230) b && !c.bankCause b then c.sb (lev 0x230) b false else c) c

/-! ## Fuses, start-up and the device resets (R460–R462) -/

/-- The fuse states as KEY and DEV show them (Table 14-16, Table 18-5). -/
def Core.showFuses (c : Core) : Core :=
  let f := c.fuses
  let part := !f.valid && decide (f.owner ≠ 0)
  let old := c.rd (dev 0x20C)
  let m := bitsWhere 7 fun k => match k with
    | 0 => f.valid | 1 => part | 2 => f.rev0 | 3 => f.rev1
    | 4 => decide (Config.fwkHash 0 ≠ 0) | 5 => decide (Config.fwkHash 1 ≠ 0) | _ => f.valid
  let used := c.gb (keyR 0x200) 7
  let c := c.wr (keyR 0x200) (m ||| (if used then bit 7 else 0))
  let c := (c.sb (keyR 0x204) 0 (decide (Config.idSeed ≠ 0))).wr (keyR 0x208) (BitVec.ofNat 32 f.rollback)
  let c := forN 8 (fun k c => c.wr (keyR (0x220 + 4 * k)) (f.owner.extractLsb' (32 * k) 32)) c
  let d := bitsWhere 4 fun k => match k with | 0 => f.valid | 1 => part | 2 => f.valid | _ => used
  let c := c.wr (dev 0x20C) d
  if d = old then c else c.ev (dev 0x400) (bit 0)

/-- The fuses are sensed: SENSED and FUSE_DONE; with TESTMODE taken at the edge, TEST_USED (R460, Table 17-9). -/
def Core.sensed (c : Core) (ok : Bool) : Core :=
  let c := ((c.sb (lev 0x234) 0 true).sb (lev 0x234) 1 (!ok)).sb (lev 0x200) 2 true
  let c := if c.wrdS.testLoad then c.sb (keyR 0x200) 7 true else c
  (if ok then c else c.report 145).showFuses

/-- The start-up of R462: the core PLL on LREF0, or on LREF1 where LEV_CFG.CORE_REF says so, and the HIF, CTL and RSV
islands. -/
def Core.startUp (c : Core) : Core :=
  if c.pins.perst && c.gb (lev 0x234) 0 && !c.levS.started && !c.levS.chipHold then
    let c := (c.sb (lev 0x200) 3 true).sb (lev 0x200) 4 (c.gb (lev 0x40) 1)
    let c := ((c.powerOn 2).powerOn 1).powerOn 3
    { c with levS := { c.levS with started := true } }
  else c

/-- PWRGOOD, or VDD_AO or AOCLK, is lost: everything but the fuses is lost (R1, R460). -/
def Core.powerLost (c : Core) (_m : List Host.Cell) : Core × List MemOp :=
  ({ fuses := c.fuses, freeCtr := c.freeCtr, pins := { c.pins with pwrgood := false, perst := false } }, [.clear 0 0x400000000])

/-- PWRGOOD rises: the tick count starts (R455); TESTMODE is looked at in open mode (Table 17-9). -/
def Core.pwrgoodRise (c : Core) : Core :=
  if c.pins.pwrgood then c
  else { c with pins := { c.pins with pwrgood := true }, tick := 0
                wrdS := { c.wrdS with testLoad := c.pins.testmode && !c.fuses.valid } }

/-- The fuse sense ends; with a supply out of range it repeats (R460, R480). -/
def Core.fuseSense (c : Core) (ok : Bool) : Core :=
  if c.pins.pwrgood && !c.gb (lev 0x234) 0 && !c.levS.chipHold && c.rd (dev 0x228) = 0 then (c.sensed ok).startUp else c

/-- A chip reset asked for with its cause: 2 for CHIP_RESET and DEV_CHIPRST, 3 for the Spillway. The first one governs. -/
def Core.askChip (c : Core) (cause : Nat) : Core :=
  if c.levS.chipReq.isSome then c else { c with levS := { c.levS with chipReq := some cause } }

/-- Registers kept across a chip reset: the reset cause and count, the Spillway's records, and the supply and temperature
conditions. -/
def chipKept : List Nat :=
  [lev 0x22C, lev 0x50C, dev 0x220, dev 0x228] ++
    ((List.range 2).flatMap fun i => [spw i 0x240, spw i 0x244, spw i 0x248, spw i 0x24C, spw i 0x250,
      spw i 0x260, spw i 0x264, spw i 0x268, spw i 0x26C, spw i 0x270, spw i 0x274] ++
      (List.range 64).map fun k => spw i (0xC00 + 4 * k))

/-- A chip reset begins (R461, R443, Table 16-2). -/
def Core.chipEnter (c : Core) (_m : List Host.Cell) : Core × List MemOp :=
  match c.levS.chipReq with
  | none => (c, [])
  | some cause =>
    let kept := c.regs.filter fun q => chipKept.contains q.1
    let x : Core := { fuses := c.fuses, freeCtr := c.freeCtr, pins := c.pins, tick := c.tick, reports := c.reports
                      wrdS := { testLoad := c.wrdS.testLoad }, levS := { chipHold := true, hot := c.levS.hot } }
    let x := forL kept (fun q x => x.wr q.1 (c.rd q.1)) x
    let x := (x.wr (lev 0x22C) (BitVec.ofNat 32 cause)).wr (lev 0x50C) (satAdd (x.rd (lev 0x50C)) 1)
    let x := x.wr (dev 0x224) (x.rd (dev 0x220))
    let x := x.sb (lev 0x200) 7 c.pins.perst
    (if x.gb (spw 0 0x240) 8 then (x.sb (spw 0 0x24C) 0 true).sb (spw 1 0x24C) 0 true else x, [.clear 0 0x400000000])

/-- After 64 ticks the device returns to the state that follows R460. -/
def Core.chipLeave (c : Core) : Core :=
  if c.levS.chipHold then ({ c with levS := { c.levS with chipHold := false } }.sensed true).startUp else c

/-- The Warden writes DEV_CHIPRST.CHIP (R469). -/
def Core.devChip (c : Core) : Core :=
  if c.gb (dev 0xB00) 8 then c.ign (dev 0xB00) 8 else (c.sb (dev 0xB00) 8 true).askChip 2

/-- PERST_N asserted: the HIF island is reset and the link goes down (R382). -/
def Core.perstLow (c : Core) : Core :=
  if !c.pins.perst then c
  else ({ c with pins := { c.pins with perst := false } }.sb (lev 0x200) 7 false).hifReset false

/-- PERST_N deasserted (R462). -/
def Core.perstHigh (c : Core) : Core :=
  if c.pins.perst || !c.pins.pwrgood then c
  else ({ c with pins := { c.pins with perst := true } }.sb (lev 0x200) 7 true).startUp

/-- What Table 15-1 names as the block reset of a source. -/
def Core.sourceReset (c : Core) (k : Nat) : Core :=
  if k < 96 then c.softReset (0x20 + k)
  else if k < 102 then c.islandReset (7 + (k - 96))
  else if k < 108 then c.softReset 7
  else match k with
    | 108 => c.softReset 8
    | 109 | 142 => (c.mateLane false false).mateLane true false
    | 111 => c.softReset 0xD
    | 112 => c.softReset 0xA
    | 113 => c.softReset 0xB
    | 114 => c.softReset 0xC
    | 115 => c.softReset 9
    | 116 => c.softReset 0xE
    | 117 | 118 => c.softReset 4
    | 123 | 124 | 144 => c.wardenReset
    | _ => c

/-- Whether Table 15-1 gives a source a block reset. -/
def hasBlockReset (k : Nat) : Bool := decide (k < 110) || [111, 112, 113, 114, 115, 116, 117, 118, 123, 124, 142, 144].contains k

/-! ## L1 (R458) -/

/-- A doorbell's commands wait to be fetched. -/
def Core.ringWaits (c : Core) : Bool := c.en 4 && !c.gb (hif 0x210) 11 && c.rd (hif 0xB00) != c.rd (hif 0x214)

/-- LEV_L1_BLOCK but for the link, whose low-power state no register shows. -/
def Core.l1Block (c : Core) : Word :=
  bitsWhere 8 fun k => match k with
    | 0 => !c.gb (lev 0x40) 0
    | 1 => c.gf (lev 0x200) 8 6 ≠ 0
    | 2 => c.rsvS.rings ≠ []
    | 3 => !c.selfRefresh
    | 4 => !(c.wState = 3 && c.cmds = [])
    | 5 => c.islandUp 4 || c.islandUp 5 || c.islandUp 6
    | 6 => !c.levS.inL1
    | _ => !c.en 1

/-- L1 entry after L1_IDLE × 16 ticks of the conditions, on a trained link whose low-power state is the event's own (R31, R458).
A bank wake cause, a doorbell or a trap of the tick wins (R27, Table 16-4). -/
def Core.enterL1 (c : Core) : Core :=
  let wake := c.ringWaits || c.wrdS.trapAt = some c.tick || (List.range 6).any c.bankCause
  if !c.levS.inL1 && c.gb (hif 0x200) 0 && !wake && decide (max 1 (c.gf (lev 0x40) 16 16) * 16 ≤ c.levS.l1Run) && (c.l1Block &&& 0xBF) = 0 then
    let c := { c with levS := { c.levS with inL1 := true } }.cn (lev 0x504) 1
    (c.sb (lev 0x200) 6 (c.gb (lev 0x200) 5)).showPstate
  else c

/-! ## Watchdog and wakes of the Levee -/

/-- WRD_KICK.KICK: the expiry governs in the tick in which the count reaches zero (R456, R467). -/
def Core.kick (c : Core) : Core :=
  if c.wState = 2 ∧ c.rd (lev 0x228) ≠ 0 then c.wdtReload else c

/-- The count has reached zero (R456). -/
def Core.wdtExpire (c : Core) : Core :=
  if c.gb (lev 0x200) 5 && !c.gb (lev 0x200) 6 && c.rd (lev 0x228) = 0 then
    ((c.ev (lev 0x400) (bit 1)).cn (lev 0x500) 1).wardenFail 1
  else c

/-- A Levee timer wake (R457). -/
def Core.timerWake (c : Core) (ok : Bool) : Core := if ok && c.wState = 3 then (c.cn (lev 0x510) 1).wakeWarden 3 else c
def Core.halfWake (c : Core) : Core := c.timerWake (decide (c.wdtPeriod / 2 ≤ c.levS.wdtRun))
def Core.wakeTimer (c : Core) : Core :=
  c.timerWake (c.rd (lev 0xB10) ≠ 0 && decide (c.tick % 2 ^ 32 = (c.rd (lev 0xB10)).toNat))

/-- The Warden sleeps between commands (R33), once nothing that a doorbell asked for waits and no trap came in the tick (R27,
Table 15-6). -/
def Core.wardenSleep (c : Core) : Core :=
  if c.wState = 2 && c.cmds = [] && !c.ringWaits && c.wrdS.trapAt != some c.tick && c.wrdS.ledger = [] && c.gb (wrd 0x40) 0 then c.setW 3 else c

/-! ## The meanings of the Levee rows -/

def execSoftRstDone (slot : PageSlot) (s : State) : Host.Outcome State Fault Refusal := s.on (·.softDone slot.val)
/-- The block of a repair or of a soft reset returns (R464). -/
def execBlockReturn (slot : PageSlot) (s : State) : Host.Outcome State Fault Refusal := s.on (·.softDone slot.val)
def execBankWake (b : Bank) (s : State) : Host.Outcome State Fault Refusal := s.on (·.bankWake b.val)
def execBankSleep (b : Bank) (s : State) : Host.Outcome State Fault Refusal := s.on (·.bankSleep b.val)
def execIslandOff (i : Fin 13) (s : State) : Host.Outcome State Fault Refusal := s.on (·.islandOff i.val)
def execIslandReset (i : Fin 13) (s : State) : Host.Outcome State Fault Refusal := s.on (·.takeReset i.val)
def execDevChiprst (s : State) : Host.Outcome State Fault Refusal := s.on (·.byWarden (·.devChip))
def execDevBlkrstHif (s : State) : Host.Outcome State Fault Refusal := s.on (·.byWarden (·.askReset (dev 0xB04) 1))
def execDevBlkrstTim (s : State) : Host.Outcome State Fault Refusal := s.on (·.byWarden (·.askReset (dev 0xB04) 4))
def execDevBlkrstAux (s : State) : Host.Outcome State Fault Refusal := s.on (·.byWarden (·.askReset (dev 0xB04) 5))
def execDevBlkrstMat (s : State) : Host.Outcome State Fault Refusal := s.on (·.byWarden (·.askReset (dev 0xB04) 6))
def execBkRstIsland (b : Bank) (s : State) : Host.Outcome State Fault Refusal :=
  s.on (·.byWarden (·.askReset (bk b.val 0xB00) (7 + b.val)))
def execChipResetEntry (s : State) : Host.Outcome State Fault Refusal := s.onMem (·.chipEnter ·)
def execChipResetEnd (s : State) : Host.Outcome State Fault Refusal := s.on (·.chipLeave)
def execPwrgoodRise (s : State) : Host.Outcome State Fault Refusal := s.on (·.pwrgoodRise)
def execFuseSenseDone (ok : Bool) (s : State) : Host.Outcome State Fault Refusal := s.on (·.fuseSense ok)
def execPowerOnReset (s : State) : Host.Outcome State Fault Refusal := s.onMem (·.powerLost ·)
def execPerstAssert (s : State) : Host.Outcome State Fault Refusal := s.on (·.perstLow)
def execPerstDeassert (s : State) : Host.Outcome State Fault Refusal := s.on (·.perstHigh)
def execL1Entry (s : State) : Host.Outcome State Fault Refusal := s.on (·.enterL1)
def execL1Exit (s : State) : Host.Outcome State Fault Refusal := s.on (·.leaveL1)
def execWatchdogKick (s : State) : Host.Outcome State Fault Refusal := s.on (·.kick)
def execWatchdogExpire (s : State) : Host.Outcome State Fault Refusal := s.on (·.wdtExpire)
def execWatchdogHalfWake (s : State) : Host.Outcome State Fault Refusal := s.on (·.halfWake)
def execWakeTimer (s : State) : Host.Outcome State Fault Refusal := s.on (·.wakeTimer)
def execWardenSleep (s : State) : Host.Outcome State Fault Refusal := s.on (·.wardenSleep)
def execWardenWake (cause : Fin 8) (s : State) : Host.Outcome State Fault Refusal := s.on (·.wakeWarden cause.val)
/-- Entry to FAILED by a cause of R417 that arises while the Warden runs: the watchdog's, a Warden reset, or an error in the
running copy. Causes 4 to 6 arise in rows of their own. -/
def execWardenFail (cause : Fin 8) (s : State) : Host.Outcome State Fault Refusal :=
  s.on fun c => match cause.val with
    | 1 => c.wdtExpire
    | 2 => c.wardenReset
    | 3 => if c.wDown then c else c.wardenFail 3
    | _ => c

end Sys2Proof.Machine
end

