-- ==== Sys2Proof/Machine/Spillway.lean ====
section
/-! DEFINITION. The Spillway (chapter 15): fault states, reactions, grace timers and quiet periods, acknowledgements, the first
fault and coincident sources, injection, and the rails. -/

namespace Sys2Proof.Machine

def Core.src (c : Core) (k : Nat) : SpwSrc := Sparse.get (fun _ => {}) c.spwS.srcs k
def Core.setSrc (c : Core) (k : Nat) (x : SpwSrc) : Core :=
  { c with spwS := { c.spwS with srcs := Sparse.put (fun _ => {}) c.spwS.srcs k x } }
def Core.updSrc (c : Core) (k : Nat) (f : SpwSrc → SpwSrc) : Core := c.setSrc k (f (c.src k))

/-- A register of the page of a source, and the one of four words that holds the source's bit. -/
def spwOf (k off : Nat) : Nat := spw (k / 128) off
def spwBit (k off : Nat) : Nat := spwOf k (off + 4 * (k % 128 / 32))

def Core.sReal (c : Core) (k : Nat) : Bool := c.gb (spwBit k 0x200) (k % 32)
def Core.sInj (c : Core) (k : Nat) : Bool := c.gb (spwBit k 0x210) (k % 32)
def Core.sPend (c : Core) (k : Nat) : Bool := c.gb (spwBit k 0x220) (k % 32)
def Core.sEsc (c : Core) (k : Nat) : Bool := c.gb (spwBit k 0x230) (k % 32)
def Core.inFault (c : Core) (k : Nat) : Bool := c.sReal k || c.sInj k
def Core.setS (c : Core) (k off : Nat) (v : Bool) : Core := c.sb (spwBit k off) (k % 32) v

/-- A device register of the Spillway, shown by both pages (R454). -/
def Core.wrBoth (c : Core) (off : Nat) (v : Word) : Core := (c.wr (spw 0 off) v).wr (spw 1 off) v
def Core.sbBoth (c : Core) (off b : Nat) (v : Bool) : Core := (c.sb (spw 0 off) b v).sb (spw 1 off) b v

/-- The profile a source names. -/
def Core.profOf (c : Core) (k : Nat) : Nat := fld (c.voted (spwOf k (0xC0 + 4 * (k % 128 / 8)))) (k % 8 * 4) 3

/-- A source's reactions and times: those of its profile while the page's EN = 1, else of the reset value of P0 (R440). -/
def Core.reactOf (c : Core) (k : Nat) : Word :=
  if c.en (2 + k / 128) then c.voted (spwOf k (0x80 + 8 * c.profOf k)) else 5
def Core.timesOf (c : Core) (k : Nat) : Word :=
  if c.en (2 + k / 128) then c.voted (spwOf k (0x84 + 8 * c.profOf k)) else 0x00400000

/-- A source counts toward vector 1 (R441, R451). -/
def Core.irqOf (c : Core) (k : Nat) : Bool := c.inFault k && !(c.src k).dry && bitOf (c.reactOf k) 0

/-- SPW_STATE but for its companions (Table 15-5). -/
def Core.spwShow (c : Core) : Core :=
  let anyW (off : Nat) : Bool := (List.range 8).any fun j => c.rd (spw (j / 4) (off + 4 * (j % 4))) ≠ 0
  let c := c.sbBoth 0x254 0 (c.spwS.srcs.any fun q => q.2.faultN)
  let c := c.sbBoth 0x254 1 (anyW 0x200 || anyW 0x210)
  let c := c.sbBoth 0x254 2 (anyW 0x220)
  let c := c.sbBoth 0x254 3 (anyW 0x230)
  c.sbBoth 0x254 4 c.wDown

/-- FAULT_N driven low while the device is powered: in power-on or chip reset, by FAULTN_TEST, and by a reaction (R444). -/
def Core.faultNLow (c : Core) : Bool :=
  !c.gb (lev 0x234) 0 || c.levS.chipHold || c.gb (spw 0 0x40) 8 || c.spwS.srcs.any fun q => q.2.faultN

/-- The Warden takes a trap of a source (R441). -/
def Core.trap (c : Core) (k : Nat) : Core :=
  let c := ((c.wakeWarden 2).wr (wrd 0x210) (BitVec.ofNat 32 (k + 256))).cn (wrd 0x518) 1
  { c with wrdS := { c.wrdS with trapAt := some c.tick } }

/-- Traps held while the Warden was down, taken as it reaches RUNNING (R446). -/
def Core.heldTraps (c : Core) : Core :=
  forN 256 (fun k c => if c.inFault k && c.sPend k && !(c.src k).dry && bitOf (c.reactOf k) 1 then c.trap k else c) c

/-- FAULT_N and the escalated bit end once the source has both left the fault state and been acknowledged (R442, R444). -/
def Core.endEsc (c : Core) (k : Nat) : Core :=
  if c.inFault k || c.sPend k then c else (c.setS k 0x230 false).updSrc k fun x => { x with faultN := false }

/-- The hard reactions of a source are taken (R442, R443). A chip reset that falls due makes a block reset idle. -/
def Core.escalate (c : Core) (k : Nat) : Core :=
  let r := c.reactOf k
  let c := (((c.setS k 0x230 true).cn (spwOf k 0x504) 1).ev (spwOf k 0x410) (bit 1)).updSrc k fun x =>
    { x with grace := none, faultN := x.faultN || bitOf r 2 }
  let c := if c.gb (spw 0 0x240) 8 && c.gf (spw 0 0x240) 0 8 = k && c.spwS.ffTick = some (c.src k).entry
    then c.sbBoth 0x24C 1 true else c
  if bitOf r 4 then
    if c.levS.chipReq.isSome then c
    else ((c.wrBoth 0x270 (BitVec.ofNat 32 (k + 256 + (if c.sInj k && !c.sReal k then 512 else 0)))).wrBoth 0x274
      (BitVec.ofNat 32 c.tick)).askChip 3
  else if bitOf r 3 && hasBlockReset k && c.levS.chipReq.isNone then
    (c.wrBoth 0x278 (BitVec.ofNat 32 (k + 256))).sourceReset k
  else c

/-- The first-fault record is loaded, or the source is coincident with the recorded one (R448, R449). -/
def Core.firstFault (c : Core) (k : Nat) (real inj dry : Bool) : Core :=
  if !c.gb (spw 0 0x240) 8 then
    let n (b : Bool) (v : Nat) : Nat := if b then v else 0
    let c := c.wrBoth 0x240 (BitVec.ofNat 32 (k + 256 + n real 512 + n inj 1024 + n dry 2048 + c.profOf k * 65536))
    let c := (c.wrBoth 0x244 (BitVec.ofNat 32 c.tick)).wrBoth 0x248 (if c.d06 then BitVec.ofNat 32 c.frame else all32)
    ({ c.wrBoth 0x24C 0 with spwS := { c.spwS with ffTick := some c.tick } } : Core).ev (spwOf k 0x410) (bit 0)
  else if c.spwS.ffTick = some c.tick then
    (c.setS k 0x260 true).wrBoth 0x250 (BitVec.ofNat 32 (c.gf (spw 0 0x250) 0 16 + 1))
  else c

/-- A source enters the fault state (R438, R439, R441, R442); a dry injected entry takes no reaction (R451). -/
def Core.spwEnter (c : Core) (k : Nat) (real inj dry : Bool) : Core :=
  let dry := dry && !real
  let c := if real then c.setS k 0x200 true else c
  let c := if inj then c.setS k 0x210 true else c
  let c := (c.ev (spwBit k 0x400) (bit (k % 32))).setS k 0x220 true
  let c := if real then c.cn (spwOf k 0x500) 1 else c.cn (spwOf k 0x50C) 1
  let c := c.firstFault k real inj dry
  let c := c.updSrc k fun x => { x with dry := dry, quiet := none, entry := c.tick }
  if dry then c
  else
    let r := c.reactOf k
    let c := if bitOf r 1 && !c.wDown then c.trap k else c
    if r &&& 0x1C = 0 then c
    else
      let g := fld (c.timesOf k) 0 16
      if g = 0 ∨ (bitOf r 5 = true ∧ c.wDown = true) then c.escalate k
      else c.updSrc k fun x => { x with grace := some (g * 16) }

/-- A source leaves the fault state: its recovery counter increments (R438). -/
def Core.spwLeave (c : Core) (k : Nat) : Core :=
  let c := (c.setS k 0x200 false).setS k 0x210 false
  let c := c.updSrc k fun x => { x with quiet := none, grace := none, dry := false }
  let a := spwOf k (0xC00 + 4 * (k % 128 / 2))
  (c.wr a (satFld (c.rd a) (k % 2 * 16) 16 1)).endEsc k

/-- An acknowledgement applied; a grace timer that expires in its tick escalates first (R445, R453). -/
def Core.spwAck (c : Core) (k : Nat) : Core :=
  if !c.sPend k then c
  else
    let c := if (c.src k).grace = some 0 then c.escalate k else c
    let c := ((c.setS k 0x220 false).cn (spwOf k 0x510) 1).updSrc k fun x => { x with grace := none }
    c.endEsc k

/-- The Warden-side sources (Table 15-1). -/
def wardenSide (k : Nat) : Bool := [123, 124, 125, 126, 144, 145].contains k

/-- SPW_ACK bits written, by the Warden or through the guarded fallback; the Warden's acknowledgement of a Warden-side source
in the fault state is refused (R447). -/
def Core.ackWrite (c : Core) (page word : Nat) (bits : Word) (warden : Bool) : Core :=
  (forN 32 (fun b c =>
    let k := page * 128 + word * 32 + b
    if !bitOf bits b then c
    else if warden && wardenSide k && c.inFault k then c.ev (spwOf k 0x410) (bit 4)
    else c.spwAck k) c).spwShow

/-- FF_REARM (R450). -/
def Core.ffRearm (c : Core) : Core :=
  let c := forL [0x240, 0x244, 0x248, 0x24C, 0x250, 0x260, 0x264, 0x268, 0x26C] (fun o c => c.wrBoth o 0) c
  { c with spwS := { c.spwS with ffTick := none } }

/-! ## Injection (R451) -/

def Core.injOf (c : Core) (page : Nat) : Option Inject := if page = 0 then c.spwS.inj0 else c.spwS.inj1
def Core.setInj (c : Core) (page : Nat) (x : Option Inject) : Core :=
  if page = 0 then { c with spwS := { c.spwS with inj0 := x } } else { c with spwS := { c.spwS with inj1 := x } }

/-- SPW_INJ_CMD with GO, the companion having read 0. -/
def Core.injGo (c : Core) (page : Nat) (v : Word) : Core :=
  let x : Inject := { src := page * 128 + fld v 0 7, left := max 1 (fld v 16 8) * 16, dry := bitOf v 9, rail := bitOf v 10 }
  (c.setInj page (some x)).sb (spw page 0xB14) 24 true

/-- The injected report has ended. -/
def Core.injEnd (c : Core) (page : Nat) : Core :=
  match c.injOf page with
  | some x => if x.left = 0 then ((c.setInj page none).sb (spw page 0xB14) 24 false).ev (spw page 0x410) (bit 3) else c
  | none => c

/-- The injection that acts on a source. -/
def Core.injOn (c : Core) (k : Nat) : Option Inject := (c.injOf (k / 128)).filter fun x => x.src = k && decide (0 < x.left)

/-! ## Sampling (R436–R438) -/

/-- Reserved sources never enter the fault state (R435). -/
def reservedSrc (k : Nat) : Bool := decide (150 ≤ k ∧ k ≤ 254)

/-- The configuration-integrity source of a page slot (Table 15-1). -/
def intSource (slot : Nat) : Option Nat :=
  match pageKind slot with
  | some .dev => some 119 | some .lev => some 120 | some .spw => some (121 + (slot - 2)) | some .hif => some 117
  | some .wrd => some 123 | some .key => some 124 | some .rsv => some 107 | some .slu => some 108 | some .cu => some 115
  | some .ga => some (112 + (slot - 0xA)) | some .wq => some 114 | some .tim => some 111 | some .snp => some 116
  | some .tst => some 125 | some .bk => some (96 + (slot - 0x10)) | some .pe => some (slot - 0x20) | none => none

/-- The sources whose condition lasts: a parity mismatch not rewritten, a bank's PLLs and supply, the HBM, the mate, the Warden
in FAILED, the supplies, the die temperature, and rail faults. -/
def Core.levels (c : Core) : List Nat :=
  let par := c.parMis.filterMap fun q => let s := q.1 / 0x1000; if c.islandUp (islandOf s) then intSource s else none
  let banks := ((List.range 6).filter fun b => c.islandUp (7 + b) && c.gb (bk b 0x200) 0 &&
    (!c.gb (bk b 0x200) 4 || (c.gf (bk b 0x210) 0 3 &&& (7 - c.gf (bk b 0x200) 1 3)) ≠ 0)).map (96 + ·)
  let hbm := if c.gb (rsv 0x258) 8 || c.gb (rsv 0x204) 4 then [106] else []
  let st := c.rd (slu 0x200)
  let lanes := c.gf (slu 0x44) 4 2
  let mate := if c.mateOn && (bitOf st 7 || bitOf st 11 || decide (fld st 3 2 &&& lanes = 0)) then [109] else []
  let w := if c.wState = 4 then [126] else []
  let sup := ((List.range 8).filter fun k => c.gb (dev 0x228) k).map (128 + ·)
  let hot := if c.levS.hot then [136] else []
  let rail := if c.spwS.srcs.any fun q => q.2.railBad && !q.2.railInj then [255] else []
  par ++ banks ++ hbm ++ mate ++ w ++ sup ++ hot ++ rail

/-- The pair a source drives, as far as it is not the normal or fault pair of its report: an injected invalid pair, or what
the rails bring. -/
def Core.railOf (c : Core) (rails : List (Source × BitVec 2)) (k : Nat) : BitVec 2 :=
  match c.injOn k with
  | some x => if x.rail then 3 else match rails.find? fun q => q.1.val = k with | some q => q.2 | none => 1
  | none => match rails.find? fun q => q.1.val = k with | some q => q.2 | none => 1

/-- The grace timer of a source in the fault state at a tick: it counts while no quiet period runs, and WFAIL_NOW ends it while
the Warden is down (R442, R446). -/
def Core.graceLeft (c : Core) (k : Nat) (x : SpwSrc) : Option Nat :=
  x.grace.map fun n => if bitOf (c.reactOf k) 5 && c.wDown then 0 else if x.quiet.isNone then n - 1 else n

/-- One source at a tick; an invalid pair on S255 counts as its fault, and a source with an invalid pair keeps its state, so
that its quiet period stands and its grace timer counts on (R437). -/
def Core.sampleSrc (c : Core) (levels : List Nat) (rails : List (Source × BitVec 2)) (k : Nat) : Core :=
  let x := c.src k
  let held := if c.reports.contains k then 2 else x.held
  let pair := if reservedSrc k then 1 else c.railOf rails k
  let forced := match c.injOn k with | some i => i.rail | none => false
  let pair := if k = 255 ∧ forced = false ∧ (pair = 0 ∨ pair = 3) then 2 else pair
  if pair = 0 ∨ pair = 3 then
    let injected := match c.injOn k with | some i => i.rail | none => false
    c.setSrc k { x with held := held - 1, railRun := x.railRun + 1, railVal := pair, railInj := injected, grace := c.graceLeft k x }
  else
    let x := { x with held := held - 1, railRun := 0, railVal := 1, railBad := false, railInj := false }
    let c := c.setSrc k x
    if reservedSrc k then c
    else
      let real := decide (0 < held) || levels.contains k || pair = 2
      let injRail := decide (k = 255) && c.spwS.srcs.any fun q => q.2.railBad && q.2.railInj
      let inj := (match c.injOn k with | some _ => true | none => false) || injRail
      let dry := match c.injOn k with | some i => i.dry | none => x.dry
      if real && !c.sReal k then c.spwEnter k true inj dry
      else if inj && !c.inFault k then c.spwEnter k false true dry
      else if !c.inFault k then c
      else if real || inj then
        c.setSrc k { x with quiet := none, grace := c.graceLeft k { x with quiet := none } }
      else match x.quiet with
        | none =>
          let q := fld (c.timesOf k) 16 16 * 16
          if q = 0 then c.spwLeave k else c.setSrc k { x with quiet := some q }
        | some n =>
          c.setSrc k { x with quiet := some (n - 1), grace := c.graceLeft k x }

/-- Every source at a tick, in ascending order, and the injections' time. -/
def Core.spwTick (c : Core) (rails : List (Source × BitVec 2)) : Core :=
  let levels := c.levels
  let ks := (List.range 256).filter fun k =>
    c.reports.contains k || levels.contains k || (rails.any fun q => q.1.val = k) || (c.src k != {}) || c.inFault k ||
      (c.injOn k).isSome || k = 255
  let c := forL ks (fun k c => c.sampleSrc levels rails k) c
  let down (x : Option Inject) : Option Inject := x.map fun (i : Inject) => { i with left := i.left - 1 }
  ({ c with reports := [], spwS := { c.spwS with inj0 := down c.spwS.inj0, inj1 := down c.spwS.inj1 } } : Core).spwShow

/-- A rail fault is declared after RAIL_N ticks of an invalid pair (R437): the source keeps its state, S255 enters the fault
state, and SPW_RAIL records the lowest source that began in its tick. -/
def Core.railFault (c : Core) (k : Nat) : Core :=
  let x := c.src k
  if x.railBad || decide (x.railRun < max 1 (c.gf (spwOf k 0x40) 0 4)) then c
  else
    let lower := c.spwS.srcs.any fun q => decide (q.1 < k) && q.2.railBad && q.2.railRun = x.railRun
    let c := c.setSrc k { x with railBad := true }
    let c := if lower then c else c.wrBoth 0x258 (BitVec.ofNat 32 (k + x.railVal.toNat * 256 + 65536))
    let c := (c.cn (spwOf k 0x508) 1).ev (spwOf k 0x410) (bit 2)
    let dry := match c.injOn k with | some i => i.dry | none => false
    (if x.railInj then (if c.inFault 255 then c else c.spwEnter 255 false true dry)
     else if c.sReal 255 then c else c.spwEnter 255 true false false).spwShow

/-- A quiet period has ended (R438). -/
def Core.quietEnd (c : Core) (k : Nat) : Core :=
  if c.inFault k && !(c.src k).railBad && (c.src k).quiet = some 0 then (c.spwLeave k).spwShow else c

/-- A grace timer has expired (R442). -/
def Core.graceEnd (c : Core) (k : Nat) : Core :=
  if c.inFault k && (c.src k).grace = some 0 then (c.escalate k).spwShow else c

/-- SPW_TMR_STAT of a source, with what is left rounded up to units of 16 ticks. -/
def Core.tmrStat (c : Core) (k : Nat) : Word :=
  let x := c.src k
  let st := if !c.inFault k then 0 else if x.quiet.isSome then 2 else if c.sEsc k then 3 else 1
  let left := if st = 2 then x.quiet.getD 0 else x.grace.getD 0
  BitVec.ofNat 32 (st + (if x.grace.isSome then 4 else 0) + min 0xFFFF ((left + 15) / 16) * 65536)

/-! ## Supplies and temperature (R475, R476, R504) -/

/-- A device supply out of range, or back within its trip points; every monitor's state is one bit of DEV_SUPPLY. -/
def Core.supply (c : Core) (k : Nat) (bad : Bool) : Core :=
  if c.pins.pwrgood && c.gb (dev 0x228) k != bad then (c.sb (dev 0x228) k bad).ev (dev 0x400) (bit 1) else c

/-- Signed maximum of two temperatures held as bytes. -/
def maxTemp (a b : Word) : Word := if (a.extractLsb' 0 8).toInt < (b.extractLsb' 0 8).toInt then b else a

/-- The highest die sensor reading taken (Table 18-5, R476). -/
def Core.dieTemp (c : Core) (t : Int) : Core :=
  let v : Word := (BitVec.ofInt 8 t).setWidth 32
  let c := c.wr (dev 0x220) v
  let c := c.wr (dev 0x224) (maxTemp (c.rd (dev 0x224)) v)
  { c with levS := { c.levS with hot := if 115 < t then true else if t < 110 then false else c.levS.hot } }

/-! ## The meanings of the Spillway rows -/

def execRailFault (k : Source) (s : State) : Host.Outcome State Fault Refusal := s.on (·.railFault k.val)
def execQuietEnd (k : Source) (s : State) : Host.Outcome State Fault Refusal := s.on (·.quietEnd k.val)
def execGraceExpire (k : Source) (s : State) : Host.Outcome State Fault Refusal := s.on (·.graceEnd k.val)
/-- The Warden's own acknowledgement; while it is down it writes none (section 15.5). -/
def execFaultAck (page1 : Bool) (word : Fin 4) (bits : Word) (s : State) : Host.Outcome State Fault Refusal :=
  s.on (·.byWarden (·.ackWrite (if page1 then 1 else 0) word.val bits true))
def execFfRearm (s : State) : Host.Outcome State Fault Refusal := s.on (·.byWarden (·.ffRearm))
def execInjectionEnd (page1 : Bool) (s : State) : Host.Outcome State Fault Refusal :=
  s.on (·.injEnd (if page1 then 1 else 0))
def execSupplyTrip (k : Fin 8) (s : State) : Host.Outcome State Fault Refusal := s.on (·.supply k.val true)
def execSupplyClear (k : Fin 8) (s : State) : Host.Outcome State Fault Refusal := s.on (·.supply k.val false)
def execTempTrip (t : Int) (s : State) : Host.Outcome State Fault Refusal := s.on (·.dieTemp t)

end Sys2Proof.Machine
end

