-- ==== Sys2Proof/Machine/TableMap.lean ====
section
/-! DEFINITION. The entry formats of the tables behind the aperture (Tables 5-9, 6-5, 6-6, 6-9, 7-3, 8-5, 9-2): for each word
which of its bits are of which kind. -/

namespace Sys2Proof.Machine

/-- A word of a TRIB entry, in the standard or the AU-3 layout. -/
def tribRow (au3 : Bool) (w : Nat) : Row :=
  match w with
  | 0 => { off := 0, cf := 0xFFFF7FFF }
  | 1 => { off := 0, cf := 0x03FFFFFF }
  | 2 => { off := 0, cf := all32 }
  | 3 => if au3 then { off := 0, lv := 0x7FFFFFFF } else { off := 0, cf := 0xFFDFFFFF }
  | 4 => if au3 then { off := 0, lv := 0x7FFFFFFF } else { off := 0, cf := 0x0003FFFF }
  | 5 => { off := 0, lv := 0x7FFFFFFF }
  | 6 => if au3 then { off := 0, ev := 0x7FFFFFFF, lv := 0x80000000 } else { off := 0, ev := 0x00007FFF, lv := 0x800F0000 }
  | 7 | 8 | 9 | 10 => { off := 0, cn := all32 }
  | _ => { off := 0, hd := all32 }

/-- A word of a GROUP entry. -/
def grpRow (w : Nat) : Row :=
  match w with
  | 0 => { off := 0, cf := 0x3FF }
  | 1 => { off := 0, cf := 0x1FFF07FF }
  | 2 => { off := 0, cf := 0x3FFFF }
  | 3 => { off := 0, cf := 0x0FFFFFFF }
  | 12 => { off := 0, lv := 0x07FF1FFF }
  | 13 => { off := 0, lv := 0x1FFFFFFF }
  | 14 => { off := 0, ev := 0x3FF }
  | 15 => { off := 0, cn := all32 }
  | n => if n < 12 then { off := 0, cf := 0x1FFFFFFF } else { off := 0, lv := all32 }

/-- A word of a PMAP entry. -/
def pmapRow (w : Nat) : Row :=
  match w with
  | 0 => { off := 0, cf := 0x03FF001F }
  | 3 => { off := 0, cf := 0x1FFFF }
  | _ => { off := 0, cf := 0xFFFFF }

/-- A word of a PRBS entry. -/
def prbsRow (w : Nat) : Row :=
  match w with
  | 0 => { off := 0, cf := 0x7FF }
  | 1 | 2 => { off := 0, cf := 0x3FFFF }
  | 3 => { off := 0, cf := 0xF1, lv := 0x2, cmd := 0x1 }
  | 4 => { off := 0, lv := 0xFF }
  | 5 => { off := 0, ev := 0x7 }
  | 9 => { off := 0, cn := 0xFFFF }
  | _ => { off := 0, cn := all32 }

/-- Words of an entry's stride, words of its format, and entries of a table by its selection code (Table 2-16). -/
def tblShape (code : Nat) : Option (Nat × Nat × Nat) :=
  match code with
  | 1 => some (16, 15, 137216)
  | 2 => some (32, 32, 4096)
  | 3 | 4 => some (1, 1, 137216)
  | 5 | 6 => some (4, 4, 16384)
  | 7 => some (32, 32, 8192)
  | 8 => some (64, 10, 64)
  | _ => none

/-- A word of an entry of a table; none beyond its format. -/
def tblRow (au3 : Bool) (code w : Nat) : Option Row :=
  match tblShape code with
  | none => none
  | some (_, n, _) =>
    if n ≤ w then none
    else match code with
      | 1 => some (tribRow au3 w)
      | 2 => some (grpRow w)
      | 3 | 4 => some { off := 0, cf := 0x7FFFFF }
      | 5 | 6 => some (pmapRow w)
      | 7 => some (if w < 16 then { off := 0, cf := all32 } else { off := 0, lv := all32 })
      | _ => some (prbsRow w)

end Sys2Proof.Machine
end

