-- ==== Sys2Proof/Machine/Warden.lean ====
section
/-! DEFINITION. The Warden (chapter 14): the start of ring commands, guarded writes, fuses, containers and restarts, capsules
and the seal, the measurements and the attestation report. -/

namespace Sys2Proof.Machine

/-! ## Ring commands (R397) -/

/-- The outstanding command with a tag that holds it, whose completion is not fixed. -/
def Core.cmdOf (c : Core) (tag : Nat) : Option Cmd := c.cmds.find? fun k => k.tag = tag && !k.dup && !k.fixed

/-- The commands fetched before one. -/
def Core.before (c : Core) (k : Cmd) : List Cmd := c.cmds.takeWhile fun j => j.id ≠ k.id

/-- A command that waits for a commit in progress to end (R397). -/
def Core.waitsCommit (c : Core) (k : Cmd) : Bool := (k.op = 5 || k.op = 6) && c.gb (rsv 0x208) 0

/-- Whether a command starts now: in fetch order, behind its FENCE, and while the Warden runs; FW_LOAD also by the boot
verifier, and for its BUSY refusal. An ABORT never waits behind a FENCE (R397, R399, R403). -/
def Core.mayStart (c : Core) (k : Cmd) : Bool :=
  let first := c.before k
  !k.started && !c.waitsCommit k &&
    (c.wState = 2 || (k.op = 4 && (c.wState = 0 || c.wState = 4 || c.wrdS.fw.isSome))) &&
    (k.op = 1 || ((first.all fun j => j.fixed || j.started || c.waitsCommit j) && (!k.fence || first.all (·.fixed))))

/-- The command is being executed (WRD_CMD_CUR, WRD_CMD_Q). -/
def Core.startCmd (c : Core) (k : Cmd) : Core :=
  let c := { c with cmds := c.cmds.map fun (j : Cmd) => if j.id = k.id then { j with started := true } else j }
  let c := c.wr (wrd 0x214) (BitVec.ofNat 32 (k.tag + k.op * 65536 + 2 ^ 31))
  c.wr (wrd 0x218) (BitVec.ofNat 32 (c.cmds.filter fun (j : Cmd) => j.started && !j.fixed).length)

/-- A field of a command slot (Table 13-3). -/
def Cmd.at (k : Cmd) (off n : Nat) : Nat := unle ((k.bytes.drop off).take n)

/-- Every byte of the slot outside the header fields and the parameters used is zero (Tables 13-3, 13-5). -/
def Cmd.clean (k : Cmd) (used : List (Nat × Nat)) : Bool :=
  decide (k.at 1 1 < 2) && decide (k.at 6 2 = 0) &&
    (List.range 56).all fun j => (used.any fun q => decide (q.1 ≤ j + 8) && decide (j + 8 < q.1 + q.2)) || k.at (j + 8) 1 = 0

/-- A range of the Open Reservoir in a host area, 64-byte aligned (R401, Table 8-2). -/
def hostRange (o n : Nat) : Bool :=
  decide (o % 64 = 0) && (decide (o + n ≤ 0x10000000) || (decide (0x20000000 ≤ o) && decide (o + n ≤ 0x40000000)))

/-- A command of an opcode starts: its meaning runs where its parameters are in order, else it completes BAD_PARAM. -/
def Core.onCmd (c : Core) (op tag : Nat) (used : List (Nat × Nat)) (f : Core → Cmd → Core) : Core :=
  match c.cmdOf tag with
  | none => c
  | some k =>
    if k.op ≠ op ∨ c.mayStart k = false then c
    else if !k.clean used then (c.startCmd k).fixCmd k.id stBadParam []
    else f (c.startCmd k) k

/-- The same for a meaning that also reads or writes the HBM. -/
def Core.onCmdMem (c : Core) (op tag : Nat) (used : List (Nat × Nat)) (f : Core → Cmd → Core × List MemOp) :
    Core × List MemOp :=
  match c.cmdOf tag with
  | none => (c, [])
  | some k =>
    if k.op ≠ op ∨ c.mayStart k = false then (c, [])
    else if !k.clean used then ((c.startCmd k).fixCmd k.id stBadParam [], [])
    else f (c.startCmd k) k

/-! ## Guarded writes (R18, R402, R423, R426) -/

/-- The row of a register named by page slot and offset. -/
def regRow (slot off : Nat) : Option Row := if off % 4 = 0 then (pageKind slot).bind fun k => findRow k off else none

/-- Masked bits of a guarded register written, under the rules of its field; and the bits changed. `warden` is false for the
guarded fallback. -/
def Core.guardSet (c : Core) (slot off : Nat) (v mask : Word) (left : Nat) (warden : Bool) : Core × Word :=
  let a := pg slot + off
  let on := v &&& mask
  let resets (l : List (Nat × Nat)) : Core × Word :=
    let l := l.filter fun q => bitOf on q.1
    if l = [] then (c, 0)
    else if c.gb a 8 then (c.ign a 8, 0)
    else ({ c with levS := { c.levS with resets := c.levS.resets ++ l.map fun (q : Nat × Nat) => (q.2, c.frame) } }.showResets, on)
  match pageKind slot with
  | some .dev =>
    if off = 0xB00 then (if bitOf on 0 then (c.devChip, on) else (c, 0)) else resets [(0, 1), (1, 4), (2, 5), (3, 6)]
  | some .bk => resets [(0, 7 + (slot - 0x10))]
  | some .spw =>
    if off = 0xB10 then (if bitOf on 0 then (c.ffRearm, on) else (c, 0))
    else
      let w := (off - 0xB00) / 4
      let p := spw (slot - 2) (0x220 + 4 * w)
      let d := c.ackWrite (slot - 2) w on warden
      (d, c.rd p &&& on &&& ~~~(d.rd p))
  | some .slu =>
    if off = 0xB08 then (if bitOf on 0 then (c.yieldGo, on) else (c, 0))
    else
      let w := (c.rd a &&& ~~~mask) ||| on
      if bitOf on 0 then (c.xcmdGo w left none, on) else (c.wr a w, c.rd a ^^^ w)
  | _ =>
    let w := (c.rd a &&& ~~~mask) ||| on
    (c.wr a w, c.rd a ^^^ w)

/-- A guarded write made on command or from a capsule (WRD_GRD_WR). -/
def Core.guardWrite (c : Core) (slot off : Nat) (v mask : Word) (left : Nat) : Core × Word :=
  let r := c.guardSet slot off v mask left true
  (r.1.cn (wrd 0x520) 1, r.2)

/-! ## Fuses (R410, R414, R428) -/

/-- The number of ones of a number's low 256 bits. -/
def ones256 (v : BitVec 256) : Nat := ((List.range 256).filter fun k => v.getLsbD k).length

/-- A fuse field programmed and read back; a failure leaves a part of its bits blown, which one is not fixed. -/
def Core.blow (c : Core) (field target : Nat) (ok : Bool) : Core :=
  let f := c.fuses
  let free := Config.freeNat c.freeCtr
  let c := if ok then c else c.fresh
  let new : Fuses := match field with
    | 1 =>
      let want := f.owner ||| c.wrdS.keyHash
      { f with owner := if ok then want else f.owner ||| (want &&& BitVec.ofNat 256 free) }
    | 2 => { f with valid := f.valid || ok }
    | 3 => { f with rollback := if ok then max f.rollback target else f.rollback + free % max 1 (target - f.rollback) }
    | 4 => { f with rev0 := f.rev0 || ok }
    | _ => { f with rev1 := f.rev1 || ok }
  let n (b : Bool) : Nat := if b then 1 else 0
  let blown := (ones256 new.owner - ones256 f.owner) + (n new.valid - n f.valid) + (new.rollback - f.rollback) +
    (n new.rev0 - n f.rev0) + (n new.rev1 - n f.rev1)
  let c := ({ c with fuses := new } : Core).cn (keyR 0x508) blown
  let c := c.wr (keyR 0xB0C) (BitVec.ofNat 32 ((if ok then 1 else 2) + blown * 256))
  let c := if ok then (match field with
      | 2 => c.ev (keyR 0x400) (bit 0) | 3 => c.ev (keyR 0x400) (bit 1) | 1 => c | _ => c.ev (keyR 0x400) (bit 2))
    else (c.ev (keyR 0x400) (bit 3)).report 145
  c.showFuses

/-- The Warden writes KEY_FUSE_CMD (Table 14-16): FIELD 0, 6 and 7 are refused with cause 0x8. -/
def Core.fuseCmd (c : Core) (v : Word) (ok : Bool) : Core :=
  let field := fld v 1 3
  if !(c.wState = 1 || c.wState = 2) then c
  else
    let c := c.wr (keyR 0xB08) (v &&& 0x007F000E)
    if !bitOf v 0 then c
    else if field = 0 ∨ 6 ≤ field then c.ign (keyR 0xB08) 8
    else c.blow field (min 64 (fld v 16 7)) ok

/-! ## Containers (R413–R415) -/

/-- A little-endian field of a copy. -/
def fieldAt (bs : List Byte) (off n : Nat) : Nat := unle ((bs.drop off).take n)
def zeroAt (bs : List Byte) (off n : Nat) : Bool := ((bs.drop off).take n).all (· = 0)

/-- DEV_ID (R411). -/
def devId : BitVec 256 := Config.sha3 (Config.mldsaPublic Config.idSeed)

/-- ASCII bytes of a context string (R412). -/
def ascii (s : List Nat) : List Byte := s.map (BitVec.ofNat 8)
def ctxEneel : List Byte := ascii [0x45, 0x4E, 0x45, 0x45, 0x4C]
def ctxCap : List Byte := ascii [0x52, 0x53, 0x57, 0x2D, 0x43, 0x41, 0x50]
def ctxAtt : List Byte := ascii [0x52, 0x53, 0x57, 0x2D, 0x41, 0x54, 0x54]

/-- A container's or capsule's signature under the key it carries. -/
def signedBy (ctx bs : List Byte) (total : Nat) : Bool :=
  Config.mldsaVerify ((bs.drop 0x80).take 1312) ctx (bs.take (total - 2420)) ((bs.drop (total - 2420)).take 2420)

/-- The verification code of a container, by the order of Table 14-3 but for BUSY and FUSE. `len` is the length the command
names. -/
def Core.verifyCode (c : Core) (bs : List Byte) (len : Nat) (bad : Bool) : Nat :=
  let total := fieldAt bs 0xC 4
  let image := fieldAt bs 0x10 4
  let slot := fieldAt bs 6 1
  let svn := fieldAt bs 8 4
  let form := fieldAt bs 0 4 = 0x4C454E45 && fieldAt bs 4 2 = 1 && total = len && decide (total ≤ 1048576) &&
    decide (image + 3860 ≤ total) && decide (fieldAt bs 7 1 < 4) && zeroAt bs 0x40 64 &&
    zeroAt bs (0x5A0 + image) (total - 2420 - (0x5A0 + image)) && c.gb (keyR 0x204) 0 && !c.wrdS.testLoad
  if bad then 9
  else if !form then 1
  else if fieldAt bs 0x14 4 ≠ 0xA1 then 2
  else if 1 < slot ∨ Config.sha3 ((bs.drop 0x80).take 1312) ≠ Config.fwkHash slot then 3
  else if (if slot = 0 then c.fuses.rev0 else c.fuses.rev1) = true then 4
  else if svn = 0 ∨ 64 < svn ∨ svn < c.fuses.rollback then 5
  else if !signedBy ctxEneel bs total then 6
  else if (Config.sha3 ((bs.drop 0x5A0).take image)).toNat ≠ fieldAt bs 0x20 32 then 7
  else 0

/-- KEY_SIG_OK or KEY_SIG_FAIL counted for a signature that was checked. -/
def Core.countSig (c : Core) (ok : Bool) : Core :=
  if ok then c.cn (keyR 0x500) 1 else (c.cn (keyR 0x504) 1).ev (keyR 0x400) (bit 4)

/-- The fuse steps a container asks for (R414), and the code 8 of a failed one. -/
def Core.fuseSteps (c : Core) (bs : List Byte) (ok : Bool) : Core × Nat :=
  let svn := fieldAt bs 8 4
  let adv := fieldAt bs 7 1 % 2 = 1 && decide (c.fuses.rollback < svn)
  let other := 5 - fieldAt bs 6 1
  let rev := fieldAt bs 7 1 / 2 % 2 = 1 && !(if other = 4 then c.fuses.rev0 else c.fuses.rev1)
  if !adv && !rev then (c, 0)
  else
    let c := if adv then c.blow 3 svn ok else c
    let c := if rev && (ok || !adv) then c.blow other 0 ok else c
    (c, if ok then 0 else 8)

/-- What the WRD page shows of the running image. -/
def Core.showImage (c : Core) (bs : List Byte) : Core :=
  let h := Config.sha3 (bs.take (fieldAt bs 0xC 4 - 2420))
  let c := c.wr (wrd 0x204) (BitVec.ofNat 32 (fieldAt bs 8 4))
  let c := c.wr (wrd 0x208) (BitVec.ofNat 32 (fieldAt bs 6 1 % 2 + fieldAt bs 7 1 % 4 * 2))
  forN 8 (fun k c => c.wr (wrd (0x220 + 4 * k)) (h.extractLsb' (32 * k) 32)) c

/-- KEY_BOOT_ID drawn at the first boot after a chip reset (section 14.6). -/
def Core.drawBoot (c : Core) : Core :=
  if c.wrdS.ran then c
  else
    let id := Config.freeBootId c.freeCtr
    forN 4 (fun k c => c.wr (keyR (0x240 + 4 * k)) (id.extractLsb' (32 * k) 32)) c.fresh

/-- The Warden reaches RUNNING with a verified image: the freeze ends, the first run asks for the map hashes, recorded bank
wakes are carried out and held traps are taken (R419, R429, R32, R446). -/
def Core.reachRunning (c : Core) (restart : Bool) : Core :=
  let first := !c.wrdS.ran
  let c := (c.drawBoot.sb (rsv 0x200) 7 false).sb (keyR 0x204) 1 true
  let c := if restart then (c.cn (wrd 0x500) 1).ev (wrd 0x400) (bit 2) else c
  let c := c.sb (wrd 0xB04) 8 false
  let c := { c with wrdS := { c.wrdS with
      ran := true, image := true, hold := none, left := none, staging := false, hashDue := c.wrdS.hashDue || first
      restarted := c.wrdS.restarted || restart } }
  (c.setW 2).bankWakes.heldTraps.spwShow

/-- HBM byte addresses of the running copy, the staging copy and the capsule copy (Table 14-4). -/
abbrev runBase : Nat := 0x3C0000000
abbrev stageBase : Nat := 0x3C0100000
abbrev capBase : Nat := 0x3C0200000

/-- FW_LOAD (R413, R415, R420): refused BUSY while another runs; else the container is copied into the retained region. -/
def Core.fwLoad (c : Core) (k : Cmd) (m : List Host.Cell) : Core × List MemOp :=
  let o := k.at 8 8
  let n := k.at 16 4
  if c.wrdS.fw.isSome then
    (((c.sf (wrd 0x208) 8 8 10).cn (wrd 0x50C) 1).fixCmd k.id stRefused (le 4 0 ++ le 1 10), [])
  else if !hostRange o n || decide (1048576 < n) then (c.fixCmd k.id stBadParam [], [])
  else
    let update := c.wState = 2
    let bs := memBytes m (orBase + o) n
    let bad := c.orPoison o n
    let job : FwJob := { cmd := k.id, bytes := bs, bad := bad, update := update, fromFailed := c.wState = 4 }
    let c := { c.srExit with wrdS := { c.wrdS with fw := some job, hold := none } }
    (if update then c else c.setW 1, [.write (if update then stageBase else runBase) bs])

/-- The verification of a load ends (R413, R414, R420, Table 14-5). -/
def Core.fwVerifyEnd (c : Core) (fuseOk : Bool) : Core :=
  match c.wrdS.fw with
  | none => c
  | some q =>
    if q.verified || !((q.update && c.wState = 2) || c.wState = 1) then c
    else
      let code := c.verifyCode q.bytes q.bytes.length q.bad
      let svn := fieldAt q.bytes 8 4
      let c := if code = 6 then c.countSig false else if code = 0 ∨ code = 7 then c.countSig true else c
      let r := if code = 0 then c.fuseSteps q.bytes fuseOk else (c, code)
      let c := r.1.sf (wrd 0x208) 8 8 r.2
      if r.2 ≠ 0 then
        let c := if 3 ≤ code ∧ code ≤ 7 then c.report 149 else c
        let c := { c.cn (wrd 0x50C) 1 with wrdS := { c.wrdS with fw := none } }
        let c := c.fixCmd q.cmd stRefused (le 4 svn ++ le 1 r.2)
        if q.update then c else if q.fromFailed then c.wardenFail 6 else c.setW 0
      else
        let c := (c.cn (wrd 0x508) 1).ev (wrd 0x400) (bit 3)
        if q.update then { c with wrdS := { c.wrdS with fw := some { q with verified := true } } }
        else
          let c := { c with wrdS := { c.wrdS with fw := none, restarts := [] } }.showRestarts
          ((c.showImage q.bytes).reachRunning false).fixCmd q.cmd stOk (le 4 svn ++ le 1 0)

/-- The Warden writes WRD_RESTART.GO for a verified update (R420). -/
def Core.wardenRestart (c : Core) : Core :=
  match c.wrdS.fw with
  | some q =>
    if q.verified && c.wState = 2 then
      { c with wrdS := { c.wrdS with staging := true, left := some 40 } }.sb (wrd 0xB04) 8 true |>.setW 5
    else c
  | none => c

/-- The automatic restart begins once its hold has ended (R418). -/
def Core.holdEnd (c : Core) : Core :=
  if c.wState = 4 ∧ c.wrdS.hold = some 0 then
    ({ c with wrdS := { c.wrdS with
        hold := none, left := some 40, staging := false, restarts := c.levS.frames :: c.recentRestarts } } : Core).showRestarts.setW 5
  else c

/-- The verification code of the copy that a restart runs from (R419, R421). -/
def Core.copyCode (c : Core) (m : List Host.Cell) : Nat × List Byte :=
  let base := if c.wrdS.staging then stageBase else runBase
  let total := min 1048576 (fieldAt (memBytes m base 0x14) 0xC 4)
  let bs := memBytes m base total
  let bad := c.rsvS.badCells.any fun k => decide (base < 32 * k + 32) && decide (32 * k < base + total)
  (c.verifyCode bs total bad, bs)

/-- Re-verification succeeds: RUNNING, the staging copy promoted where it was the one (R419, R420). -/
def Core.restartDone (c : Core) (m : List Host.Cell) : Core × List MemOp :=
  if c.wState ≠ 5 then (c, [])
  else
    let r := c.copyCode m
    if r.1 ≠ 0 then (c, [])
    else
      let staged := c.wrdS.staging
      let job := c.wrdS.fw
      let c := if staged then { c with wrdS := { c.wrdS with fw := none, restarts := [] } }.showRestarts else c
      let c := (c.showImage r.2).reachRunning true
      match job with
      | some q =>
        if staged then (c.fixCmd q.cmd stOk (le 4 (fieldAt r.2 8 4) ++ le 1 0), [.write runBase r.2]) else (c, [])
      | none => (c, [])

/-- RESTARTING that fails verification or has run 40 frames: from a staging copy the Warden restarts once more from the
running copy, else it enters FAILED with cause 4 (R417, R420, Table 14-5). -/
def Core.restartFail (c : Core) (m : List Host.Cell) : Core :=
  if c.wState ≠ 5 then c
  else
    let code := (c.copyCode m).1
    if c.wrdS.left ≠ some 0 ∧ code = 0 then c
    else if c.wrdS.staging then
      let job := c.wrdS.fw
      let c := { c with wrdS := { c.wrdS with fw := none, staging := false, left := some 40 } }
      match job with
      | some q => (c.cn (wrd 0x50C) 1).fixCmd q.cmd stRefused (le 4 (fieldAt q.bytes 8 4) ++ le 1 code)
      | none => c
    else c.wardenFail 4

/-! ## Capsules (R425–R428) -/

/-- A record of a capsule: TYPE, FIRST, COUNT and its entries' bytes (Table 14-9). -/
structure CapRec where
  type : Nat
  first : Nat
  count : Nat
  bytes : List Byte
  deriving DecidableEq, Repr

/-- Bytes of an entry of a record type. -/
def recSize (t : Nat) : Nat := match t with | 1 => 4 | 2 => 16 | 3 => 48 | 4 => 4 | 5 => 12 | _ => 0

/-- The records of a capsule's record space; none where they do not fill it exactly or a header's zero bytes are not zero. -/
def capRecs : Nat → List Byte → Option (List CapRec)
  | 0, bs => if bs = [] then some [] else none
  | n + 1, bs =>
    if bs.length < 12 ∨ fieldAt bs 1 3 ≠ 0 then none
    else
      let t := fieldAt bs 0 1
      let len := fieldAt bs 8 4 * recSize t
      if bs.length < 12 + len then none
      else match capRecs n (bs.drop (12 + len)) with
        | none => none
        | some l => some ({ type := t, first := fieldAt bs 4 4, count := fieldAt bs 8 4, bytes := (bs.drop 12).take len } :: l)

/-- A GUARD entry: page slot, offset, value and mask. -/
def guardEntry (bs : List Byte) (j : Nat) : Nat × Nat × Word × Word :=
  let e := (bs.drop (12 * j)).take 12
  (fieldAt e 0 1, fieldAt e 2 2, BitVec.ofNat 32 (fieldAt e 4 4), BitVec.ofNat 32 (fieldAt e 8 4))

/-- A GUARD entry that may be written: an ordinary page's register but for the commit controls, and no mask bit outside a GD
field (Table 14-10, cause 9). -/
def guardOk (e : Nat × Nat × Word × Word) : Bool :=
  let rsvCmt := e.1 = 7 && [0xB10, 0xB14, 0xB18].contains e.2.1
  !([5, 6, 0xF].contains e.1) && !rsvCmt && (match regRow e.1 e.2.1 with | some r => e.2.2.2 &&& ~~~r.gd = 0 | none => false)

/-- A record in its range (Table 14-9). -/
def CapRec.ok (r : CapRec) (alone : Bool) : Bool :=
  match r.type with
  | 1 => decide (r.first + r.count ≤ 137216)
  | 2 => decide (r.first + r.count ≤ 16384)
  | 3 => decide (r.first + r.count ≤ 4096)
  | 4 => decide (r.first + r.count ≤ 48)
  | 5 => r.first = 0 && (List.range r.count).all fun j => fieldAt r.bytes (12 * j + 1) 1 = 0 && guardOk (guardEntry r.bytes j)
  | 6 => r.first = 0 && r.count = 0 && alone
  | _ => false

/-- KEY_CAP_SEQ and KEY_BOOT_ID. -/
def Core.capSeq (c : Core) : Nat := (c.voted (keyR 0xB00)).toNat + (c.voted (keyR 0xB04)).toNat * 2 ^ 32
def Core.bootId (c : Core) : Nat :=
  (List.range 4).foldr (fun k a => a * 2 ^ 32 + (c.rd (keyR (0x240 + 4 * k))).toNat) 0

/-- The refusal cause of a capsule, by the order of Table 14-10; 0 where every check passes. -/
def Core.capCause (c : Core) (bs : List Byte) (len : Nat) (bad : Bool) : Nat :=
  let total := fieldAt bs 0x10 4
  let recs := capRecs (fieldAt bs 0x14 4) (((bs.take (total - 2420)).drop 0x5A0))
  let form := fieldAt bs 0 4 = 0x50414352 && fieldAt bs 4 2 = 1 && fieldAt bs 6 2 = 0 && total = len &&
    decide (total ≤ 4194304) && decide (0x5A0 + 2420 ≤ total) && zeroAt bs 0x49 7 && zeroAt bs 0x58 40
  let l := recs.getD []
  let own := l.any (·.type = 6)
  let target := fieldAt bs 0x18 32
  let hash := Config.sha3 ((bs.drop 0x80).take 1312)
  let seq := fieldAt bs 8 8
  if bad then 1
  else if !form || recs.isNone then 2
  else if own = c.sealed then 3
  else if (target ≠ 0 ∧ target ≠ devId.toNat) ∨ (own = true ∧ target = 0) then 4
  else if fieldAt bs 0x38 16 ≠ 0 ∧ fieldAt bs 0x38 16 ≠ c.bootId then 5
  else if c.sealed then
    if hash ≠ c.fuses.owner then 6
    else if !signedBy ctxCap bs total then 7
    else if seq = 0 ∨ seq ≤ c.capSeq then 8
    else if l.all (·.ok (l.length = 1)) then 0 else 9
  else if c.fuses.owner &&& ~~~hash ≠ 0 then 6
  else if !signedBy ctxCap bs total then 7
  else if seq = 0 ∨ seq ≤ c.capSeq then 8
  else if l.all (·.ok (l.length = 1)) then 0 else 9

/-- A capsule refused with a cause (R425). -/
def Core.capRefuse (c : Core) (id cause : Nat) : Core :=
  let c := (c.cn (wrd 0x514) 1).ev (wrd 0x400) (bit 5)
  let c := if 6 ≤ cause ∧ cause ≤ 8 then c.report 148 else c
  c.fixCmd id stRefused (List.replicate 12 0 ++ le 1 cause)

/-- CAPSULE: copied into the retained region and checked (R425); with too few frames to its deadline it completes LATE
(R426). -/
def Core.capsule (c : Core) (k : Cmd) (m : List Host.Cell) : Core × List MemOp :=
  let o := k.at 8 8
  let n := k.at 16 4
  if !hostRange o n then (c.fixCmd k.id stBadParam [], [])
  else
    let bs := memBytes m (orBase + o) (min n 4194304)
    let cause := c.capCause bs n (c.orPoison o n)
    let ops := [MemOp.write capBase bs]
    let c := c.srExit
    let c := if cause = 7 then c.countSig false else if cause = 0 ∨ 8 ≤ cause then c.countSig true else c
    if cause ≠ 0 then (c.capRefuse k.id cause, ops)
    else
      let own := !c.sealed
      let recBytes := n - 2420 - 0x5A0
      if !own && decide (k.dl < (recBytes + 65535) / 65536 + 1) then (c.fixCmd k.id stLate [], ops)
      else
        let hash := Config.sha3 ((bs.drop 0x80).take 1312)
        ({ c with wrdS := { c.wrdS with cap := some { cmd := k.id, bytes := bs, own := own }, keyHash := hash } }, ops)

/-- Words of a record written one after another into a table. -/
def Core.writeWords (c : Core) (bs : List Byte) (n : Nat) (f : Nat → Nat × Word) : Core :=
  forN n (fun j c =>
    let q := f j
    let t := q.1 / 0x400000
    (c.tblGood t (q.1 % 0x400000 / (if 5 ≤ t then 4 else 1))).twr q.1 (BitVec.ofNat 32 (fieldAt bs (4 * j) 4) &&& q.2)) c

/-- One record of a capsule written (Table 14-9): reserved bits stay zero. -/
def Core.writeRec (c : Core) (r : CapRec) : Core :=
  let st := rsv 0x200
  match r.type with
  | 1 =>
    let p := 1 - c.gf st 0 1
    (c.writeWords r.bytes r.count fun j => (xmap p (r.first + j), 0x7FFFFF)).sb st 2 false
  | 2 =>
    let p := 1 - c.gf st 1 1
    (c.writeWords r.bytes (4 * r.count) fun j => (pmap p (r.first + j / 4) (j % 4), (pmapRow (j % 4)).cf)).sb st 3 false
  | 3 =>
    let c := c.writeWords r.bytes (12 * r.count) fun j => (grp (r.first + j / 12) (j % 12), (grpRow (j % 12)).cf)
    forN r.count (fun j c => c.showStaged (r.first + j)) c
  | 4 =>
    let c := forN r.count (fun j c => c.wr (slu (0xB40 + 4 * (r.first + j))) (BitVec.ofNat 32 (fieldAt r.bytes (4 * j) 4))) c
    c.sb (slu 0x200) 10 ((List.range 48).any fun k => c.mspStaged k != c.mspEff k)
  | 5 => forN r.count (fun j c => let e := guardEntry r.bytes j; (c.guardWrite e.1 e.2.1 e.2.2.1 e.2.2.2 8).1) c
  | _ => c

/-- The records of a checked capsule are written, KEY_CAP_SEQ is set and any commit is requested (R426). -/
def Core.capWritten (c : Core) : Core :=
  match c.wrdS.cap with
  | none => c
  | some q =>
    if q.own || !(c.wState = 2) || c.gb (rsv 0x208) 0 then c
    else
      let total := fieldAt q.bytes 0x10 4
      let l := (capRecs (fieldAt q.bytes 0x14 4) (((q.bytes.take (total - 2420)).drop 0x5A0))).getD []
      let c := forL l (fun r c => c.writeRec r) c
      let seq := fieldAt q.bytes 8 8
      let c := (c.wr (keyR 0xB00) (BitVec.ofNat 32 seq)).wr (keyR 0xB04) (BitVec.ofNat 32 (seq / 2 ^ 32))
      let c := { (c.cn (wrd 0x510) 1).ev (wrd 0x400) (bit 4) with wrdS := { c.wrdS with cap := none } }
      let bits : Word := BitVec.ofNat 32 (fieldAt q.bytes 0x48 1 / 2 * 2 % 128)
      if fld bits 1 2 = 0 then c.fixCmd q.cmd stOk (le 8 seq ++ le 4 0)
      else c.mapGo bits (fieldAt q.bytes 0x50 8) (some q.cmd) (some seq)

/-- The fuse steps of an ownership capsule, once no commit request is in progress: OWNER_HASH, then OWNER_VALID (R428). -/
def Core.ownSeal (c : Core) (ok : Bool) : Core :=
  match c.wrdS.cap with
  | none => c
  | some q =>
    if !q.own || !(c.wState = 2) || c.gb (rsv 0x208) 0 then c
    else
      let seq := fieldAt q.bytes 8 8
      let c := { c with wrdS := { c.wrdS with cap := none } }
      if ok then
        let c := (c.blow 1 0 true).blow 2 0 true
        let c := (c.wr (keyR 0xB00) (BitVec.ofNat 32 seq)).wr (keyR 0xB04) (BitVec.ofNat 32 (seq / 2 ^ 32))
        ((c.cn (wrd 0x510) 1).ev (wrd 0x400) (bit 4)).fixCmd q.cmd stOk (le 8 seq ++ le 4 0)
      else (c.blow 1 0 false).capRefuse q.cmd 10

/-! ## Measurements and attestation (R429–R431) -/

/-- XMAP_HASH and PMAP_HASH (R429). -/
def Core.xmapHash (c : Core) : BitVec 256 :=
  let p := c.gf (rsv 0x200) 0 1
  let plane := (List.range 137216).flatMap fun i => le 4 (c.trd (xmap p i) &&& 0x7FFFFF).toNat
  let defs := (List.range 4096).flatMap fun g =>
    let e := (c.group g).eff
    (List.range 11).flatMap fun w => le 4 (gw e w).toNat
  Config.sha3 (plane ++ defs)
def Core.pmapHash (c : Core) : BitVec 256 :=
  let p := c.gf (rsv 0x200) 1 1
  let plane := (List.range 16384).flatMap fun i => (List.range 4).flatMap fun w =>
    le 4 (c.trd (pmap p i w) &&& (pmapRow w).cf).toNat
  Config.sha3 (plane ++ (List.range 48).flatMap fun k => le 4 (c.mspEff k).toNat)

/-- The Warden computes both hashes after a commit boundary, and at its first run. -/
def Core.mapHash (c : Core) : Core :=
  if !c.wrdS.hashDue || c.wDown then c
  else
    let x := c.xmapHash
    let p := c.pmapHash
    let c := forN 8 (fun k c => (c.wr (wrd (0x240 + 4 * k)) (x.extractLsb' (32 * k) 32)).wr (wrd (0x260 + 4 * k))
      (p.extractLsb' (32 * k) 32)) c
    let c := (c.wr (wrd 0x280) (BitVec.ofNat 32 c.wrdS.lastB)).wr (wrd 0x284) (BitVec.ofNat 32 (c.wrdS.lastB / 2 ^ 32))
    { c with wrdS := { c.wrdS with hashDue := false }, sluS := { c.sluS with xHash := x, pHash := p } }

/-- The CFG hash of a page (R430); the windows of WQ and the PCI Express structures of HIF are no registers. -/
def Core.cfgHash (c : Core) (slot : Nat) : BitVec 256 :=
  Config.sha3 ((List.range 1024).flatMap fun j =>
    let o := 4 * j
    let window := (slot = 0xC && decide (0xC00 ≤ o)) || (slot = 4 && decide (0xB80 ≤ o))
    match regRow slot o with
    | none => []
    | some r =>
      let m := r.cf ||| r.ct ||| r.gd
      if m = 0 ∨ window = true ∨ (0x30 ≤ o ∧ o < 0x40) then []
      else le 4 o ++ le 4 (c.voted (pg slot + o) &&& m &&& ~~~r.cmd).toNat)

/-- The page slots of the 118 pages. -/
def pageSlots : List Nat := (List.range 128).filter fun s => (pageKind s).isSome

/-- Registers of eight words as 32 bytes. -/
def Core.words (c : Core) (a n : Nat) : List Byte := (List.range n).flatMap fun k => le 4 (c.rd (a + 4 * k)).toNat

/-- An attestation report (Table 14-11). -/
def Core.report_ (c : Core) (nonce : List Byte) : List Byte :=
  let pk := Config.mldsaPublic Config.idSeed
  let st := c.rd (rsv 0x200)
  let flags := bitsWhere 6 fun k => match k with
    | 0 => c.sealed | 1 => c.gb (keyR 0x200) 1 | 2 => c.gb (keyR 0x200) 7 | 3 => c.wrdS.restarted
    | 4 => !bitOf st 2 || !bitOf st 3 | _ => bitOf st 6
  let body := le 4 0x54544152 ++ le 2 1 ++ le 2 flags.toNat ++ le 8 c.frame ++ c.words (hif 0x21C) 2 ++
    c.words (wrd 0x204) 1 ++ le 4 c.fuses.rollback ++ (nonce ++ List.replicate 32 0).take 32 ++ le 32 devId.toNat ++
    c.words (wrd 0x220) 8 ++ le 32 (if c.sealed then c.fuses.owner.toNat else 0) ++
    le 32 (Config.fwkHash (c.gf (wrd 0x208) 0 1)).toNat ++ c.words (wrd 0x240) 8 ++ c.words (wrd 0x260) 8 ++
    c.words (keyR 0x240) 4 ++ le 8 c.capSeq ++ c.words (snp 0x10) 1 ++ le 4 0 ++
    pageSlots.flatMap (fun s => le 32 (c.cfgHash s).toNat) ++ List.replicate 32 0 ++ pk
  let sig := Config.mldsaSign Config.idSeed ctxAtt body (if c.gb (wrd 0x44) 0 then c.freeCtr + 1 else 0)
  body ++ sig

/-- Bytes of a report. -/
abbrev reportLen : Nat := 7828

/-- ATTEST (R401, R431): the report is signed at the first boundary at which the hashes describe the planes in effect. -/
def Core.attestCmd (c : Core) (k : Cmd) : Core :=
  let o := k.at 40 8
  let n := k.at 48 4
  if n < reportLen then c.fixCmd k.id stBadParam (le 4 reportLen)
  else if !hostRange o reportLen then c.fixCmd k.id stBadParam []
  else { c with wrdS := { c.wrdS with attest := c.wrdS.attest ++ [(some (k.id, o, n), (k.bytes.drop 8).take 32)] } }

/-- The reports that are due at a boundary, or at the end of a nominal frame while D06 is stopped. -/
def Core.serveAttest (c : Core) : Core × List MemOp :=
  if c.wrdS.hashDue || c.wDown then (c, [])
  else
    let l := c.wrdS.attest
    let c := { c with wrdS := { c.wrdS with attest := [] } }
    forL l (fun q r =>
      let c := r.1
      let bs := c.report_ q.2
      let c := c.fresh.cn (hif 0x530) 1
      match q.1 with
      | some (id, o, _) => (c.srExit.fixCmd id stOk (le 4 reportLen), r.2 ++ [.write (orBase + o) bs])
      | none =>
        let c := { c with hifS := { c.hifS with doe := false }, linkOut := c.linkOut ++ [LinkResp.doe bs] }
        ((((c.sb (hif 0x208) 0 false).sb (hif 0x208) 2 true).ev (hif 0x400) (bit 7)).cn (hif 0x52C) 1, r.2)) (c, [])

/-! ## Test access (R432) -/

/-- A TAP instruction: in open mode a private one that reaches the TST page sets TEST_USED; in sealed mode every one but
IDCODE selects BYPASS. -/
def Core.jtag (c : Core) (i : TapInstr) : Core :=
  match i with
  | .priv true => if c.sealed || c.gb (keyR 0x200) 7 then c else (c.sb (keyR 0x200) 7 true).showFuses
  | _ => c

/-! ## The meanings of the Warden rows -/

def execKeyFuseCmd (v : Word) (ok : Bool) (s : State) : Host.Outcome State Fault Refusal := s.on (·.fuseCmd v ok)
def execFwLoad (tag : BitVec 16) (s : State) : Host.Outcome State Fault Refusal :=
  s.onMem fun c m => c.onCmdMem 4 tag.toNat [(8, 12)] fun c k => c.fwLoad k m
def execFwVerifyEnd (ok : Bool) (s : State) : Host.Outcome State Fault Refusal := s.on (·.fwVerifyEnd ok)
def execWardenRestart (s : State) : Host.Outcome State Fault Refusal := s.on (·.wardenRestart)
def execRestartHoldEnd (s : State) : Host.Outcome State Fault Refusal := s.on (·.holdEnd)
def execRestartVerifyEnd (s : State) : Host.Outcome State Fault Refusal := s.onMem (·.restartDone ·)
def execRestartTimeout (s : State) : Host.Outcome State Fault Refusal := s.onMem fun c m => (c.restartFail m, [])
def execCapsule (tag : BitVec 16) (s : State) : Host.Outcome State Fault Refusal :=
  s.onMem fun c m => c.onCmdMem 5 tag.toNat [(8, 12)] fun c k => c.capsule k m
def execCapsuleRecordsWritten (s : State) : Host.Outcome State Fault Refusal := s.on (·.capWritten)
def execOwnershipSeal (ok : Bool) (s : State) : Host.Outcome State Fault Refusal := s.on (·.ownSeal ok)
def execMapHashCompute (s : State) : Host.Outcome State Fault Refusal := s.on (·.mapHash)
def execAttest (tag : BitVec 16) (s : State) : Host.Outcome State Fault Refusal :=
  s.on fun c => c.onCmd 3 tag.toNat [(8, 44)] fun c k => c.attestCmd k
def execJtagInstruction (i : TapInstr) (s : State) : Host.Outcome State Fault Refusal := s.on (·.jtag i)

end Sys2Proof.Machine
end

