-- ==== Sys2Proof/Machine/View.lean ====
section
/-! DEFINITION. What a register shows to a host read (Table 2-9), with the conditions that the page maps compute rather than
store, and the causes of the MSI-X vectors (Table 13-2). -/

namespace Sys2Proof.Machine

/-! ## MSI-X causes (R389) -/

/-- An enabled bit is set in an event register. -/
def Core.evOn (c : Core) (ev en : Nat) : Bool := (c.rd ev &&& c.rd en) != 0

/-- The cause that a port gives its vector (PE_DEF_EVEN). -/
def Core.portIrq (c : Core) (p : Nat) : Bool :=
  let e := c.rd (pe p 0x404)
  (c.rd (pe p 0x400) &&& e &&& 0x1FFFFFFF) != 0 || (bitOf e 29 && c.rd (pe p 0x408) != 0) ||
    (bitOf e 30 && c.rd (pe p 0x40C) != 0) || (bitOf e 31 && c.rd (pe p 0x410) != 0)

/-- The cause of a vector (Table 13-2). -/
def Core.cause (c : Core) (v : Nat) : Bool :=
  match v with
  | 0 => c.gf (hif 0x218) 0 11 != c.gf (hif 0xB04) 0 11
  | 1 => (List.range 256).any c.irqOf
  | 2 => c.evOn (rsv 0x400) (rsv 0x404) || c.evOn (rsv 0x408) (rsv 0x40C)
  | 3 => c.evOn (slu 0x400) (slu 0x404) || c.rd (slu 0x408) != 0 || c.rd (slu 0x40C) != 0
  | 4 => c.evOn (tim 0x400) (tim 0x404)
  | 5 => c.evOn (ga 0 0x400) (ga 0 0x404) || c.evOn (ga 1 0x400) (ga 1 0x404)
  | 6 => c.rd (wq 0x400) != 0
  | 7 => c.evOn (cuP 0x400) (cuP 0x404)
  | 8 => c.evOn (snp 0x400) (snp 0x404)
  | 9 => (List.range 4).any fun i => c.rd (hif (0x410 + 4 * i)) != 0
  | 10 => c.evOn (hif 0x400) (hif 0x404)
  | 11 => c.gb (hif 0x208) 1 || c.gb (hif 0x208) 2
  | _ =>
    if v < 16 ∨ 64 ≤ v then false
    else
      let p := 2 * (v - 16)
      c.portIrq p || c.portIrq (p + 1) || (p % 16 = 0 && c.evOn (bk (p / 16) 0x400) (bk (p / 16) 0x404))

/-- The causes of 32 vectors as a word. -/
def Core.causeWord (c : Core) (w : Nat) : Word := bitsWhere 32 fun b => c.cause (32 * w + b)

/-- The mask bit of a vector's table entry. -/
def Core.vecMasked (c : Core) (v : Nat) : Bool := c.gb (hif (0xC0C + 16 * v)) 0

/-! ## Conditions computed on a read -/

/-- A DCC tap is enabled on some port. -/
def Core.dccAny (c : Core) : Bool := (List.range 96).any fun p => c.dccOn p false || c.dccOn p true

/-- A clock domain D00 to D24 runs (R24, Table 1-6). TCK toggles only within a TAP instruction, so D12 stands between two
commands. The link is in a low-power link state in L1 (Table 1-8). -/
def Core.clockRuns (c : Core) (d : Nat) : Bool :=
  match d with
  | 0 => c.pins.pwrgood
  | 1 => c.pins.perst && c.levS.started && !c.levS.inL1
  | 2 => decide (2 ≤ c.pstate)
  | 3 => c.wState = 1 || c.wState = 2 || c.wState = 5
  | 4 | 5 => c.rsvS.rings != [] || (c.levS.started && !c.gb (rsv 0x204) 3 && !c.gb (rsv 0x204) 4)
  | 6 | 7 => c.d06
  | 8 => c.d06 && (List.range 24).any fun g => c.en (0xA + g / 12) && c.gb (gaR g 0) 0
  | 9 => c.en 0xC || c.dccAny
  | 10 => (List.range 32).any c.cuOpen
  | 11 => c.mateOn
  | 12 => false
  | _ =>
    if d < 19 then c.gb (bk (d - 13) 0x200) 0 && c.d06
    else if d < 25 then c.gb (bk (d - 19) 0x200) 0 && (List.range 16).any fun k => c.gb (pe (16 * (d - 19) + k) 0x200) 5
    else false

/-- The clock domain whose running a page's RUN shows. -/
def pageDomain (slot : Nat) : Nat :=
  match pageKind slot with
  | some .lev | some .spw => 0 | some .hif => 1 | some .dev | some .snp => 2 | some .wrd | some .key => 3 | some .rsv => 4
  | some .slu => 5 | some .tim => 6 | some .ga => 8 | some .wq => 9 | some .cu => 10 | some .tst => 12
  | some .bk => 13 + (slot - 0x10) | some .pe => 13 + (slot - 0x20) / 16 | none => 25

/-- Whether a page's clock domain runs (Table 1-6). -/
def Core.domainRuns (c : Core) (slot : Nat) : Bool := c.islandUp (islandOf slot) && c.clockRuns (pageDomain slot)

/-- Frames to the earliest deadline of a command that is not fixed; 0 for none. -/
def Core.dlLeft (c : Core) : Nat :=
  match (c.cmds.filter fun (k : Cmd) => !k.fixed).map (·.dl) with
  | [] => 0
  | d :: ds => min 65535 (ds.foldl min d)

/-- Completion slots written and not released. -/
def Core.cplUsed (c : Core) : Nat := (c.gf (hif 0x218) 0 11 + 2048 - c.gf (hif 0xB04) 0 11) % 2048

/-- The HIF registers that follow the ring's state (Table 13-10). -/
def Core.hifView (c : Core) (o : Nat) : Option Word :=
  if o = 0x210 then
    some (BitVec.ofNat 32 (c.cmds.length + c.gf (hif 0x210) 11 2 * 2048 + (if 1024 ≤ c.cplUsed then 2 ^ 13 else 0)))
  else if o = 0x230 then some (c.causeWord 0)
  else if o = 0x234 then some (c.causeWord 1)
  else if o = 0x238 then some (BitVec.ofNat 32 c.dlLeft)
  else if 0x280 ≤ o ∧ o < 0x300 then
    some (bitsWhere 32 fun b => c.cmds.any fun (k : Cmd) => k.slot = (o - 0x280) / 4 * 32 + b)
  else if o = 0xB80 ∨ o = 0xB84 then
    some (bitsWhere 32 fun b => c.hifS.due.contains ((o - 0xB80) / 4 * 32 + b) && c.vecMasked ((o - 0xB80) / 4 * 32 + b))
  else none

/-- The boundary a snapshot request or SNP_PERIOD has selected; 0 for none (R63, R66). -/
def Core.snapNext (c : Core) : Nat :=
  let p := c.gf (snp 0x40) 0 16
  let per := if c.en 0xE && c.d06 && p != 0 then [(c.frame / p + 1) * p] else []
  match (match c.snpS.req with | some q => [q.2] | none => []) ++ per with
  | [] => 0
  | b :: bs => bs.foldl min b

/-- A register shown by a page as a computed condition. -/
def Core.pageView (c : Core) (slot o : Nat) : Option Word :=
  match pageKind slot with
  | some .lev => if o = 0x208 then some (BitVec.ofNat 32 c.tick) else none
  | some .spw => if o = 0xB1C then some (c.tmrStat (128 * (slot - 2) + c.gf (pg slot + 0xB18) 0 7)) else none
  | some .hif => c.hifView o
  | some .rsv => if 0xB24 ≤ o ∧ o ≤ 0xB30 then some (c.ringWindow o) else none
  | some .slu => if o = 0xB10 then some (c.psStat (c.gf (slu 0xB0C) 0 14)) else none
  | some .snp =>
    if o = 0x200 then some (BitVec.ofNat 32 c.frame)
    else if o = 0x210 then some (BitVec.ofNat 32 c.snapNext)
    else if o = 0x214 then some (BitVec.ofNat 32 (c.snapNext / 2 ^ 32))
    else if o = 0x218 then some (setFld (c.rd (snp 0x218)) 0 1 (if c.snpS.req.isSome then 1 else 0))
    else none
  | some .ga =>
    if o = 0xE04 then some (c.coefRead (slot - 0xA))
    else if 0xB00 ≤ o ∧ o < 0xE00 ∧ o % 0x40 = 0x20 then (c.gauge (12 * (slot - 0xA) + (o - 0xB00) / 0x40)).latch
    else none
  | some .cu =>
    let u := (o - 0xC00) / 0x20
    let v := c.cuVal u % 2 ^ (c.profile (c.gf (cuR u 4) 0 4)).width
    if 0xC00 ≤ o ∧ o % 0x20 = 0xC then some (BitVec.ofNat 32 v)
    else if 0xC00 ≤ o ∧ o % 0x20 = 0x10 then some (BitVec.ofNat 32 (v / 2 ^ 32))
    else none
  | some .wq => if 0xC00 ≤ o ∧ o < 0xE00 then some (c.readWindow o) else none
  | _ => none

/-- What a register reads as, with no effect of the read: GD fields, command bits and write-only fields read zero; the LIVE
area of a stale page reads its reset values (R40, R464). -/
def Core.view (c : Core) (a : Nat) : Word :=
  let slot := a / 0x1000
  let o := a % 0x1000
  match (pageKind slot).bind fun k => findRow k o with
  | none => 0
  | some r =>
    let w :=
      if o = 0x008 then setFld (c.rd a) 0 1 (if c.en slot && c.domainRuns slot then 1 else 0)
      else if o = 0x010 then c.rd (snp 0x10)
      else if o = 0x03C then setFld (c.rd a) 8 1 (if c.wState = 4 then 1 else 0)
      else if 0x200 ≤ o ∧ o < 0x400 ∧ c.staleHeld slot = true then regReset a
      else (c.pageView slot o).getD (c.voted a)
    w &&& ~~~(r.gd ||| r.cmd ||| r.zero)

/-! ## MSI-X messages (R390) -/

/-- Causes that have risen make their message due. -/
def Core.msi (c : Core) : Core :=
  let now : BitVec 64 := c.causeWord 1 ++ c.causeWord 0
  let rise := (List.range 64).filter fun v => now.getLsbD v && !c.hifS.was.getLsbD v && !c.hifS.due.contains v
  { c with hifS := { c.hifS with was := now, due := c.hifS.due ++ rise } }

/-- The gap of a vector's last message has ended. -/
def Core.gapOver (c : Core) (v : Nat) : Bool :=
  let last : Nat := Sparse.get (fun _ => 0) c.hifS.sent v
  let gap := c.gf (hif 0x48) 0 16
  gap = 0 || last = 0 || decide (last - 1 + gap ≤ c.tick)

/-- A due message sent, subject to EN, the link, the mask and the gap. -/
def Core.sendMsg (c : Core) (v : Nat) : Core :=
  if c.hifS.due.contains v && c.en 4 && c.gb (hif 0x200) 0 && !c.vecMasked v && c.gapOver v then
    { c with hifS := { c.hifS with
        due := c.hifS.due.filter (· ≠ v), sent := Sparse.put (fun _ => 0) c.hifS.sent v (c.tick + 1) } }.send (.message v)
  else c

def execMsixMessage (v : VecNo) (s : State) : Host.Outcome State Fault Refusal := s.on fun c => c.msi.sendMsg v.val

/-- A message that HIF_VEC_MOD.GAP deferred is sent at the end of the gap. -/
def execMsixGapEnd (v : VecNo) (s : State) : Host.Outcome State Fault Refusal :=
  s.on fun c => if c.gf (hif 0x48) 0 16 = 0 then c.msi else c.msi.sendMsg v.val

end Sys2Proof.Machine
end

