-- ==== Sys2Proof/Machine/HostIf.lean ====
section
/-! DEFINITION. The host interface (chapter 13): the link, the command ring with deadlines and aborts, the ring commands that
no other block serves, the DOE mailbox and the Ledger. -/

namespace Sys2Proof.Machine

/-! ## The link (R380–R384) -/

/-- The fastest SPEED code that MAX_SPEED permits. -/
def Core.maxSpeed (c : Core) : Nat := match c.gf (hif 0x40) 0 2 with | 0 => 5 | 1 => 4 | _ => 3

/-- The link trains, or trains again while it is up (R380, R381). -/
def Core.linkUp (c : Core) (cxl : Bool) (speed width : Nat) : Core :=
  let fits := [1, 2, 4, 8].contains width && decide (speed ≤ c.maxSpeed) &&
    (if cxl then decide (3 ≤ speed) else decide (1 ≤ speed) && c.gb (hif 0x40) 2)
  if !fits || !c.pins.perst || !c.islandUp 1 then c
  else
    let old := c.rd (hif 0x200)
    let new := BitVec.ofNat 32 (1 + (if cxl then 2 else 0) + speed * 4 + width * 32)
    let d := c.wr (hif 0x200) new
    if bitOf old 0 then
      let d := d.cn (hif 0x528) 1
      if fld old 2 7 = fld new 2 7 then d else d.ev (hif 0x400) (bit 2)
    else d.ev (hif 0x400) (bit 0)

/-- The link goes down without PERST_N: the ring state is kept; accesses that wait for a completion lose it (R383). -/
def Core.linkDown (c : Core) : Core :=
  if c.gb (hif 0x200) 0 then { ((c.wr (hif 0x200) 0).ev (hif 0x400) (bit 1)).leaveL1 with blocked := [] } else c

/-- The HDM decoder committed, in CXL mode (R384). -/
def Core.hdmCommit (c : Core) : Core :=
  if c.gb (hif 0x200) 0 && c.gb (hif 0x200) 1 then c.sb (hif 0x204) 0 true else c

/-! ## The rings (R392–R396) -/

/-- EN turned on: positions at 0, phase 1, fetching not stopped (R392, R394). -/
def Core.ringStart (c : Core) : Core :=
  let c := ((c.wr (hif 0x214) 0).wr (hif 0xB00) 0).wr (hif 0x218) 0
  (c.wr (hif 0xB04) 0).sf (hif 0x210) 11 2 2

/-- A doorbell, written as the tail `old` → the stored value (R393). -/
def Core.doorbell (c : Core) (old : Word) : Core :=
  let t := c.gf (hif 0xB00) 0 11
  if (t + 2048 - c.gf (hif 0x214) 0 11) % 2048 ≤ 1024 then c.wakeWarden 1
  else ((c.wr (hif 0xB00) old).ev (hif 0x400) (bit 3)).cn (hif 0x51C) 1

/-- HIF_CPL_HEAD written: slots released, or a slot not yet written (13.9). -/
def Core.cplHead (c : Core) (old : Word) : Core :=
  let used := (c.gf (hif 0x218) 0 11 + 2048 - fld old 0 11) % 2048
  if (c.gf (hif 0xB04) 0 11 + 2048 - fld old 0 11) % 2048 ≤ used then c
  else (c.wr (hif 0xB04) old).ev (hif 0x400) (bit 3)

/-- A vector's bits of HIF_VEC_REARM written (R390): the message is due again where the cause is still 1. -/
def Core.rearm (c : Core) (w : Nat) (bits : Word) : Core :=
  let l := (List.range 32).filter fun b => bitOf bits b && c.cause (32 * w + b) && !c.hifS.due.contains (32 * w + b)
  { c with hifS := { c.hifS with due := c.hifS.due ++ l.map (32 * w + ·) } }

/-- Whether commands fetched now find no Warden (R400): an update's restart only delays them (R420). -/
def Core.noWardenNow (c : Core) : Bool :=
  c.wState = 0 || c.wState = 1 || c.wState = 4 || (c.wState = 5 && !c.wrdS.staging && c.wrdS.fw.isNone)

/-- The next slot fetched, or refused by the host memory (R393, R394, R396, R400, R403). -/
def Core.fetch (c : Core) (slot : Option (List Byte)) : Core :=
  let head := c.gf (hif 0x214) 0 11
  if !c.en 4 || c.gb (hif 0x210) 11 || decide (head = c.gf (hif 0xB00) 0 11) || decide (1024 ≤ c.cmds.length) ||
      !c.gb (hif 0x200) 0 then c
  else match slot with
    | none => ((c.sb (hif 0x210) 11 true).wr (hif 0x224) (BitVec.ofNat 32 (head % 1024 + 4096))).ev (hif 0x400) (bit 4)
    | some bs =>
      let bs := (bs ++ List.replicate 64 0).take 64
      let f (o n : Nat) := unle ((bs.drop o).take n)
      let dl := if f 4 2 ≠ 0 then f 4 2 else if c.gf (hif 0x44) 0 16 ≠ 0 then c.gf (hif 0x44) 0 16 else 8000
      let dup := c.cmds.any fun (k : Cmd) => k.tag = f 2 2 && !k.dup
      let k : Cmd := { id := c.cmdNo, tag := f 2 2, slot := head % 1024, op := f 0 1, bytes := bs, dl := dl + 1,
                       fence := f 1 1 % 2 = 1, dup := dup }
      let c := { c with cmdNo := c.cmdNo + 1, cmds := c.cmds ++ [k] }
      let c := (c.wr (hif 0x214) (BitVec.ofNat 32 ((head + 1) % 2048))).cn (hif 0x500) 1
      if dup then (c.cn (hif 0x510) 1).fixCmd k.id stTagBusy []
      else if c.noWardenNow && k.op != 4 then c.fixCmd k.id stNoWarden []
      else if 0x0B < k.op then c.fixCmd k.id stBadOpcode []
      else c.wakeWarden 1

/-- The bytes of a completion (Table 13-4). -/
def Cpl.bytes (q : Cpl) (phase : Bool) : List Byte :=
  le 2 q.tag ++ le 1 q.status ++ le 1 ((if phase then 1 else 0) + (if q.dup then 2 else 0)) ++ le 1 q.op ++ le 1 0 ++
    le 2 q.slot ++ le 8 q.frame ++ q.result

/-- The oldest fixed completion written, where the ring has room and the link is up (R383, R395). -/
def Core.cplWrite (c : Core) : Core :=
  match c.cpls with
  | [] => c
  | q :: rest =>
    if !c.gb (hif 0x200) 0 then c
    else if 1024 ≤ c.cplUsed then c.ev (hif 0x400) (bit 5)
    else
      let tail := c.gf (hif 0x218) 0 11
      let phase := c.gb (hif 0x210) 12
      let next := (tail + 1) % 2048
      let c := c.send (.completion (tail % 1024) (q.bytes phase))
      let c := { c with
        cpls := rest
        cmds := c.cmds.filter fun (k : Cmd) => k.id ≠ q.id
        hifS := { c.hifS with chip := match c.hifS.chip with
          | some (i, t) => some (i, if i = q.id then some c.levS.frames else t)
          | none => none } }
      let c := (c.wr (hif 0x218) (BitVec.ofNat 32 next)).wr (hif 0x228) (BitVec.ofNat 32 (q.tag + q.status * 65536))
      if next % 1024 = 0 then c.sb (hif 0x210) 12 (!phase) else c

/-! ## Deadlines and ABORT (R398, R399) -/

/-- The outstanding command with a tag is dropped at its deadline boundary. -/
def Core.expire (c : Core) (tag : Nat) : Core :=
  match c.cmdOf tag with
  | some k => if k.dl = 0 then (c.fixCmd k.id stLate []).withdraw k.id else c
  | none => c

/-- ABORT. -/
def Core.abortCmd (c : Core) (k : Cmd) : Core :=
  match c.cmds.find? fun (j : Cmd) => j.tag = k.at 8 2 && !j.dup && j.op != 1 with
  | none => c.fixCmd k.id stNotFound []
  | some j =>
    if j.fixed then c.fixCmd k.id stAlreadyDone []
    else ((c.fixCmd j.id stAborted []).withdraw j.id).fixCmd k.id stOk []

/-! ## The command set (Table 13-6) -/

/-- MAP_COMMIT. -/
def Core.commitCmd (c : Core) (k : Cmd) : Core :=
  if c.sealed then c.fixCmd k.id stSealed []
  else c.mapGo (BitVec.ofNat 32 (k.at 8 1) &&& 0x7E ||| 1) (k.at 16 8) (some k.id) none

/-- MAP_CANCEL. -/
def Core.cancelCmd (c : Core) (k : Cmd) (left : Nat) : Core :=
  let c := c.mapCancel left
  c.fixCmd k.id stOk (le 4 (c.rd (rsv 0x208)).toNat)

/-- GUARD_WRITE (R402). -/
def Core.guardCmd (c : Core) (k : Cmd) : Core :=
  let v := BitVec.ofNat 32 (k.at 12 4)
  let m := BitVec.ofNat 32 (k.at 16 4)
  match regRow (k.at 8 1) (k.at 10 2) with
  | none => c.fixCmd k.id stBadParam []
  | some r =>
    if m &&& ~~~r.elig ≠ 0 then c.fixCmd k.id stBadParam []
    else if c.sealed && (m &&& ~~~v &&& ~~~r.cmd) != 0 then c.fixCmd k.id stSealed []
    else
      let q := c.guardWrite (k.at 8 1) (k.at 10 2) v m 8
      q.1.fixCmd k.id stOk (le 4 q.2.toNat)

/-- CHECK (R374, R401). -/
def Core.checkCmd (c : Core) (k : Cmd) : Core :=
  if 31 < k.at 8 1 ∨ hostRange (k.at 24 8) (k.at 32 4) = false then c.fixCmd k.id stBadParam []
  else c.cuCheck k.id (k.at 8 1) (BitVec.ofNat 32 (k.at 12 4)) (BitVec.ofNat 32 (k.at 16 4)) (k.at 24 8) (k.at 32 4)

/-- CHIP_RESET: completed; the reset is timed from the writing of its completion. -/
def Core.chipCmd (c : Core) (k : Cmd) : Core :=
  { c.fixCmd k.id stOk [] with hifS := { c.hifS with chip := some (k.id, none) } }

/-- RESYNC and HIF_RESYNC.GO request a Ledger (R404). -/
def Core.resyncCmd (c : Core) (k : Cmd) : Core :=
  { c with wrdS := { c.wrdS with ledger := c.wrdS.ledger ++ [some k.id] } }
def Core.resyncGo (c : Core) : Core :=
  { c with wrdS := { c.wrdS with ledger := c.wrdS.ledger ++ [none] } }.sb (hif 0xB08) 1 true |>.wakeWarden 1

/-! ## The Ledger (R405, Table 13-7) -/

def zeros (n : Nat) : List Byte := List.replicate n 0

/-- Registers as a host read shows them. -/
def Core.views (c : Core) (a n : Nat) : List Byte := (List.range n).flatMap fun k => le 4 (c.view (a + 4 * k)).toNat

/-- The group section's word. -/
def Core.ledgerGroup (c : Core) (g : Nat) : Nat :=
  let w := c.trd (grp g 12)
  let n := c.trd (grp g 13)
  fld w 0 6 + fld w 9 1 * 64 + fld w 7 1 * 128 + fld n 18 9 * 256 + fld n 9 9 * 2 ^ 17 +
    (if gValid (c.group g).eff then 2 ^ 26 else 0)

/-- The pair section's half word. -/
def Core.ledgerPair (c : Core) (n : Nat) : Nat :=
  if !c.pairValid c.mapsNow.p n then 0
  else
    let s := c.psStat n
    1 + fld s 4 1 * 2 + fld s 5 2 * 4 + fld s 18 3 * 16 + fld s 22 1 * 128 + fld s 0 4 * 256 + fld s 27 1 * 4096 +
      fld s 28 1 * 8192

/-- A Ledger's bytes but for GEN and GEN_END, which are the same number. -/
def Core.ledgerBytes (c : Core) (gen : Nat) (reqs : List (Option Nat)) : List Byte :=
  let rs := reqs.filterMap id
  let tag : Nat := match rs with
    | i :: _ => (c.cmds.filter fun (k : Cmd) => k.id = i).foldl (fun _ (k : Cmd) => k.tag) 0
    | [] => 0
  let req := (if reqs.contains none then 1 else 0) + (if rs = [] then 0 else 2) + tag * 65536
  let out := (c.cmds.take 1024).flatMap fun (k : Cmd) => le 4 (k.tag + k.slot * 65536 + k.op % 32 * 2 ^ 26 + 2 ^ 31)
  let page (s : Nat) : List Byte :=
    if (pageKind s).isNone then zeros 48
    else c.views (pg s + 4) 2 ++ le 32 (c.cfgHash s).toNat ++ c.views (pg s) 1 ++ zeros 4
  let port (p : Nat) : List Byte := c.views (pe p 0x200) 6 ++ le 4 (c.rd (pe p 0x70)).toNat ++ zeros 4
  le 4 1 ++ le 4 65536 ++ le 8 gen ++ le 8 c.frame ++ c.words (snp 0x10) 1 ++
    le 4 (c.gf (lev 0x200) 0 2 + c.gf (lev 0x200) 8 6 * 256) ++ le 4 c.wState ++ le 4 req ++ le 4 c.hifS.lost ++ zeros 20 ++
  le 32 devId.toNat ++ c.words (wrd 0x220) 8 ++ c.words (wrd 0x204) 1 ++
    le 4 ((if c.sealed then 1 else 0) + (if c.sealed || c.fuses.owner != 0 then 2 else 0)) ++ le 8 c.fuses.rollback ++ le 8 c.capSeq ++
    zeros 104 ++
  c.words (spw 0 0x240) 4 ++ c.words (spw 0 0x220) 4 ++ c.words (spw 1 0x220) 4 ++ c.words (spw 0 0x250) 1 ++ zeros 76 ++
  c.words (spw 0 0xC00) 64 ++ c.words (spw 1 0xC00) 64 ++
  le 4 (c.gf (rsv 0x200) 0 8) ++ zeros 4 ++ le 8 c.wrdS.lastB ++ zeros 16 ++ c.words (wrd 0x240) 8 ++ c.words (wrd 0x260) 8 ++
    zeros 32 ++
  ((List.range 16).flatMap fun q => c.views (wq (0x240 + 4 * q)) 1 ++ c.views (wq (0x2C0 + 4 * q)) 1) ++
  le 4 (c.gf (hif 0x214) 0 11 + c.gf (hif 0xB00) 0 11 * 65536) ++ le 4 (c.gf (hif 0x218) 0 11 + c.gf (hif 0xB04) 0 11 * 65536) ++
    le 4 c.cmds.length ++ zeros 116 ++
  (out ++ zeros (4096 - out.length)) ++
  ((List.range 128).flatMap page) ++ ((List.range 96).flatMap port) ++ c.views (slu 0x280) 48 ++ zeros 1592 ++ le 8 gen ++
  ((List.range 4096).flatMap fun g => le 4 (c.ledgerGroup g)) ++ ((List.range 16384).flatMap fun n => le 2 (c.ledgerPair n))

/-- The Warden writes a Ledger that serves every request accepted so far (R404, R405). -/
def Core.ledgerWrite (c : Core) : Core × List MemOp :=
  let reqs := c.wrdS.ledger
  if reqs = [] ∨ c.wState ≠ 2 ∨ c.orReady = false then (c, [])
  else
    let c := c.srExit
    let gen := c.wrdS.ledgerGen + 1
    let bs := c.ledgerBytes gen reqs
    let c := { c with wrdS := { c.wrdS with ledger := [], ledgerGen := gen } }
    let c := (c.wr (hif 0x21C) (BitVec.ofNat 32 gen)).wr (hif 0x220) (BitVec.ofNat 32 (gen / 2 ^ 32))
    let c := c.cn (hif 0x514) 1
    let c := forL (reqs.filterMap id) (fun i c => c.fixCmd i stOk (le 8 gen)) c
    let c := if reqs.contains none then (c.sb (hif 0xB08) 1 false).ev (hif 0x400) (bit 6) else c
    (c, [.write (orBase + 0x1B000000) bs])

/-! ## The DOE mailbox (R386–R388) -/

/-- A DOE response's header: vendor, object type, and length in words. -/
def doeHead (vendor type words : Nat) : List Byte := le 2 vendor ++ le 2 type ++ le 4 (words + 2)

/-- The discovery response for an index: the three protocols in the order of R386, with the next index. -/
def doeDiscovery (i : Nat) : List Byte :=
  let q : Nat × Nat := match i with | 0 => (0x0001, 0) | 1 => (0x1E98, 2) | _ => (Config.vendorId.toNat, 0x52)
  doeHead 0x0001 0 1 ++ le 2 q.1 ++ le 1 q.2 ++ le 1 (if i < 2 then i + 1 else 0)

/-- A DSLBIS entry: the data type, its unit and its value. -/
def dslbis (type unit value : Nat) : List Byte :=
  le 1 1 ++ le 1 0 ++ le 2 24 ++ le 1 0 ++ le 1 0 ++ le 1 type ++ le 1 0 ++ le 8 unit ++ le 2 value ++ zeros 6

/-- The CDAT (R387): one DSMAS and the DSLBIS entries for latency in nanoseconds and bandwidth in MB/s. -/
def cdat : List Byte :=
  let body := le 1 0 ++ le 1 0 ++ le 2 24 ++ le 1 0 ++ le 1 0 ++ le 2 0 ++ le 8 0 ++ le 8 (2 ^ 30) ++
    dslbis 1 1000 600 ++ dslbis 2 1000 500 ++ dslbis 4 1 25600 ++ dslbis 5 1 25600
  let head (sum : Nat) := le 4 (body.length + 16) ++ le 1 1 ++ le 1 sum ++ zeros 10
  let s := sumL ((head 0 ++ body).map (·.toNat))
  head ((256 - s % 256) % 256) ++ body

/-- A DOE request: one at a time; an attestation waits for its report, and without a Warden it ends in error. -/
def Core.doeRequest (c : Core) (x : DoeObj) : Core :=
  if !c.gb (hif 0x200) 0 then c.send .noLink
  else if c.hifS.doe then c.sb (hif 0x208) 0 true
  else
    let obj (c : Core) (n : Nat) : Core := c.wr (hif 0x208) (BitVec.ofNat 32 (n * 256))
    let ok (c : Core) (bs : List Byte) : Core :=
      (((c.sb (hif 0x208) 2 true).ev (hif 0x400) (bit 7)).cn (hif 0x52C) 1).send (.doe bs)
    match x with
    | .discovery i => ok (obj c 0) (doeDiscovery i.toNat)
    | .cdat => ok (obj c 1) (doeHead 0x1E98 2 ((cdat.length + 7) / 4) ++ le 4 0xFFFF0000 ++ cdat)
    | .attest n =>
      let c := { (obj c 2).sb (hif 0x208) 0 true with
        hifS := { c.hifS with doe := true }
        wrdS := { c.wrdS with attest := c.wrdS.attest ++ [(none, le 32 n.toNat)] } }
      if c.wDown then c.doeError else c

/-! ## The meanings of the host-interface rows that are no register access -/

def execLinkUp (cxl : Bool) (speed : Fin 8) (width : Fin 16) (s : State) : Host.Outcome State Fault Refusal :=
  s.on (·.linkUp cxl speed.val width.val)
def execLinkDown (s : State) : Host.Outcome State Fault Refusal := s.on (·.linkDown)
def execHdmDecoderCommit (s : State) : Host.Outcome State Fault Refusal := s.on (·.hdmCommit)
def execDoeRequest (x : DoeObj) (s : State) : Host.Outcome State Fault Refusal := s.on (·.doeRequest x)
def execCommandFetch (slot : Option (List Byte)) (s : State) : Host.Outcome State Fault Refusal := s.on (·.fetch slot)
def execCompletionWrite (s : State) : Host.Outcome State Fault Refusal := s.on (·.cplWrite)
def execDeadlineExpire (tag : BitVec 16) (s : State) : Host.Outcome State Fault Refusal := s.on (·.expire tag.toNat)
def execNop (tag : BitVec 16) (s : State) : Host.Outcome State Fault Refusal :=
  s.on fun c => c.onCmd 0 tag.toNat [] fun c k => c.fixCmd k.id stOk []
def execAbort (tag : BitVec 16) (s : State) : Host.Outcome State Fault Refusal :=
  s.on fun c => c.onCmd 1 tag.toNat [(8, 2)] fun c k => c.abortCmd k
def execResync (tag : BitVec 16) (s : State) : Host.Outcome State Fault Refusal :=
  s.on fun c => c.onCmd 2 tag.toNat [] fun c k => c.resyncCmd k
def execMapCommit (tag : BitVec 16) (s : State) : Host.Outcome State Fault Refusal :=
  s.on fun c => c.onCmd 6 tag.toNat [(8, 1), (16, 8)] fun c k => c.commitCmd k
def execMapCancel (tag : BitVec 16) (left : Nat) (s : State) : Host.Outcome State Fault Refusal :=
  s.on fun c => c.onCmd 7 tag.toNat [] fun c k => c.cancelCmd k left
/-- PROT_CMD waits while the command before it has not been evaluated (R70). -/
def execProtCmd (tag : BitVec 16) (left : Nat) (s : State) : Host.Outcome State Fault Refusal :=
  s.on fun c => if c.gb (slu 0xB04) 0 then c
    else c.onCmd 8 tag.toNat [(8, 4)] fun c k => c.xcmdGo (BitVec.ofNat 32 (k.at 8 4) ||| 1) left (some k.id)
def execGuardWrite (tag : BitVec 16) (s : State) : Host.Outcome State Fault Refusal :=
  s.on fun c => c.onCmd 9 tag.toNat [(8, 1), (10, 2), (12, 4), (16, 4)] fun c k => c.guardCmd k
def execCheck (tag : BitVec 16) (s : State) : Host.Outcome State Fault Refusal :=
  s.on fun c => c.onCmd 0xA tag.toNat [(8, 1), (12, 4), (16, 4), (24, 8), (32, 4)] fun c k => c.checkCmd k
def execChipReset (tag : BitVec 16) (s : State) : Host.Outcome State Fault Refusal :=
  s.on fun c => c.onCmd 0xB tag.toNat [] fun c k => c.chipCmd k
def execLedgerWrite (s : State) : Host.Outcome State Fault Refusal := s.onMem fun c _ => c.ledgerWrite

end Sys2Proof.Machine
end

