-- ==== Sys2Proof/Machine/Access.lean ====
section
/-! DEFINITION. Host accesses to BAR0 and BAR2 (chapter 2): the order they take effect in, waits for islands and snapshot copies,
register reads and writes under the rules of each field kind, and what the page maps give a write or a read as its effect. -/

namespace Sys2Proof.Machine

/-- A page that no host access reaches (R50). -/
def privileged (slot : Nat) : Bool := slot = 5 || slot = 6 || slot = 0xF

/-! ## Reads -/

/-- What a full 32-bit BAR0 read does beyond returning the value: EV fields clear (R40), and the reads that latch, claim, step or
restart. -/
def Core.readEffect (c : Core) (a : Nat) : Core :=
  let slot := a / 0x1000
  let o := a % 0x1000
  let ev := match (pageKind slot).bind fun k => findRow k o with | some r => r.ev | none => 0
  let c := if ev = 0 then c else c.wr a (c.rd a &&& ~~~ev)
  match pageKind slot with
  | some .lev => if o = 0x208 then c.wr (lev 0x20C) (BitVec.ofNat 32 (c.tick / 2 ^ 32)) else c
  | some .snp => if o = 0x200 then c.wr (snp 0x204) (BitVec.ofNat 32 (c.frame / 2 ^ 32)) else c
  | some .dev => if o = 0x224 then c.wr (dev 0x224) (c.rd (dev 0x220)) else c
  | some .rsv => if o = 0x238 then c.wr (rsv 0x238) 0 else c
  | some .ga =>
    let g := 12 * (slot - 0xA) + (o - 0xB00) / 0x40
    if o = 0xE04 then c.coefStep (slot - 0xA)
    else if o < 0xB00 ∨ 0xE00 ≤ o then c
    else if o % 0x40 = 0x1C then c.updGauge g fun x => { x with latch := some (c.rd (gaR g 0x20)) }
    else if o % 0x40 = 0x20 then c.updGauge g fun x => { x with latch := none }
    else c
  | some .wq =>
    if o = 0xB04 then c.claimHead
    else if 0x280 ≤ o ∧ o < 0x2C0 then c.peakRead ((o - 0x280) / 4)
    else c
  | _ => c

/-- A use of a register checks its parity (R42, R43): a mismatch sets PAR_ERR and reports the page's source. -/
def Core.used (c : Core) (a : Nat) : Core :=
  if Sparse.get (fun _ => 0) c.parMis (a / 4 * 4) = 0 then c
  else
    let c := c.ev (pg (a / 0x1000) + 8) (bit 9)
    match intSource (a / 0x1000) with | some k => c.report k | none => c

/-- Every register whose parity mismatches, on a powered page: the blocks use their configuration in every frame (R42). -/
def Core.useAll (c : Core) : Core :=
  forL (c.parMis.filter fun q => c.islandUp (islandOf (q.1 / 0x1000))) (fun q c => c.used q.1) c

/-- A full 32-bit read of a register page. -/
def Core.hostRead (c : Core) (a : Nat) : Core × LinkResp :=
  let slot := a / 0x1000
  if (pageKind slot).isNone then (c, .abort)
  else if privileged slot then (c.report 147, .abort)
  else ((c.readEffect a).used a, .data (c.view a))

/-! ## The guarded fallback (R52–R56, R424) -/

/-- A fallback write refused on a page: its cause shown, and a record with the offset of the write (R53, R55). -/
def Core.grdRej (c : Core) (slot off cause : Nat) : Core :=
  let c := (c.ign (pg slot + off) 0xA).ev (pg slot + 0x3C) (bit 3)
  c.sf (pg slot + 0x3C) 4 4 cause

/-- The open sequence discarded: on its own page, with a cause. -/
def Core.grdDrop (c : Core) (off cause : Nat) : Core :=
  match c.grd with
  | some q => (({ c with grd := none } : Core).sf (pg q.1 + 0x3C) 0 2 0).grdRej q.1 off cause
  | none => c

/-- Whether the open sequence is a page's, in a state. -/
def Core.grdAt (c : Core) (slot st : Nat) : Bool :=
  (match c.grd with | some q => q.1 = slot | none => false) && c.gf (pg slot + 0x3C) 0 2 = st

def Core.grdTgt (c : Core) (slot : Nat) : Core :=
  let c := c.grdDrop 0x30 3
  ({ c with grd := some (slot, c.tick) } : Core).sf (pg slot + 0x3C) 0 2 1

def Core.grdValue (c : Core) (slot : Nat) (v : Word) : Core :=
  if c.grdAt slot 1 then ({ c with grdVal := v } : Core).sf (pg slot + 0x3C) 0 2 2
  else if c.grdAt slot 2 then c.grdDrop 0x34 3
  else c.grdRej slot 0x34 3

/-- The eligible bits a fallback write changes: in sealed mode only those it sets, and command bits (R424). -/
def Core.grdMask (c : Core) (r : Row) (v : Word) : Word := if c.sealed then r.elig &&& (v ||| r.cmd) else r.elig

def Core.grdApply (c : Core) (slot : Nat) (v : Word) : Core :=
  let off := c.gf (pg slot + 0x30) 2 10 * 4
  let start : Nat := match c.grd with | some q => q.2 | none => 0
  let elig := match regRow slot off with | some r => c.grdMask r c.grdVal | none => 0
  let any := match regRow slot off with | some r => r.elig != 0 | none => false
  if c.grdAt slot 1 then c.grdDrop 0x38 3
  else if !c.grdAt slot 2 then c.grdRej slot 0x38 3
  else if start + 1024 ≤ c.tick then c.grdDrop 0x38 5
  else if c.wState ≠ 4 then c.grdDrop 0x38 1
  else if !any then c.grdDrop 0x38 2
  else if v ≠ ~~~c.grdVal then c.grdDrop 0x38 4
  else
    let c := ({ c with grd := none } : Core).sf (pg slot + 0x3C) 0 2 0
    ((c.guardSet slot off c.grdVal elig 8 false).1).ev (pg slot + 0x3C) (bit 2)

/-- A write to the three registers that is no full 32-bit write: refused, and an open sequence of the page ends (R53). -/
def Core.grdNarrow (c : Core) (slot off : Nat) : Core :=
  if c.grdAt slot 1 || c.grdAt slot 2 then c.grdDrop off 6 else c.grdRej slot off 6

/-- A sequence still open 1,024 ticks after its target was accepted expires (R54). The offset recorded is 0x030, GRD_TGT's: DESIGN CHOICE,
as no write fails then; the same for a sequence that a GRD_TGT on another page discards. -/
def Core.grdExpire (c : Core) : Core :=
  match c.grd with
  | some q => if q.2 + 1024 ≤ c.tick then c.grdDrop 0x30 5 else c
  | none => c

/-- Whether an offset is one of the three sequence registers of a page that has them. -/
def isGrd (slot o : Nat) : Bool :=
  (match pageKind slot with | some k => hasGrd k | none => false) && (o = 0x30 || o = 0x34 || o = 0x38)

/-! ## PG_CTRL (Table 2-5) -/

/-- A page enabled: its block starts. -/
def Core.pageOn (c : Core) (slot : Nat) : Core :=
  let c := { c with levS := { c.levS with periods := Sparse.drop slot c.levS.periods } }.sb (pg slot + 4) 0 true
  match pageKind slot with
  | some .hif => c.ringStart
  | some .ga => c.gaPageOn (slot - 0xA)
  | some .wq => c.wqEnable true
  | some .tim => c.timStart
  | some .pe => (c.suspectPort (slot - 0x20)).updPort (slot - 0x20) fun x =>
      { x with j0Bad := false, smBad := false, present := x.present.filter fun d => d ≠ .rsTim && d ≠ .smTim }
  | _ => c

/-- A page disabled: its block stops. -/
def Core.pageOff (c : Core) (slot : Nat) : Core :=
  let c := c.sb (pg slot + 4) 0 false
  match pageKind slot with
  | some .ga => c.gaPageOff (slot - 0xA)
  | some .wq => c.wqEnable false
  | some .tim => c.timStop
  | some .cu => c.cuAbortAll
  | some .pe => ((c.suspectPort (slot - 0x20)).updPort (slot - 0x20) fun x => { x with cut := true }).silence (slot - 0x20)
  | _ => c

/-- EN written (R47): 1 starts the enable scan of a stale page, or enables at once; 0 abandons a scan or disables. -/
def Core.writeEn (c : Core) (slot : Nat) (on : Bool) : Core :=
  if on then
    if c.en slot || c.scans.contains slot then c
    else if c.stale slot then { c with scans := c.scans ++ [slot] }
    else c.pageOn slot
  else
    let c := { c with scans := c.scans.filter (· ≠ slot) }
    if c.en slot then c.pageOff slot else c

/-- PG_CTRL written, as far as it acts at once. `m` are the bits addressed. -/
def Core.ctrlWrite (c : Core) (slot : Nat) (v m : Word) : Core :=
  let c := if bitOf m 0 then c.writeEn slot (bitOf v 0) else c
  if bitOf m 1 && bitOf v 1 then
    if c.gb (pg slot + 4) 8 then c.ign (pg slot + 4) 8 else c.softReset slot
  else c

/-- Copies of the CT registers of a range that disagree are corrected (R44): the registers, and the page's event and source. -/
def Core.voteRange (c : Core) (lo hi : Nat) : Core :=
  let l := ((Sparse.range lo hi c.ct1) ++ (Sparse.range lo hi c.ct2)).map (·.1)
  forL l (fun a c =>
    if Sparse.get (fun _ => 0) c.ct1 a = 0 ∧ Sparse.get (fun _ => 0) c.ct2 a = 0 then c
    else
      let slot := a / 0x1000
      let c := { c.wr a (c.voted a) with ct1 := Sparse.drop a c.ct1, ct2 := Sparse.drop a c.ct2 }
      let c := c.ev (pg slot + 8) (bit 10)
      match intSource slot with | some k => c.report k | none => c) c

/-- The CF registers of a range whose parity mismatches. -/
def Core.parBad (c : Core) (lo hi : Nat) : List Nat := (Sparse.range lo hi c.parMis).map (·.1)

/-- The enable scan of a page ends (R47). -/
def Core.scanEnd (c : Core) (slot : Nat) : Core :=
  if !c.scans.contains slot then c
  else
    let c := { c with scans := c.scans.filter (· ≠ slot) }
    let c := c.voteRange (pg slot + 0x40) (pg slot + 0x200)
    match c.parBad (pg slot + 0x40) (pg slot + 0x200) with
    | a :: _ =>
      let c := c.ign a 9
      match intSource slot with | some k => c.report k | none => c
    | [] => c.pageOn slot

/-- The background sweep (R42–R44): the flipped bits it meets, then every mismatch of the powered pages. -/
def Core.sweep (c : Core) (ups : List Upset) : Core :=
  let c := forL ups (fun (u : Upset) c =>
    let a := u.addr.toNat
    let b := u.bit.val
    match regRow (a / 0x1000) (a % 0x1000) with
    | none => c
    | some r =>
      if !c.islandUp (islandOf (a / 0x1000)) then c
      else if bitOf r.cf b then
        { c.wr a (c.rd a ^^^ bit b) with parMis := Sparse.upd (fun _ => 0) c.parMis a (· ^^^ BitVec.ofNat 4 (1 <<< (b / 8))) }
      else if bitOf r.ct b then
        match u.copy.val with
        | 0 => { c.wr a (c.rd a ^^^ bit b) with
                 ct1 := Sparse.upd (fun _ => 0) c.ct1 a (· ^^^ bit b), ct2 := Sparse.upd (fun _ => 0) c.ct2 a (· ^^^ bit b) }
        | 1 => { c with ct1 := Sparse.upd (fun _ => 0) c.ct1 a (· ^^^ bit b) }
        | _ => { c with ct2 := Sparse.upd (fun _ => 0) c.ct2 a (· ^^^ bit b) }
      else c) c
  forL pageSlots (fun slot c =>
    if !c.islandUp (islandOf slot) then c
    else
      let c := c.voteRange (pg slot) (pg slot + 0x1000)
      if c.parBad (pg slot) (pg slot + 0x1000) = [] then c
      else
        let c := c.ev (pg slot + 8) (bit 9)
        match intSource slot with | some k => c.report k | none => c) c

/-! ## The snapshot's commands (R63, R66, R500) -/

/-- A command accepted while none can be taken: SNAP_BUSY reads 1 until the next tick (R66). -/
def Core.snapVoid (c : Core) : Core := c.snapMiss.sb (snp 0xB00) 8 true

/-- CANCEL accepted: it withdraws a request pending before the write, at least 8 cycles before its boundary; CANCEL_BUSY reads
1 until it is done, here the next tick or boundary (R63, R69, R500). -/
def Core.snapCancel (c : Core) (left : Nat) : Core :=
  if c.gb (snp 0xB00) 9 then c.ign (snp 0xB00) 8
  else
    let c := c.sb (snp 0xB00) 9 true
    match c.snpS.req with
    | some q =>
      if q.2 ≤ c.frame ∨ (q.2 = c.frame + 1 ∧ left < 8) then c
      else { c with snpS := { c.snpS with req := none } }.sb (snp 0xB00) 8 false
    | none => c

/-- SNP_CMD written. -/
def Core.snapCmd (c : Core) (v : Word) (left : Nat) : Core :=
  let busy := c.gb (snp 0xB00) 8
  let can := c.en 0xE && c.d06
  let c := if bitOf v 2 then c.snapCancel left else c
  let c := if !bitOf v 0 then c
    else if busy then c.ign (snp 0xB00) 8
    else if !can then c.snapVoid
    else { c with snpS := { c.snpS with req := some (1, c.frame + (if left < 8 then 2 else 1)) } }.sb (snp 0xB00) 8 true
  let target := (c.rd (snp 0xB04)).toNat + (c.rd (snp 0xB08)).toNat * 2 ^ 32
  if !bitOf v 1 then c
  else if busy || bitOf v 0 then c.ign (snp 0xB00) 8
  else if !can then c.snapVoid
  else if target ≤ c.frame then c.snapMiss
  else { c with snpS := { c.snpS with req := some (2, target) } }.sb (snp 0xB00) 8 true

/-- A request pending when D06 stops or the page is disabled is withdrawn (R66). -/
def Core.snapWithdraw (c : Core) : Core :=
  if c.snpS.req.isSome && !(c.en 0xE && c.d06) then
    { c with snpS := { c.snpS with req := none } }.snapMiss.sb (snp 0xB00) 8 false
  else c

/-- Whether a register is a counter of a powered page (Table 2-2). -/
def Core.counts (c : Core) (a : Nat) : Bool :=
  decide (a < 0x80000) && decide (0x500 ≤ a % 0x1000) && decide (a % 0x1000 < 0x800) && c.islandUp (islandOf (a / 0x1000))

/-- The page slots with a property, as four words. -/
def slotSet (f : Nat → Bool) : List Word :=
  (List.range 4).map fun i => bitsWhere 32 fun b => pageSlots.contains (32 * i + b) && f (32 * i + b)

/-- What a snapshot captures at its boundary (R29, R62), and counting starts from zero: the frame that begins counts in the
new interval, and so does a zero written from now on (Table 2-14). The TRIB banks change. -/
def Core.capture (c : Core) (source merged : Nat) : Core :=
  let cap : Capture := { source := source, merged := merged, stale := slotSet c.stale
                         off := slotSet fun s => !c.islandUp (islandOf s), cnt := c.regs.filter fun q => c.counts q.1 }
  let c := { c with regs := c.regs.filter fun q => !c.counts q.1, snpS := { c.snpS with sel := some cap } }
  let c := if c.bank then { c with tcA := [] } else { c with tcB := [] }
  c.sb (snp 0x218) 3 (!c.bank)

/-- The captured counts copied to the holding registers, and what the SNP page shows of the snapshot (R62); an off island's
HLD area reads zero. -/
def Core.snapCopy (c : Core) : Core :=
  match c.snpS.sel with
  | none => c
  | some q =>
    let c := forL pageSlots (fun s c => c.clearRegs (pg s + 0x800) (pg s + 0xB00)) c
    let c := forL q.cnt (fun r c => c.wr (r.1 + 0x300) r.2) c
    let c := forN 4 (fun i c => (c.wr (snp (0xB10 + 4 * i)) (q.stale.getD i 0)).wr (snp (0xB20 + 4 * i)) (q.off.getD i 0)) c
    let c := (c.wr (snp 0x208) (BitVec.ofNat 32 c.frame)).wr (snp 0x20C) (BitVec.ofNat 32 (c.frame / 2 ^ 32))
    let c := c.sf (snp 0x218) 1 2 q.source
    (({ c with snpS := { c.snpS with sel := none, copied := true } } : Core).cn (snp 0x500) 1).cn (snp 0x508) q.merged

/-- PG_SNAP_GEN raised on every page (R62). -/
def Core.snapGen (c : Core) : Core :=
  if c.snpS.copied then
    let c := { c with snpS := { c.snpS with copied := false } }
    let c := (c.wr (snp 0x10) (c.rd (snp 0x10) + 1)).ev (snp 0x400) (bit 0)
    if c.snpS.req.isNone then c.sb (snp 0xB00) 8 false else c
  else c

/-! ## Writes -/

/-- A page whose CFG area takes no writes (R45, R392). -/
def Core.cfgLocked (c : Core) (slot : Nat) : Bool := c.en slot || (slot = 4 && c.cmds != [])

/-- Bits of a register stored by software: parity and copies are right afterwards (R42, R44). -/
def Core.stow (c : Core) (a : Nat) (v m : Word) : Core :=
  { c.wr a ((c.voted a &&& ~~~m) ||| (v &&& m)) with
    parMis := Sparse.drop a c.parMis, ct1 := Sparse.drop a c.ct1, ct2 := Sparse.drop a c.ct2 }

/-- A write to a counter: zero clears, anything else is recorded (Table 2-9); a recovery register by halves (15.10). -/
def Core.cnWrite (c : Core) (a : Nat) (v : Word) : Core :=
  if 0xB00 ≤ a % 0x1000 then
    let half (c : Core) (lo : Nat) : Core := if fld v lo 16 = 0 then c.sf a lo 16 0 else c
    let d := half (half c 0) 16
    if fld v 0 16 = 0 ∧ fld v 16 16 = 0 then d else d.ign a 3
  else if v = 0 then c.wr a 0 else c.ign a 3

/-- What a write to a Gauge's registers does. -/
def Core.gaEffect (c : Core) (i o : Nat) (old v : Word) (full : Bool) : Core :=
  let g := 12 * i + (o - 0xB00) / 0x40
  if o = 0x40 then
    if bitOf old 0 = c.gb (ga i 0x40) 0 then c else forN 12 (fun k c => c.wanderRestart (12 * i + k)) c
  else if o = 0xE04 then (let c := c.coefWrite i v; if full then c.coefStep i else c)
  else if o < 0xB00 ∨ 0xE00 ≤ o then c
  else match o % 0x40 with
    | 0 =>
      let refused := bitOf v 1 && c.gb (gaR g 0) 8
      let c := if refused then c.ign (gaR g 0) 8 else c
      let on := (c.rd (gaR g 0) &&& 0x9) ||| (v &&& (if refused then 4 else 6))
      c.gaCtlWrite g old on
    | 4 => c.gaSrcWrite g (fld old 0 8)
    | 0x14 => if fld old 0 16 = c.gf (gaR g 0x14) 0 16 then c else c.wanderRestart g
    | _ => c

/-- What a write to the Weir's registers does (chapter 11). -/
def Core.wqEffect (c : Core) (o : Nat) (old v m : Word) : Core :=
  if o = 0xB00 then c.selectQueue (fld old 0 4)
  else if o = 0xB0C then (if bitOf v 0 then (if c.gb (wq 0xB0C) 8 then c.ign (wq 0xB0C) 8 else c.popHead) else c)
  else if o = 0xB10 then c.hostOpen
  else if o = 0xB14 then
    if v &&& 3 = 0 then c
    else if c.gb (wq 0xB14) 8 then c.ign (wq 0xB14) 8
    else
      let c := if bitOf v 0 then c.hostCommit else c
      (if bitOf v 1 then c.hostAbort else c).sb (wq 0xB14) 8 true
  else if o = 0xB1C then
    if !bitOf v 4 then c
    else if c.gb (wq 0xB1C) 8 then c.ign (wq 0xB1C) 8
    else (c.flushQueue (c.gf (wq 0xB1C) 0 4)).sb (wq 0xB1C) 8 true
  else if 0xE00 ≤ o then c.hostWindow (o - 0xE00) v m
  else c

/-- What a write does beyond storing its bits. `old` is the stored word before, `v` the value in the bits `m` addressed. -/
def Core.writeEffect (c : Core) (slot o : Nat) (old v m : Word) (left : Nat) : Core :=
  if o = 4 then c.ctrlWrite slot v m
  else match pageKind slot with
    | some .hif =>
      if o = 0xB00 then c.doorbell old
      else if o = 0xB04 then c.cplHead old
      else if o = 0xB08 then (if bitOf v 0 then (if c.gb (hif 0xB08) 1 then c.ign (hif 0xB08) 8 else c.resyncGo) else c)
      else if o = 0xB0C then c.rearm 0 v
      else if o = 0xB10 then c.rearm 1 v
      else c
    | some .slu =>
      if 0xB40 ≤ o then c.sb (slu 0x200) 10 ((List.range 48).any fun k => c.mspStaged k != c.mspEff k) else c
    | some .cu =>
      if o = 0xB04 then c.cuDin v
      else if 0xC00 ≤ o ∧ o % 0x20 = 0 then c.cuCtlWrite ((o - 0xC00) / 0x20) ((c.rd (pg slot + o) &&& 0x30) ||| (v &&& 0xF))
      else c
    | some .ga => c.gaEffect (slot - 0xA) o old v (m = all32)
    | some .wq => c.wqEffect o old v m
    | some .tim =>
      if o = 0xB30 then
        if bitOf v 0 then (if c.gb (tim 0xB34) 0 then c.ign (tim 0xB30) 8 else c.timCmdGo (c.rd (tim 0xB30) ||| 1) left) else c
      else if o = 0xB38 then (if bitOf v 0 then (if c.gb (tim 0xB38) 1 then c.ign (tim 0xB38) 8 else c.gaSync) else c)
      else c
    | some .snp => if o = 0xB00 then c.snapCmd v left else c
    | some .spw =>
      if o = 0x40 then c.sb (spw (3 - slot) 0x40) 8 (c.gb (pg slot + o) 8)
      else if o = 0xB14 && bitOf v 8 then
        if c.gb (pg slot + o) 24 then c.ign (pg slot + o) 8 else c.injGo (slot - 2) (c.rd (pg slot + o))
      else c
    | _ => c

/-- A unit's registers while a command job or an open job holds them (R373, R375). -/
def Core.cuHolds (c : Core) (slot o : Nat) : Bool :=
  let u := (o - 0xC00) / 0x20
  slot = 9 && decide (0xC00 ≤ o) && (c.cuCmd u || (c.cuOpen u && o % 0x20 != 0))

/-- A write of the bits `m` of a register: all of them, or the one bit of an alias write (R41, R45, R48, R51, R61, R70). Two DESIGN CHOICES
where R61 is silent: an alias write to an RV bit of a register with no writable field is stored in open mode with cause 6, not refused
with cause 3; and one to CU_DIN feeds a word whose other bits are 0. -/
def Core.regWrite (c : Core) (a : Nat) (v m : Word) (left : Nat) : Core :=
  let slot := a / 0x1000
  let o := a % 0x1000
  match regRow slot o with
  | none => c.ign a 5
  | some r =>
    let full := m = all32
    let soft := (r.cf ||| r.ct) &&& m
    let fixed := slot = 8 && decide (0xB40 ≤ o) && c.sealed
    if (if full then r.cf ||| r.ct ||| r.cn ||| r.gd = 0 else m &&& (r.lv ||| r.ev ||| r.hd ||| r.ro ||| r.cn) ≠ 0) ∨
        fixed = true then c.ign a 3
    else if 0x40 ≤ o ∧ o < 0x200 ∧ soft ≠ 0 ∧ c.cfgLocked slot = true then c.ign a 1
    else if c.cuHolds slot o then c.ign a 1
    else
      let c := if v &&& m &&& r.gd ≠ 0 then (c.ign a 4).report 146 else c
      let c := if r.cn ≠ 0 then c.cnWrite a v else c
      let c := if (v ^^^ c.view a) &&& r.rv &&& m ≠ 0 then c.ign a 6 else c
      let coef := (pageKind slot = some .ga && o = 0xE04) || isGrd slot o
      let en : Word := if o = 4 then 1 else 0
      let keep := (soft &&& ~~~(r.cmd ||| r.zero ||| en)) ||| (if c.sealed then 0 else r.rv &&& m)
      let old := c.rd a
      let keep := if coef && o != 0x30 then 0 else keep
      let c := if keep = 0 then c else c.stow a v keep
      if isGrd slot o then
        if o = 0x30 then c.grdTgt slot else if o = 0x34 then c.grdValue slot v else c.grdApply slot v
      else
        let v := if pageKind slot = some .ga ∧ o = 0xE04 then (c.view a &&& ~~~m) ||| (v &&& m) else v &&& m
        c.writeEffect slot o old v m left

/-- A 32-bit write to a register page. -/
def Core.hostWrite (c : Core) (a : Nat) (v : Word) (left : Nat) : Core × LinkResp :=
  let slot := a / 0x1000
  if (pageKind slot).isNone then (c, .abort)
  else if privileged slot then (c.report 147, .abort)
  else (c.regWrite a v all32 left, .done)

/-! ## The bit-alias window (R60, R61) -/

/-- The register and the bit of an alias word. -/
def aliasReg (x : Nat) : Nat := x / 128 * 4
def aliasBit (x : Nat) : Nat := x % 128 / 4

def Core.bitRead (c : Core) (x : Nat) : Core × LinkResp :=
  let slot := aliasReg x / 0x1000
  if x % 4 ≠ 0 ∨ (pageKind slot).isNone = true then (c, .abort)
  else if privileged slot then (c.report 147, .abort)
  else (c.used (aliasReg x), .data (if bitOf (c.view (aliasReg x)) (aliasBit x) then 1 else 0))

def Core.bitWrite (c : Core) (x : Nat) (v : Word) (left : Nat) : Core × LinkResp :=
  let a := aliasReg x
  let slot := a / 0x1000
  if x % 4 ≠ 0 ∨ (pageKind slot).isNone = true then (c, .abort)
  else if privileged slot then (c.report 147, .abort)
  else if isGrd slot (a % 0x1000) then (c.grdNarrow slot (a % 0x1000), .done)
  else (c.regWrite a (if bitOf v 0 then bit (aliasBit x) else 0) (bit (aliasBit x)) left, .done)

end Sys2Proof.Machine
end

