-- ==== Sys2Proof/Machine/Aperture.lean ====
section
/-! DEFINITION. The table aperture (section 2.11), accesses of other widths (section 2.7), the order of host accesses with
what they wait for (R36, R37, R64), and the meanings of the rows that are host accesses. -/

namespace Sys2Proof.Machine

/-! ## Entries behind the aperture (R71–R73) -/

/-- An entry whose words have the AU-3 layout (Table 6-6). -/
def Core.isAu3 (c : Core) (i : Nat) : Bool := isPath i && fld (c.trd (trib i 0)) 1 4 = 2

/-- The image word that an aperture offset addresses, in the selected table and window. -/
def Core.apWord (c : Core) (o : Nat) : Nat := (c.gf (rsv 0xB04) 0 5 * 0x80000 + o % 0x80000) / 4

/-- Table code, entry, word of the entry and the word's kinds; none beyond a format, an image or a defined table. -/
def Core.apEntry (c : Core) (o : Nat) : Option (Nat × Nat × Nat × Row) :=
  let t := c.gf (rsv 0xB00) 0 4
  match tblShape t with
  | none => none
  | some (stride, _, entries) =>
    let e := c.apWord o / stride
    let w := c.apWord o % stride
    if entries ≤ e then none else (tblRow (t = 1 && c.isAu3 e) t w).map fun r => (t, e, w, r)

/-- A word as an aperture read shows it (R188). -/
def Core.apView (c : Core) (o : Nat) : Word :=
  match c.apEntry o with
  | none => 0
  | some (t, e, w, r) =>
    let v := if t = 1 ∧ 7 ≤ w ∧ w < 11 then Sparse.get (fun _ => 0) c.tcLive (e * 4 + (w - 7))
      else if t = 1 ∧ 11 ≤ w then Sparse.get (fun _ => 0) c.tcHeld (e * 4 + (w - 11))
      else c.trd (tkey t (c.apWord o))
    v &&& ~~~r.cmd

/-- A full 32-bit aperture read: event fields clear. -/
def Core.apRead (c : Core) (o : Nat) : Core :=
  match c.apEntry o with
  | none => c
  | some (t, _, _, r) => if r.ev = 0 then c else c.twr (tkey t (c.apWord o)) (c.trd (tkey t (c.apWord o)) &&& ~~~r.ev)

/-- A word of a TRIB entry written (R186, R188): it acts from the next frame boundary on, and makes the descriptor's second suspect
(R168). Where a new TYPE changes the entry's layout, words 3 and 4 change their kind and begin at their reset value: DESIGN CHOICE. -/
def Core.tribWrite (c : Core) (o e w : Nat) (r : Row) (v : Word) : Core :=
  let old := c.trd (trib e w)
  if r.cn ≠ 0 then
    let fields : List (Nat × Nat) := if w < 9 then [(0, 32)] else if w = 9 then [(0, 16), (16, 16)] else [(0, 12), (12, 10), (22, 10)]
    let d := forL (fields.filter fun f => fld v f.1 f.2 = 0) (fun f c => c.tcUpd e (w - 7) fun x => setFld x f.1 f.2 0) c
    if v = 0 then d else d.ignAp o 3
  else
    let shut : Word := if !c.tvalid e then 0 else if w = 0 then 0xFFE else if w = 3 then 0x3FFFFF else 0
    let c := if (v ^^^ old) &&& r.cf &&& shut = 0 then c else c.ignAp o 7
    let m := (r.cf &&& ~~~shut) ||| (if c.sealed then 0 else r.rv)
    let was := c.isAu3 e
    let c := (if w < 5 then c.keepCf (trib e w) else c).twr (trib e w) ((old &&& ~~~m) ||| (v &&& m))
    let c := if c.isAu3 e = was then c
      else (((c.keepCf (trib e 3)).keepCf (trib e 4)).twr (trib e 3) 0).twr (trib e 4) 0
    forN 4 (fun j c => if (c.obj (okey e j)).svc then
      c.updObj (okey e j) fun x => { x with pm := { x.pm with suspect := true } } else c) c

/-- A word of a PRBS entry written (R201, R205). -/
def Core.prbsWrite (c : Core) (o e w : Nat) (r : Row) (v : Word) : Core :=
  let old := c.trd (prbs e w)
  let on := fld (c.trd (prbs e 0)) 0 2 != 0
  if r.cn ≠ 0 then
    let c := if c.sealed then c else c.twr (prbs e w) ((old &&& ~~~r.rv) ||| (v &&& r.rv))
    if v &&& r.cn ≠ 0 then c.ignAp o 3 else c.twr (prbs e w) (c.trd (prbs e w) &&& ~~~r.cn)
  else if on && (w = 1 || w = 2) then c.ignAp o 7
  else
    let m := (if on && w = 0 then 3 else r.cf &&& ~~~r.cmd) ||| (if c.sealed then 0 else r.rv)
    let c := c.twr (prbs e w) ((old &&& ~~~m) ||| (v &&& m))
    if w = 3 ∧ bitOf v 0 = true then c.prbsSingle e else c

/-- A word of a GROUP entry written (R211, R212, R214). -/
def Core.grpWrite (c : Core) (o e w : Nat) (r : Row) (v : Word) : Core :=
  let old := c.trd (grp e w)
  if r.cn ≠ 0 then
    let half (c : Core) (lo : Nat) : Core := if fld v lo 16 = 0 then c.tsf (grp e w) lo 16 0 else c
    let d := half (half c 0) 16
    if v = 0 then d else d.ignAp o 3
  else if c.sealed && w != 3 then c.ignAp o 7
  else
    let m := r.cf ||| (if c.sealed then 0 else r.rv)
    ((if w = 3 then c.keepCf (grp e w) else c).twr (grp e w) ((old &&& ~~~m) ||| (v &&& m))).showStaged e

/-- A word of a map plane written: the inactive plane, in open mode, while it is not locked (R46, R253, R279). -/
def Core.planeWrite (c : Core) (o t : Nat) (r : Row) (v : Word) : Core :=
  let k := tkey t (c.apWord o)
  let pm := decide (5 ≤ t)
  let plane := if pm then t - 5 else t - 3
  if plane = c.gf (rsv 0x200) (if pm then 1 else 0) 1 ∨ c.sealed = true ∨ c.gb (rsv 0x200) 5 = true then c.ignAp o 7
  else ((c.tblGood t (c.apWord o / (if pm then 4 else 1))).twr k ((c.trd k &&& ~~~(r.cf ||| r.rv)) ||| (v &&& (r.cf ||| r.rv)))).sb (rsv 0x200) (if pm then 3 else 2) false

/-- A 32-bit write through the aperture. -/
def Core.apWrite (c : Core) (o : Nat) (v : Word) : Core :=
  match c.apEntry o with
  | none => c.ignAp o 7
  | some (t, e, w, r) =>
    if r.cf ||| r.cn = 0 then c.ignAp o 3
    else
      let c := if (v ^^^ c.apView o) &&& r.rv = 0 then c else c.ignAp o 6
      match t with
      | 1 => c.tribWrite o e w r v
      | 2 => c.grpWrite o e w r v
      | 3 | 4 | 5 | 6 => c.planeWrite o t r v
      | 7 => c.twr (tti e w) v
      | _ => c.prbsWrite o e w r v

/-! ## Widths and alignment (R57, Table 2-12) -/

/-- ACC_ERR set on a page, with no record. -/
def Core.accErr (c : Core) (slot : Nat) : Core := c.ev (pg slot + 8) (bit 11)

/-- Bytes of a word from a byte on. -/
def bytesOfWord (w : Word) (from_ n : Nat) : List Byte := ((le 4 w.toNat).drop from_).take n

/-- An access of a form that is no aligned 32-bit or 64-bit access. -/
def Core.oddAcc (c : Core) (bar2 : Bool) (a n : Nat) (write : Bool) : Core × LinkResp :=
  let ap := decide (0x80000 ≤ a)
  let slot := if ap then 7 else a / 0x1000
  let rec_ (c : Core) (cause : Nat) : Core := if ap then c.ignAp a cause else c.ign a cause
  if bar2 then (if privileged (aliasReg a / 0x1000) then c.report 147 else c, .abort)
  else if !ap && (pageKind slot).isNone then (c, .abort)
  else if !ap && privileged slot then (c.report 147, .abort)
  else if (n = 1 ∨ n = 2) ∧ a % n = 0 then
    if write then
      let c := rec_ c 2
      let c := if !ap && isGrd slot (a % 0x1000 / 4 * 4) then
          let w := c.rd (pg slot + 0xC)
          (c.grdNarrow slot (a % 0x1000 / 4 * 4)).wr (pg slot + 0xC) w
        else c
      (c, .done)
    else
      let w := if ap then c.apView (a - 0x80000) else c.view (a / 4 * 4)
      ((if ap then c else c.used a).accErr slot, .bytes (bytesOfWord w (a % 4) n))
  else if a % 4 ≠ 0 ∨ (n = 8 ∧ a % 8 ≠ 0) then
    if write then (rec_ c 0xB, .abort) else (c.accErr slot, .abort)
  else (c, .abort)

/-- Whether an aperture access has a form that is served (Table 2-12). -/
def apForm (o n : Nat) : Bool :=
  o % 4 = 0 && (n = 1 || (n = 2 && o % 8 = 0) || (decide (3 ≤ n) && decide (o % 64 + 4 * n ≤ 64)))

/-! ## One access (R36) -/

/-- An access takes effect, and its completion. -/
def Core.perform (c : Core) (x : HostAcc) : Core × LinkResp :=
  let words (o n : Nat) : Core × LinkResp :=
    if apForm o n then
      let vs := (List.range n).map fun k => c.apView (o + 4 * k)
      (forN n (fun k c => c.apRead (o + 4 * k)) c,
        match vs with | [v] => .data v | _ => .bytes (vs.flatMap fun v => le 4 v.toNat))
    else c.oddAcc false (0x80000 + o) (4 * n) false
  match x with
  | .wr a v left =>
    if a % 4 ≠ 0 then c.oddAcc false a 4 true
    else if 0x80000 ≤ a then (c.apWrite (a - 0x80000) v, .done) else c.hostWrite a v left
  | .rd a =>
    if a % 4 ≠ 0 then c.oddAcc false a 4 false
    else if 0x80000 ≤ a then words (a - 0x80000) 1 else c.hostRead a
  | .rd64 a =>
    if a % 8 ≠ 0 then c.oddAcc false a 8 false
    else if 0x80000 ≤ a then words (a - 0x80000) 2
    else
      let r := c.hostRead a
      let q := r.1.hostRead (a + 4)
      (q.1, match r.2, q.2 with | .data u, .data v => .bytes (le 4 u.toNat ++ le 4 v.toNat) | _, _ => .abort)
  | .rdAlias a => c.bitRead a
  | .wrAlias a v left => c.bitWrite a v left
  | .odd b a n w => c.oddAcc b a n w
  | .apRead o n => words o n
  | .apWrite o ws =>
    if apForm o ws.length then
      ((ws.zipIdx).foldl (fun c q => c.apWrite (o + 4 * q.2) q.1) c, .done)
    else c.oddAcc false (0x80000 + o) (4 * ws.length) true

/-- The BAR0 registers or the aperture words an access reads or writes: page offset or aperture offset, and how many words. -/
def HostAcc.span : HostAcc → Bool × Nat × Nat × Bool
  | .wr a _ _ => (decide (0x80000 ≤ a), a % 0x80000, 1, false)
  | .rd a => (decide (0x80000 ≤ a), a % 0x80000, 1, true)
  | .rd64 a => (decide (0x80000 ≤ a), a % 0x80000, 2, true)
  | .rdAlias a => (false, aliasReg a, 1, true)
  | .wrAlias a _ _ => (false, aliasReg a, 1, false)
  | .odd b a _ w => if b then (false, 0, 0, false) else (decide (0x80000 ≤ a), a % 0x80000, 1, !w)
  | .apRead o n => (true, o, n, true)
  | .apWrite o ws => (true, o, ws.length, false)

/-- Whether a read waits for the end of a snapshot copy: a holding register, the held TRIB bank, any alias word (R61, R64). -/
def Core.holds (c : Core) (x : HostAcc) : Bool :=
  let q := x.span
  c.snapping && q.2.2.2 && (match x with
    | .rdAlias _ => true
    | _ => (List.range q.2.2.1).any fun k =>
      if q.1 then (match c.apEntry (q.2.1 + 4 * k) with | some (1, _, w, _) => decide (11 ≤ w) | _ => false)
      else match regRow ((q.2.1 + 4 * k) / 0x1000) ((q.2.1 + 4 * k) / 4 * 4 % 0x1000) with
        | some r => r.hd != 0
        | none => false)

/-- The switched-off island an access needs (R37): that of its page, or the tables'. -/
def Core.needs (c : Core) (x : HostAcc) : Option Nat :=
  let q := x.span
  let slot := q.2.1 / 0x1000
  let i := if q.1 then 3 else islandOf slot
  if !q.1 && ((pageKind slot).isNone || privileged slot || decide (q.2.1 % 0x1000 + 4 * q.2.2.1 ≤ 0x14 + q.2.1 % 4)) then none
  else if c.islandUp i then none else some i

/-- An access in its order: it waits behind others, for a snapshot copy or for an island, else it takes effect. -/
def Core.serve (c : Core) (x : HostAcc) : Core :=
  if c.blocked ≠ [] ∨ c.holds x = true then { c with blocked := c.blocked ++ [x] }
  else match c.needs x with
    | some i => { c with
        blocked := c.blocked ++ [x]
        levS := { c.levS with waking := if c.levS.waking.contains i then c.levS.waking else c.levS.waking ++ [i] } }
    | none =>
      let r := c.perform x
      { r.1 with linkOut := r.1.linkOut ++ [r.2] }

/-- Accesses that wait are tried again, in order. -/
def Core.drain (c : Core) : Core :=
  let l := c.blocked
  forL l (fun x c => c.serve x) { c with blocked := [] }

/-- A host access arrives on the link (R36); a link that is down carries none. -/
def Core.access (c : Core) (x : HostAcc) : Core :=
  if !c.gb (hif 0x200) 0 then c.send .noLink
  else (({ c.msi with linkOut := [] } : Core).serve x).msi

/-- A host write, and a host read, as a row of its own names it. -/
def Core.hostPut (c : Core) (a : Nat) (v : Word) : Core := c.access (.wr a v 8)

/-! ## The meanings of the host-access rows -/

def execRegisterWrite (a : BitVec 20) (v : Word) (left : Nat) (s : State) : Host.Outcome State Fault Refusal :=
  s.on (·.access (.wr a.toNat v left))
/-- An access to an unassigned slot (R35); at any other address the row is not that access. -/
def execUnassignedSlotAccess (a : BitVec 20) (write : Bool) (s : State) : Host.Outcome State Fault Refusal :=
  s.on fun c => if a.toNat < 0x80000 ∧ (pageKind (a.toNat / 0x1000)).isNone = true then
    c.access (if write then .wr a.toNat 0 8 else .rd a.toNat) else c
/-- An access to a privileged page (R50). -/
def execPrivilegedPageAccess (a : BitVec 20) (write : Bool) (s : State) : Host.Outcome State Fault Refusal :=
  s.on fun c => if a.toNat < 0x80000 ∧ privileged (a.toNat / 0x1000) = true then
    c.access (if write then .wr a.toNat 0 8 else .rd a.toNat) else c
def execAccessWidthError (x : OddAccess) (s : State) : Host.Outcome State Fault Refusal :=
  s.on (·.access (.odd x.bar2 x.addr.toNat x.bytes x.write))
def execEvClearingRead (a : BitVec 20) (s : State) : Host.Outcome State Fault Refusal := s.on (·.access (.rd a.toNat))
def execPgIgnAddrRead (slot : PageSlot) (s : State) : Host.Outcome State Fault Refusal :=
  s.on (·.access (.rd (pg slot.val + 0xC)))
def execHldRead (a : BitVec 20) (wide : Bool) (s : State) : Host.Outcome State Fault Refusal :=
  s.on (·.access (if wide then .rd64 a.toNat else .rd a.toNat))
def execAliasRead (a : BitVec 24) (s : State) : Host.Outcome State Fault Refusal := s.on (·.access (.rdAlias a.toNat))
def execAliasWrite (a : BitVec 24) (v : Word) (left : Nat) (s : State) : Host.Outcome State Fault Refusal :=
  s.on (·.access (.wrAlias a.toNat v left))
def execPgCtrlEnWrite (slot : PageSlot) (v : Word) (s : State) : Host.Outcome State Fault Refusal :=
  s.on (·.hostPut (pg slot.val + 4) v)
def execEnableScanEnd (slot : PageSlot) (s : State) : Host.Outcome State Fault Refusal := s.on (·.scanEnd slot.val)
/-- A write of PG_CTRL with SOFT_RST = 1. -/
def execSoftRst (slot : PageSlot) (v : Word) (s : State) : Host.Outcome State Fault Refusal :=
  s.on (·.hostPut (pg slot.val + 4) (v ||| 2))
def execConfigSweep (ups : List Upset) (s : State) : Host.Outcome State Fault Refusal := s.on (·.sweep ups)
def execGrdTgtWrite (slot : PageSlot) (v : Word) (s : State) : Host.Outcome State Fault Refusal :=
  s.on (·.hostPut (pg slot.val + 0x30) v)
def execGrdValWrite (slot : PageSlot) (v : Word) (s : State) : Host.Outcome State Fault Refusal :=
  s.on (·.hostPut (pg slot.val + 0x34) v)
def execGrdCplWrite (slot : PageSlot) (v : Word) (s : State) : Host.Outcome State Fault Refusal :=
  s.on (·.hostPut (pg slot.val + 0x38) v)
def execGrdSequenceExpire (s : State) : Host.Outcome State Fault Refusal := s.on (·.grdExpire)
def execSnapAll (left : Nat) (s : State) : Host.Outcome State Fault Refusal := s.on (·.access (.wr (snp 0xB00) 1 left))
def execSnapArm (s : State) : Host.Outcome State Fault Refusal := s.on (·.access (.wr (snp 0xB00) 2 8))
def execSnapCancel (left : Nat) (s : State) : Host.Outcome State Fault Refusal := s.on (·.access (.wr (snp 0xB00) 4 left))
def execSnapshot (s : State) : Host.Outcome State Fault Refusal := s.on (·.snapCopy)
/-- The generation rises, and the reads it held go on (R62, R64). -/
def execSnapGenIncrement (s : State) : Host.Outcome State Fault Refusal :=
  s.on fun c => ({ c.snapGen with linkOut := [] } : Core).drain.msi
def execSnapRequestWithdraw (s : State) : Host.Outcome State Fault Refusal := s.on (·.snapWithdraw)
def execApertureAccess (off : BitVec 19) (op : ApertureOp) (s : State) : Host.Outcome State Fault Refusal :=
  s.on (·.access (match op with | .read n => .apRead off.toNat n | .write ws => .apWrite off.toNat ws))
/-- The bank is up, and accesses that waited for it go on. -/
def execBankUp (b : Bank) (s : State) : Host.Outcome State Fault Refusal :=
  s.on fun c => ({ c.bankUp b.val with linkOut := [] } : Core).drain
/-- An island is switched on, and accesses that waited for it go on (R37, R459); a domain's start, not an access alone,
ends L1 (R458). -/
def execIslandOn (i : Fin 13) (s : State) : Host.Outcome State Fault Refusal :=
  s.on fun c => if c.islandWanted i.val then
    let d := (if c.domainStarts i.val then c.leaveL1 else c).wakeLast 7
    ({ d.powerOn i.val with linkOut := [] } : Core).drain
  else c
def execGaugeSrst (g : GaugeNo) (s : State) : Host.Outcome State Fault Refusal :=
  s.on fun c => c.hostPut (gaR g.val 0) ((c.rd (gaR g.val 0) &&& 9) ||| 2)
def execGaugeSyncAll (s : State) : Host.Outcome State Fault Refusal := s.on (·.hostPut (tim 0xB38) 1)
/-- An access to GA_COEF_DATA. -/
def execGaCoefDataAccess (page1 : Bool) (w : Option Word) (s : State) : Host.Outcome State Fault Refusal :=
  s.on fun c =>
    let a := ga (if page1 then 1 else 0) 0xE04
    match w with | some v => c.hostPut a v | none => c.access (.rd a)
/-- A write of GA_CTL.SWAP with a SWAP_TO. -/
def execGaugeSwap (g : GaugeNo) (dst : Bool) (s : State) : Host.Outcome State Fault Refusal :=
  s.on fun c => c.hostPut (gaR g.val 0) ((c.rd (gaR g.val 0) &&& 1) ||| 4 ||| (if dst then 8 else 0))
/-- TIM_CMD as a row names it. -/
def timWord (cmd si : Nat) (set : Bool) : Word := BitVec.ofNat 32 (1 + cmd * 2 + si * 8 + (if set then 64 else 0))
def execTimCmdForce (si : Fin 8) (left : Nat) (s : State) : Host.Outcome State Fault Refusal :=
  s.on (·.access (.wr (tim 0xB30) (timWord 1 si.val false) left))
def execTimCmdManual (si : Fin 8) (left : Nat) (s : State) : Host.Outcome State Fault Refusal :=
  s.on (·.access (.wr (tim 0xB30) (timWord 2 si.val false) left))
def execTimCmdLockout (si : Fin 8) (set : Bool) (left : Nat) (s : State) : Host.Outcome State Fault Refusal :=
  s.on (·.access (.wr (tim 0xB30) (timWord 3 si.val set) left))
def execTimCmdClear (left : Nat) (s : State) : Host.Outcome State Fault Refusal :=
  s.on (·.access (.wr (tim 0xB30) (timWord 0 0 false) left))
/-- TIM is enabled: EN = 1 written, and the end of the scan that it may need. -/
def execTimEnable (s : State) : Host.Outcome State Fault Refusal :=
  s.on fun c => (c.hostPut (tim 4) ((c.rd (tim 4) &&& 4) ||| 1)).scanEnd 0xD
def execTimDisable (s : State) : Host.Outcome State Fault Refusal := s.on fun c => c.hostPut (tim 4) (c.rd (tim 4) &&& 4)
def execHeadClaim (s : State) : Host.Outcome State Fault Refusal := s.on (·.access (.rd (wq 0xB04)))
def execPop (rofs : Fin 8) (s : State) : Host.Outcome State Fault Refusal :=
  s.on (·.hostPut (wq 0xB0C) (BitVec.ofNat 32 (1 + rofs.val * 2)))
def execWqRselWrite (q : QueueNo) (s : State) : Host.Outcome State Fault Refusal :=
  s.on (·.hostPut (wq 0xB00) (BitVec.ofNat 32 q.val))
def execFlush (q : QueueNo) (s : State) : Host.Outcome State Fault Refusal :=
  s.on (·.hostPut (wq 0xB1C) (BitVec.ofNat 32 (q.val + 16)))
def execPacketOpen (hdr : Word) (s : State) : Host.Outcome State Fault Refusal := s.on (·.hostPut (wq 0xB10) hdr)
/-- A word of the write window written. -/
def execWriteWindowWrite (off : Fin 128) (v : Word) (s : State) : Host.Outcome State Fault Refusal :=
  s.on (·.hostPut (wq (0xE00 + 4 * off.val)) v)
def execPacketCommit (s : State) : Host.Outcome State Fault Refusal :=
  s.on fun c => c.hostPut (wq 0xB14) ((c.rd (wq 0xB14) &&& 0x1C) ||| 1)
def execPacketAbort (s : State) : Host.Outcome State Fault Refusal :=
  s.on fun c => c.hostPut (wq 0xB14) ((c.rd (wq 0xB14) &&& 0x1C) ||| 2)
def execWqPeakRead (q : QueueNo) (s : State) : Host.Outcome State Fault Refusal :=
  s.on (·.access (.rd (wq (0x280 + 4 * q.val))))
def execCuStart (u : UnitNo) (s : State) : Host.Outcome State Fault Refusal :=
  s.on fun c => c.hostPut (cuR u.val 0) ((c.rd (cuR u.val 0) &&& 0x30) ||| 1)
def execCuDinWrite (v : Word) (s : State) : Host.Outcome State Fault Refusal := s.on (·.hostPut (cuP 0xB04) v)
def execCuFinish (u : UnitNo) (tail : Fin 4) (s : State) : Host.Outcome State Fault Refusal :=
  s.on (·.hostPut (cuR u.val 0) (BitVec.ofNat 32 (2 + tail.val * 16)))
def execCuSuspend (u : UnitNo) (s : State) : Host.Outcome State Fault Refusal :=
  s.on fun c => c.hostPut (cuR u.val 0) ((c.rd (cuR u.val 0) &&& 0x30) ||| 4)
def execCuAbort (u : UnitNo) (s : State) : Host.Outcome State Fault Refusal :=
  s.on fun c => c.hostPut (cuR u.val 0) ((c.rd (cuR u.val 0) &&& 0x30) ||| 8)
def execDoorbell (v : Word) (s : State) : Host.Outcome State Fault Refusal := s.on (·.hostPut (hif 0xB00) v)
def execCplHeadWrite (v : Word) (s : State) : Host.Outcome State Fault Refusal := s.on (·.hostPut (hif 0xB04) v)
def execVectorRearm (hi : Bool) (bits : Word) (s : State) : Host.Outcome State Fault Refusal :=
  s.on (·.hostPut (if hi then hif 0xB10 else hif 0xB0C) bits)
def execResyncDoorbell (s : State) : Host.Outcome State Fault Refusal := s.on (·.hostPut (hif 0xB08) 1)
/-- A write of SPW_INJ_CMD with GO = 1. -/
def execFaultInject (page1 : Bool) (v : Word) (s : State) : Host.Outcome State Fault Refusal :=
  s.on (·.hostPut (spw (if page1 then 1 else 0) 0xB14) (v ||| 0x100))
def execDevTempPeakRead (s : State) : Host.Outcome State Fault Refusal := s.on (·.access (.rd (dev 0x224)))
def execBwPeakRead (s : State) : Host.Outcome State Fault Refusal := s.on (·.access (.rd (rsv 0x238)))
def execLatchingRead (a : BitVec 20) (s : State) : Host.Outcome State Fault Refusal := s.on (·.access (.rd a.toNat))

end Sys2Proof.Machine
end

