-- ==== Sys2Proof/Machine/Boundary.lean ====
section
/-! DEFINITION. The frame boundary (R28–R30), the Levee tick (R5, R455), and the end of STALE (R464). A boundary first closes the
frame that ends, under the old state, then begins the next one under the changes due there; each step of it is a named part of
its chapter. -/

namespace Sys2Proof.Machine

/-- A frame has passed: a boundary of D06, or a nominal frame while it stands (R6, R398). The Warden's times stated in frames
run with it (R418, Table 14-5). -/
def Core.framePassed (c : Core) : Core :=
  { c with levS := { c.levS with frames := c.levS.frames + 1 }
           wrdS := { c.wrdS with hold := c.wrdS.hold.map (· - 1), left := c.wrdS.left.map (· - 1) } }

/-- Short companions read 0 again at the next tick or boundary: the cancels of SNP and RSV, a missed snapshot command's
SNAP_BUSY, the Weir's WBUSY and FLUSH_BUSY, and a Check Unit's ABORT_BUSY (R66, R69). -/
def Core.settle (c : Core) : Core :=
  let c := if c.gb (snp 0xB00) 9 then c.sb (snp 0xB00) 9 false else c
  let c := if c.gb (snp 0xB00) 8 && c.snpS.req.isNone && !c.snapping then c.sb (snp 0xB00) 8 false else c
  c.weirSettle.cancelSettle.cuSettle

/-! ## The frame boundary -/

/-- What the last boundary left for rows of their own and no such row has done: a snapshot's copy and its generation with the
reads that waited for it (R62, R64), the end of a PM second, a commit, and commands past their deadline, in that order (R398:
an effect at the deadline boundary stands). A harvest overtaken by the end of the next second stops (R167), and a
Gauge's output sample still due is produced. The port notices of that boundary are written last (R360). -/
def Core.finishLast (c : Core) (m : List Host.Cell) : Core × List MemOp :=
  let c := c.snapCopy
  let c := (if c.snpS.copied then c.snapGen.drain else c).sigsDue.dropFull
  let o := c.gaugesDue m
  let h := o.1.harvestMiss m
  let c := (h.1.pmSecondEnd.commitTake (memRun m (o.2 ++ h.2))).1
  let late := (c.cmds.filter fun (k : Cmd) => k.dl = 0 && !k.fixed && !k.dup).map (·.tag)
  ((forL late (fun t c => c.expire t) c).portNotices, o.2 ++ h.2)

/-- The frame that ends, under the old state (R29): what it sent, with late reads cut out of it; what analyzers and objects received;
framing and signal fail; and the records written to the rings. A PM second ends with a frame whose number leaves 7,999 by 8,000, and its
banks change with it (R30, R164). -/
def Core.closeFrame (c : Core) (fi : FrameIn) : Core × List MemOp :=
  let c := (c.lateWork fi).sendAll
  let c := forN 64 (fun k c => c.prbsFrame fi k) c
  let c := (forL fi.objs (fun q c => c.objFrameIn q) c).vcatRx.recordSigs
  let c := forN 96 (fun p c => (((c.frameClass p).portFrameEnd p).dccGrow p false).dccGrow p true) c
  let c := forL c.inService (fun k c => c.objFrameEnd k) c
  let r := c.writeRings fi
  let c := (r.1.showLoad fi.orCells).eccFrame fi.corrected fi.scrubAt.toNat
  ((if (c.frame + 1) % 8000 = 0 then c.pmBank else c).gaugeSources fi.tref, r.2)

/-- A snapshot that falls on the boundary beginning frame `n`, a command's or a target's and SNP_PERIOD's, captures the
counts of the frames that have ended (R29, R30, R62–R66). -/
def Core.snapSelect (c : Core) (n : Nat) : Core :=
  let p := c.gf (snp 0x40) 0 16
  let cmd := match c.snpS.req with | some q => if q.2 = n && c.en 0xE then some q.1 else none | none => none
  let per := p != 0 && n % p = 0 && n != 0 && c.en 0xE
  let sel : Option (Nat × Nat) := match cmd with
    | some src => some (src, if per then 1 else 0)
    | none => if per then some (3, 0) else none
  let c : Core := { c with snpS := { c.snpS with req := if cmd.isSome then none else c.snpS.req } }
  match sel with | some q => c.capture q.1 q.2 | none => c

/-- A port at a boundary: the CDR's lock, within ±100 ppm, on a line or on the lane's own serialiser, then its state and LOS. With the bank
asleep the port stays in OFF or LISTEN (R77, R81, R82). -/
def Core.portBoundary (c : Core) (fi : FrameIn) (p : Port) : Core :=
  let n := p.val
  let on := c.bankOn (n / 16)
  let near (ppm : Int) : Bool := decide (-100 ≤ ppm ∧ ppm ≤ 100)
  let lock := if c.loopInt n then c.fmtOk n else c.energy n && fi.cdr.any fun q => q.1 = p && near q.2
  let c := (c.sb (pe n 0x200) 5 (on && lock)).portState n (c.mfRequirement n)
  c.losOof n (((fi.zeroRun.filter (·.1 = p)).map (·.2)).foldl max 0)

/-- RSV_HOLD at a boundary (R262): a request still checking, or armed for this boundary or a later one, ends with cause
HOLD. -/
def Core.holdFrame (c : Core) : Core :=
  let on := c.gb (rsv 0xB1C) 0
  let was := c.gb (rsv 0x200) 6
  let c := c.sb (rsv 0x200) 6 on
  if on && !was then c.stopReq 3 6 else c

/-- Idle frames toward self-refresh (R274): no ring, no request to commit, initialisation ended. -/
def Core.idleFrame (c : Core) : Core :=
  { c with rsvS := { c.rsvS with
    idle := if c.rsvS.rings = [] && c.rsvS.req.isNone && !c.selfRefresh && (c.gb (rsv 0x204) 3 || c.gb (rsv 0x204) 4) then c.rsvS.idle + 1 else 0 } }

/-- Deadlines one boundary nearer, or one nominal frame while D06 is stopped (R398). -/
def Core.deadlines (c : Core) : Core :=
  { c with cmds := c.cmds.map fun (k : Cmd) => if k.fixed then k else { k with dl := k.dl - 1 } }

/-- Periods run with EN = 1 toward the end of STALE (R464). -/
def Core.runPeriods (c : Core) (slots : List Nat) : Core :=
  forL slots (fun s c =>
    let n : Nat := Sparse.get (fun _ => 0) c.levS.periods s
    if c.en s && c.stale s then
      { c with levS := { c.levS with periods := Sparse.put (fun _ => 0) c.levS.periods s (n + 1) } }
    else c) c

/-- The pages whose period is a frame, and those whose period is a tick (R464). -/
def framePages : List Nat :=
  [7, 8, 0xD, 0xE] ++ (List.range 6).map (0x10 + ·) ++ (List.range 96).map (0x20 + ·)
def tickPages : List Nat := [1, 2, 3, 4, 5, 6]

/-- The frame that begins under the changes due (R28, R30). -/
def Core.openFrame (c : Core) (m : List Host.Cell) (fi : FrameIn) : Core :=
  let c := { c with cfOld := [] }
  let c := { (c.framePassed.settle.useAll.windows c.frame) with rsvS := { c.rsvS with seen := [], run := c.en 7 } }
  let c := forL (List.finRange 96) (fun p c => c.portBoundary fi p) c
  let c := c.prbsSingleEnd.serviceCheck.unusedLop.prbsCheck.vcatFrame.holdFrame
  let c := c.evalXcmd.sncpFrame.mspFrameAll.mspTimers.timingFrame
  let c := forN 96 (fun p c => c.txLane p) c
  let c := forN 6 (fun b c => c.bankShow b) c
  let c := forL fi.esFill (fun q c => c.sf (bk (q.1.val / 16) (0x240 + 4 * (q.1.val % 16))) 0 8 q.2.toNat) c
  let c := forN 96 (fun p c => (c.refresh p).countPtr p) c
  let c : Core := if c.commitDue then { c with rsvS := { c.rsvS with sent := [] } } else c.readAll m
  let c : Core := c.unsent.idleFrame.deadlines
  if c.cpls != [] && decide (1024 ≤ c.cplUsed) then (c.cn (hif 0x518) 1).ev (hif 0x400) (bit 5) else c

/-- FRAME_BOUNDARY: the boundary that ends one frame and begins frame `n`, the next; none of its parts changes the number. -/
def Core.frameBoundary (c : Core) (m : List Host.Cell) (fi : FrameIn) : Core × List MemOp :=
  if !c.d06 then (c, [])
  else
    let n := c.frame + 1
    let l := ({ c with linkOut := [] } : Core).finishLast m
    let m := memRun m l.2
    let r := l.1.closeFrame fi
    let c := { r.1 with frame := n }
    let c := ((c.mateFrame.snapSelect c.frame).openFrame (memRun m r.2) fi).fsyncPin true
    let a := c.serveAttest
    ({ (a.1.runPeriods framePages).msi with frame := n }, l.2 ++ r.2 ++ a.2)

/-! ## The end of STALE -/

/-- One full period of a page's block has run with EN = 1. A page enabled within a frame or tick has its first full one after
the next boundary; frame 0 runs whole with the TIM page that starts it. The Weir's 64 D09 cycles and a Gauge's output sample
are the events' own time. -/
def Core.periodRun (c : Core) (slot : Nat) : Bool :=
  let n : Nat := Sparse.get (fun _ => 0) c.levS.periods slot
  match pageKind slot with
  | some .tim | some .cu => decide (1 ≤ n)
  | some .ga => (List.range 12).any fun k =>
      let g := 12 * (slot - 0xA) + k
      c.gb (gaR g 0) 0 && c.rd (gaR g 0x1C) != 0
  | some .wq => true
  | some .dev | some .tst | none => false
  | _ => decide (2 ≤ n)

/-- STALE_CLEAR. -/
def Core.staleClear (c : Core) (slot : Nat) : Core :=
  if c.stale slot && c.en slot && c.periodRun slot then
    { c with levS := { c.levS with periods := Sparse.drop slot c.levS.periods } }.sb (pg slot + 8) 1 false
  else c

/-! ## The Levee tick -/

/-- The comparators and their filters (R82): a filter is held in reset until its port has left OFF. -/
def Core.comparators (c : Core) (raw : BitVec 96) : Core :=
  let on := c.gb (lev 0x44) 0
  let raw : BitVec 96 := if on then raw else 0
  let c := forN 3 (fun i c => c.wr (lev (0x21C + 4 * i)) (raw.extractLsb' (32 * i) 32)) c
  forN 96 (fun p c => c.updPort p fun x =>
    { x with eFilt := if !x.live then 0 else if raw.getLsbD p != c.energy p then min (x.eFilt + 1) 64 else 0 }) c

/-- The watchdog counts while it is armed and not paused (R456). -/
def Core.watchdogTick (c : Core) : Core :=
  if c.gb (lev 0x200) 5 && !c.gb (lev 0x200) 6 then
    { c with levS := { c.levS with wdtRun := c.levS.wdtRun + 1 } }.wr (lev 0x228) (BitVec.ofNat 32 ((c.rd (lev 0x228)).toNat - 1))
  else c

/-- Nominal frames of 152 ticks while D06 is stopped (R398, R431): deadlines, reports, idle time of the HBM, and ports in OFF or LISTEN. -/
def Core.nominalTick (c : Core) : Core × List MemOp :=
  if c.d06 then ({ c with levS := { c.levS with nom := 0 } }, [])
  else if c.levS.nom + 1 < 152 then ({ c with levS := { c.levS with nom := c.levS.nom + 1 } }, [])
  else
    let c := { c with levS := { c.levS with nom := 0 } }.framePassed
    let late := (c.cmds.filter fun (k : Cmd) => k.dl = 0 && !k.fixed && !k.dup).map (·.tag)
    let c := forN 96 (fun p c => c.portState p false) c
    (forL late (fun t c => c.expire t) c).deadlines.idleFrame.serveAttest

/-- The times for which L1's and the islands' conditions have held (R458, R459). -/
def Core.timesTick (c : Core) : Core :=
  let blk := c.l1Block
  let c := { c with levS := { c.levS with l1Run := if (blk &&& 0xBF) = 0 then c.levS.l1Run + 1 else 0 } }.wr (lev 0x238) blk
  forN 13 (fun i c =>
    let run : Nat := Sparse.get (fun _ => 0) c.levS.offRun i
    let m : SMap Nat := if c.mayOff i then Sparse.put (fun _ => 0) c.levS.offRun i (run + 1) else Sparse.drop i c.levS.offRun
    { c with levS := { c.levS with offRun := m } }) c

/-- The supply monitor of a bank whose island is on (R504). -/
def Core.bankSupply (c : Core) (b : Nat) (bad : Bool) : Core :=
  if !c.islandUp (7 + b) then c
  else
    let fell := bad && c.gb (bk b 0x200) 4
    let c := c.sb (bk b 0x200) 4 (!bad)
    if fell then (c.cn (bk b 0x514) 1).ev (bk b 0x400) (bit 3) else c

/-- A chip reset that CHIP_RESET asked for falls due one frame after its completion is written. -/
def Core.chipDue (c : Core) : Core :=
  match c.hifS.chip with
  | some (_, some t) => if t + 1 ≤ c.levS.frames then { c with hifS := { c.hifS with chip := none } }.askChip 2 else c
  | _ => c

/-- LEVEE_TICK: while PWRGOOD is high the Levee counts, samples and times; in a chip reset it only counts. -/
def Core.leveeTick (c : Core) (ti : TickIn) : Core × List MemOp :=
  if !c.pins.pwrgood then (c, [])
  else
    let t := c.tick + 1
    let c := { c with tick := t }
    if c.levS.chipHold then (c, [])
    else
      let r := ((c.settle.comparators ti.raw).watchdogTick).nominalTick
      let c := (r.1.timesTick.wakeRecords).dieTemp ti.dieTemp
      let c := forL ti.bankTemp (fun q c => if c.islandUp (7 + q.1.val) then
        c.wr (bk q.1.val 0x214) ((BitVec.ofInt 8 q.2).setWidth 32) else c) c
      let c := forL (List.finRange 6) (fun b c => c.bankSupply b.val (ti.bankBad.contains b)) c
      let c := ((c.runPeriods tickPages).spwTick ti.rails).chipDue
      ({ (c.showPstate.msi.fsyncPin false) with tick := t }, r.2)

def execFrameBoundary (fi : FrameIn) (s : State) : Host.Outcome State Fault Refusal := s.onMem (·.frameBoundary · fi)
def execLeveeTick (ti : TickIn) (s : State) : Host.Outcome State Fault Refusal := s.onMem fun c _ => c.leveeTick ti
def execEnergyDown (p : Port) (s : State) : Host.Outcome State Fault Refusal := s.on (·.energyDown p.val)
def execStaleClear (slot : PageSlot) (s : State) : Host.Outcome State Fault Refusal := s.on (·.staleClear slot.val)

end Sys2Proof.Machine
end

