-- ==== Sys2Proof/Machine/Dispatch.lean ====
section
/-! DEFINITION. The meaning of each command: one arm per constructor. -/

namespace Sys2Proof.Machine

/-- The effect of a command on everything but the queue. -/
def exec (i : Instr) (s : State) : Host.Outcome State Fault Refusal :=
  match i with
  | .registerWrite a v left => Sys2Proof.Machine.execRegisterWrite a v left s
  | .unassignedSlotAccess a write => Sys2Proof.Machine.execUnassignedSlotAccess a write s
  | .privilegedPageAccess a write => Sys2Proof.Machine.execPrivilegedPageAccess a write s
  | .accessWidthError x => Sys2Proof.Machine.execAccessWidthError x s
  | .evClearingRead a => Sys2Proof.Machine.execEvClearingRead a s
  | .pgIgnAddrRead slot => Sys2Proof.Machine.execPgIgnAddrRead slot s
  | .hldRead a wide => Sys2Proof.Machine.execHldRead a wide s
  | .aliasRead a => Sys2Proof.Machine.execAliasRead a s
  | .aliasWrite a v left => Sys2Proof.Machine.execAliasWrite a v left s
  | .pgCtrlEnWrite slot v => Sys2Proof.Machine.execPgCtrlEnWrite slot v s
  | .enableScanEnd slot => Sys2Proof.Machine.execEnableScanEnd slot s
  | .softRst slot v => Sys2Proof.Machine.execSoftRst slot v s
  | .softRstDone slot => Sys2Proof.Machine.execSoftRstDone slot s
  | .configSweep ups => Sys2Proof.Machine.execConfigSweep ups s
  | .grdTgtWrite slot v => Sys2Proof.Machine.execGrdTgtWrite slot v s
  | .grdValWrite slot v => Sys2Proof.Machine.execGrdValWrite slot v s
  | .grdCplWrite slot v => Sys2Proof.Machine.execGrdCplWrite slot v s
  | .grdSequenceExpire => Sys2Proof.Machine.execGrdSequenceExpire s
  | .snapAll left => Sys2Proof.Machine.execSnapAll left s
  | .snapArm => Sys2Proof.Machine.execSnapArm s
  | .snapCancel left => Sys2Proof.Machine.execSnapCancel left s
  | .snapshot => Sys2Proof.Machine.execSnapshot s
  | .snapGenIncrement => Sys2Proof.Machine.execSnapGenIncrement s
  | .snapRequestWithdraw => Sys2Proof.Machine.execSnapRequestWithdraw s
  | .apertureAccess off op => Sys2Proof.Machine.execApertureAccess off op s
  | .frameBoundary fi => Sys2Proof.Machine.execFrameBoundary fi s
  | .leveeTick ti => Sys2Proof.Machine.execLeveeTick ti s
  | .energyUp p => Sys2Proof.Machine.execEnergyUp p s
  | .energyDown p => Sys2Proof.Machine.execEnergyDown p s
  | .bankWake b => Sys2Proof.Machine.execBankWake b s
  | .bankUp b => Sys2Proof.Machine.execBankUp b s
  | .bankSleep b => Sys2Proof.Machine.execBankSleep b s
  | .rateEstimateEnd p est => Sys2Proof.Machine.execRateEstimateEnd p est s
  | .rateAttemptSuccess p a => Sys2Proof.Machine.execRateAttemptSuccess p a s
  | .rateAttemptFail p => Sys2Proof.Machine.execRateAttemptFail p s
  | .sweepRetry p => Sys2Proof.Machine.execSweepRetry p s
  | .forcedFormatLock p => Sys2Proof.Machine.execForcedFormatLock p s
  | .resense p => Sys2Proof.Machine.execResense p s
  | .clientSet p ss => Sys2Proof.Machine.execClientSet p ss s
  | .lineFrame p client li => Sys2Proof.Machine.execLineFrame p client li s
  | .detection p client pos => Sys2Proof.Machine.execDetection p client pos s
  | .candidateConfirm p client => Sys2Proof.Machine.execCandidateConfirm p client s
  | .oof p client => Sys2Proof.Machine.execOof p client s
  | .falseLock p client => Sys2Proof.Machine.execFalseLock p client s
  | .huntCycleEnd p client => Sys2Proof.Machine.execHuntCycleEnd p client s
  | .lofDeclare p client => Sys2Proof.Machine.execLofDeclare p client s
  | .lofClear p client => Sys2Proof.Machine.execLofClear p client s
  | .mfasAlign p => Sys2Proof.Machine.execMfasAlign p s
  | .mfasOom p => Sys2Proof.Machine.execMfasOom p s
  | .otuLomDeclare p => Sys2Proof.Machine.execOtuLomDeclare p s
  | .otuLomClear p => Sys2Proof.Machine.execOtuLomClear p s
  | .h4MfAlign o => Sys2Proof.Machine.execH4MfAlign o s
  | .h4MfOom o => Sys2Proof.Machine.execH4MfOom o s
  | .tuLomDeclare o => Sys2Proof.Machine.execTuLomDeclare o s
  | .tuLomClear o => Sys2Proof.Machine.execTuLomClear o s
  | .e1BasicAlign n => Sys2Proof.Machine.execE1BasicAlign n s
  | .e1BasicLoss n => Sys2Proof.Machine.execE1BasicLoss n s
  | .e1Crc4Align n => Sys2Proof.Machine.execE1Crc4Align n s
  | .noCrc4 n => Sys2Proof.Machine.execNoCrc4 n s
  | .e1Crc4Loss n => Sys2Proof.Machine.execE1Crc4Loss n s
  | .ttiAccept t bytes => Sys2Proof.Machine.execTtiAccept t bytes s
  | .ssmAccept p => Sys2Proof.Machine.execSsmAccept p s
  | .k1k2Accept p => Sys2Proof.Machine.execK1k2Accept p s
  | .signalLabelAccept o => Sys2Proof.Machine.execSignalLabelAccept o s
  | .defectDeclare t d => Sys2Proof.Machine.execDefectDeclare t d s
  | .defectClear t d => Sys2Proof.Machine.execDefectClear t d s
  | .excWindowEnd t => Sys2Proof.Machine.execExcWindowEnd t s
  | .remoteIndicationChange t r => Sys2Proof.Machine.execRemoteIndicationChange t r s
  | .pmSecondEnd => Sys2Proof.Machine.execPmSecondEnd s
  | .harvest => Sys2Proof.Machine.execHarvest s
  | .harvestLate written => Sys2Proof.Machine.execHarvestLate written s
  | .dccRxFrame p ms f => Sys2Proof.Machine.execDccRxFrame p ms f s
  | .dccTxFrame p ms => Sys2Proof.Machine.execDccTxFrame p ms s
  | .pointerReceive o w => Sys2Proof.Machine.execPointerReceive o w s
  | .pointerStateChange o => Sys2Proof.Machine.execPointerStateChange o s
  | .pointerGenerate o moved => Sys2Proof.Machine.execPointerGenerate o moved s
  | .prbsSyncGain k => Sys2Proof.Machine.execPrbsSyncGain k s
  | .prbsSyncLoss k => Sys2Proof.Machine.execPrbsSyncLoss k s
  | .prbsSingle k => Sys2Proof.Machine.execPrbsSingle k s
  | .vcatControlPacket g sl k => Sys2Proof.Machine.execVcatControlPacket g sl k s
  | .vcMfAlign g sl gained => Sys2Proof.Machine.execVcMfAlign g sl gained s
  | .vcLom g sl => Sys2Proof.Machine.execVcLom g sl s
  | .memberLoaClear g sl => Sys2Proof.Machine.execMemberLoaClear g sl s
  | .groupLoa g => Sys2Proof.Machine.execGroupLoa g s
  | .sqAccept g sl => Sys2Proof.Machine.execSqAccept g sl s
  | .payloadSetChange g => Sys2Proof.Machine.execPayloadSetChange g s
  | .mstFail g sl => Sys2Proof.Machine.execMstFail g sl s
  | .mstOk g sl => Sys2Proof.Machine.execMstOk g sl s
  | .rsAckToggle g => Sys2Proof.Machine.execRsAckToggle g s
  | .memberRecordWrite g => Sys2Proof.Machine.execMemberRecordWrite g s
  | .rsvInitStep st => Sys2Proof.Machine.execRsvInitStep st s
  | .initFail => Sys2Proof.Machine.execInitFail s
  | .hdmRead line => Sys2Proof.Machine.execHdmRead line s
  | .hdmWrite line data => Sys2Proof.Machine.execHdmWrite line data s
  | .bar4Access x => Sys2Proof.Machine.execBar4Access x s
  | .eccUncorrectable k cell synd retryOk => Sys2Proof.Machine.execEccUncorrectable k cell synd retryOk s
  | .scrubPass fixed => Sys2Proof.Machine.execScrubPass fixed s
  | .tableParityError t n => Sys2Proof.Machine.execTableParityError t n s
  | .hbmHot temp => Sys2Proof.Machine.execHbmHot temp s
  | .mapCommitGo v tgt => Sys2Proof.Machine.execMapCommitGo v tgt s
  | .commitCheckEnd => Sys2Proof.Machine.execCommitCheckEnd s
  | .commitTake => Sys2Proof.Machine.execCommitTake s
  | .postCommitCopyEnd => Sys2Proof.Machine.execPostCommitCopyEnd s
  | .mapCommitCancel left => Sys2Proof.Machine.execMapCommitCancel left s
  | .selfRefreshEntry => Sys2Proof.Machine.execSelfRefreshEntry s
  | .selfRefreshExit => Sys2Proof.Machine.execSelfRefreshExit s
  | .vcFrameSignature pr prot sig pos at_ => Sys2Proof.Machine.execVcFrameSignature pr prot sig pos at_ s
  | .markerMatch pr prot => Sys2Proof.Machine.execMarkerMatch pr prot s
  | .markerMiss pr prot => Sys2Proof.Machine.execMarkerMiss pr prot s
  | .sfHoldoffEnd pr prot sd => Sys2Proof.Machine.execSfHoldoffEnd pr prot sd s
  | .wtrEnd pr => Sys2Proof.Machine.execWtrEnd pr s
  | .xcmdClear t msp left => Sys2Proof.Machine.execXcmdClear t msp left s
  | .xcmdLo t msp left => Sys2Proof.Machine.execXcmdLo t msp left s
  | .xcmdFsP t msp left => Sys2Proof.Machine.execXcmdFsP t msp left s
  | .xcmdFsW t msp left => Sys2Proof.Machine.execXcmdFsW t msp left s
  | .xcmdMsP t msp left => Sys2Proof.Machine.execXcmdMsP t msp left s
  | .xcmdMsW t msp left => Sys2Proof.Machine.execXcmdMsW t msp left s
  | .psbf k => Sys2Proof.Machine.execPsbf k s
  | .chMm k => Sys2Proof.Machine.execChMm k s
  | .heartbeatReceive msg => Sys2Proof.Machine.execHeartbeatReceive msg s
  | .partnerLost => Sys2Proof.Machine.execPartnerLost s
  | .arbitrateTimeout => Sys2Proof.Machine.execArbitrateTimeout s
  | .dualResolve => Sys2Proof.Machine.execDualResolve s
  | .mirrorSend => Sys2Proof.Machine.execMirrorSend s
  | .mirrorReceive rs => Sys2Proof.Machine.execMirrorReceive rs s
  | .yield => Sys2Proof.Machine.execYield s
  | .yieldTake => Sys2Proof.Machine.execYieldTake s
  | .frameNumberTake => Sys2Proof.Machine.execFrameNumberTake s
  | .gaugeSrst g => Sys2Proof.Machine.execGaugeSrst g s
  | .gaugeSyncAll => Sys2Proof.Machine.execGaugeSyncAll s
  | .gaugeInputEvent g phase => Sys2Proof.Machine.execGaugeInputEvent g phase s
  | .gaugeOutputSample g => Sys2Proof.Machine.execGaugeOutputSample g s
  | .inputLost g => Sys2Proof.Machine.execInputLost g s
  | .inputBack g => Sys2Proof.Machine.execInputBack g s
  | .gaCoefDataAccess page1 w => Sys2Proof.Machine.execGaCoefDataAccess page1 w s
  | .gaugeSwap g dst => Sys2Proof.Machine.execGaugeSwap g dst s
  | .loopLock => Sys2Proof.Machine.execLoopLock s
  | .loopLockLoss => Sys2Proof.Machine.execLoopLockLoss s
  | .refHoldoffEnd => Sys2Proof.Machine.execRefHoldoffEnd s
  | .refWtrEnd si => Sys2Proof.Machine.execRefWtrEnd si s
  | .timCmdForce si left => Sys2Proof.Machine.execTimCmdForce si left s
  | .timCmdManual si left => Sys2Proof.Machine.execTimCmdManual si left s
  | .timCmdLockout si set left => Sys2Proof.Machine.execTimCmdLockout si set left s
  | .timCmdClear left => Sys2Proof.Machine.execTimCmdClear left s
  | .timEnable => Sys2Proof.Machine.execTimEnable s
  | .timDisable => Sys2Proof.Machine.execTimDisable s
  | .packetDrop q src => Sys2Proof.Machine.execPacketDrop q src s
  | .headClaim => Sys2Proof.Machine.execHeadClaim s
  | .pop rofs => Sys2Proof.Machine.execPop rofs s
  | .popDone => Sys2Proof.Machine.execPopDone s
  | .wqRselWrite q => Sys2Proof.Machine.execWqRselWrite q s
  | .flush q => Sys2Proof.Machine.execFlush q s
  | .packetOpen hdr => Sys2Proof.Machine.execPacketOpen hdr s
  | .writeWindowWrite off v => Sys2Proof.Machine.execWriteWindowWrite off v s
  | .packetCommit => Sys2Proof.Machine.execPacketCommit s
  | .packetAbort => Sys2Proof.Machine.execPacketAbort s
  | .wqPeakRead q => Sys2Proof.Machine.execWqPeakRead q s
  | .watermarkCrossing q => Sys2Proof.Machine.execWatermarkCrossing q s
  | .cuStart u => Sys2Proof.Machine.execCuStart u s
  | .cuDinWrite v => Sys2Proof.Machine.execCuDinWrite v s
  | .cuFinish u tail => Sys2Proof.Machine.execCuFinish u tail s
  | .cuSuspend u => Sys2Proof.Machine.execCuSuspend u s
  | .cuAbort u => Sys2Proof.Machine.execCuAbort u s
  | .cuResult u => Sys2Proof.Machine.execCuResult u s
  | .cuPoisoned u => Sys2Proof.Machine.execCuPoisoned u s
  | .perstAssert => Sys2Proof.Machine.execPerstAssert s
  | .perstDeassert => Sys2Proof.Machine.execPerstDeassert s
  | .linkDown => Sys2Proof.Machine.execLinkDown s
  | .linkUp cxl speed width => Sys2Proof.Machine.execLinkUp cxl speed width s
  | .doeRequest x => Sys2Proof.Machine.execDoeRequest x s
  | .msixMessage v => Sys2Proof.Machine.execMsixMessage v s
  | .vectorRearm hi bits => Sys2Proof.Machine.execVectorRearm hi bits s
  | .msixGapEnd v => Sys2Proof.Machine.execMsixGapEnd v s
  | .doorbell v => Sys2Proof.Machine.execDoorbell v s
  | .commandFetch slot => Sys2Proof.Machine.execCommandFetch slot s
  | .completionWrite => Sys2Proof.Machine.execCompletionWrite s
  | .cplHeadWrite v => Sys2Proof.Machine.execCplHeadWrite v s
  | .deadlineExpire tag => Sys2Proof.Machine.execDeadlineExpire tag s
  | .nop tag => Sys2Proof.Machine.execNop tag s
  | .abort tag => Sys2Proof.Machine.execAbort tag s
  | .resync tag => Sys2Proof.Machine.execResync tag s
  | .attest tag => Sys2Proof.Machine.execAttest tag s
  | .fwLoad tag => Sys2Proof.Machine.execFwLoad tag s
  | .capsule tag => Sys2Proof.Machine.execCapsule tag s
  | .mapCommit tag => Sys2Proof.Machine.execMapCommit tag s
  | .mapCancel tag left => Sys2Proof.Machine.execMapCancel tag left s
  | .protCmd tag left => Sys2Proof.Machine.execProtCmd tag left s
  | .guardWrite tag => Sys2Proof.Machine.execGuardWrite tag s
  | .check tag => Sys2Proof.Machine.execCheck tag s
  | .chipReset tag => Sys2Proof.Machine.execChipReset tag s
  | .resyncDoorbell => Sys2Proof.Machine.execResyncDoorbell s
  | .ledgerWrite => Sys2Proof.Machine.execLedgerWrite s
  | .fwVerifyEnd fuseOk => Sys2Proof.Machine.execFwVerifyEnd fuseOk s
  | .keyFuseCmd v fuseOk => Sys2Proof.Machine.execKeyFuseCmd v fuseOk s
  | .capsuleRecordsWritten => Sys2Proof.Machine.execCapsuleRecordsWritten s
  | .ownershipSeal fuseOk => Sys2Proof.Machine.execOwnershipSeal fuseOk s
  | .mapHashCompute => Sys2Proof.Machine.execMapHashCompute s
  | .wardenSleep => Sys2Proof.Machine.execWardenSleep s
  | .wardenWake cause => Sys2Proof.Machine.execWardenWake cause s
  | .wardenFail cause => Sys2Proof.Machine.execWardenFail cause s
  | .restartHoldEnd => Sys2Proof.Machine.execRestartHoldEnd s
  | .restartVerifyEnd => Sys2Proof.Machine.execRestartVerifyEnd s
  | .restartTimeout => Sys2Proof.Machine.execRestartTimeout s
  | .wardenRestart => Sys2Proof.Machine.execWardenRestart s
  | .watchdogKick => Sys2Proof.Machine.execWatchdogKick s
  | .watchdogExpire => Sys2Proof.Machine.execWatchdogExpire s
  | .watchdogHalfWake => Sys2Proof.Machine.execWatchdogHalfWake s
  | .wakeTimer => Sys2Proof.Machine.execWakeTimer s
  | .jtagInstruction n => Sys2Proof.Machine.execJtagInstruction n s
  | .railFault k => Sys2Proof.Machine.execRailFault k s
  | .quietEnd k => Sys2Proof.Machine.execQuietEnd k s
  | .graceExpire k => Sys2Proof.Machine.execGraceExpire k s
  | .faultAck page1 word bits => Sys2Proof.Machine.execFaultAck page1 word bits s
  | .ffRearm => Sys2Proof.Machine.execFfRearm s
  | .faultInject page1 v => Sys2Proof.Machine.execFaultInject page1 v s
  | .injectionEnd page1 => Sys2Proof.Machine.execInjectionEnd page1 s
  | .pwrgoodRise => Sys2Proof.Machine.execPwrgoodRise s
  | .fuseSenseDone ok => Sys2Proof.Machine.execFuseSenseDone ok s
  | .powerOnReset => Sys2Proof.Machine.execPowerOnReset s
  | .devChiprst => Sys2Proof.Machine.execDevChiprst s
  | .chipResetEntry => Sys2Proof.Machine.execChipResetEntry s
  | .chipResetEnd => Sys2Proof.Machine.execChipResetEnd s
  | .devBlkrstHif => Sys2Proof.Machine.execDevBlkrstHif s
  | .devBlkrstTim => Sys2Proof.Machine.execDevBlkrstTim s
  | .devBlkrstAux => Sys2Proof.Machine.execDevBlkrstAux s
  | .devBlkrstMat => Sys2Proof.Machine.execDevBlkrstMat s
  | .bkRstIsland b => Sys2Proof.Machine.execBkRstIsland b s
  | .islandReset n => Sys2Proof.Machine.execIslandReset n s
  | .blockReturn slot => Sys2Proof.Machine.execBlockReturn slot s
  | .staleClear slot => Sys2Proof.Machine.execStaleClear slot s
  | .l1Entry => Sys2Proof.Machine.execL1Entry s
  | .l1Exit => Sys2Proof.Machine.execL1Exit s
  | .islandOff n => Sys2Proof.Machine.execIslandOff n s
  | .islandOn n => Sys2Proof.Machine.execIslandOn n s
  | .supplyTrip k => Sys2Proof.Machine.execSupplyTrip k s
  | .supplyClear k => Sys2Proof.Machine.execSupplyClear k s
  | .tempTrip temp => Sys2Proof.Machine.execTempTrip temp s
  | .devTempPeakRead => Sys2Proof.Machine.execDevTempPeakRead s
  | .esSlip p => Sys2Proof.Machine.execEsSlip p s
  | .bankPllUnlock b pll => Sys2Proof.Machine.execBankPllUnlock b pll s
  | .bwPeakRead => Sys2Proof.Machine.execBwPeakRead s
  | .latchingRead a => Sys2Proof.Machine.execLatchingRead a s
  | .cdrLoss p => Sys2Proof.Machine.execCdrLoss p s
  | .mateLaneUp lane => Sys2Proof.Machine.execMateLaneUp lane s
  | .mateLaneDown lane => Sys2Proof.Machine.execMateLaneDown lane s
  | .hdmDecoderCommit => Sys2Proof.Machine.execHdmDecoderCommit s

end Sys2Proof.Machine
end

