-- ==== Sys2Proof/Safety.lean ====
section
/-! DEFINITION. What counts as a safe run, in the terms the statements use: a command that completes and what it leaves, a step
that answers a next state, and the canonical form of the HBM's bytes. -/

namespace Sys2Proof.Safety

open Sys2Proof Sys2Proof.Machine

/-- From block `c` the command completes with the block at `c'`, whatever the HBM holds and whatever waits in the queue, and
changes neither of the two. -/
def Goes (i : Instr) (c c' : Core) : Prop :=
  ∀ (m : List Host.Cell) (q : List Instr),
    exec i { core := c, hbm := m, pending := q } = .next { core := c', hbm := m, pending := q }

/-- From block `c` and HBM `m` the command completes with the block at `c'` and the HBM as the effects `ops` leave it; the
queue is unchanged. -/
def GoesMem (i : Instr) (c : Core) (m : List Host.Cell) (c' : Core) (ops : List MemOp) : Prop :=
  ∀ q : List Instr, exec i { core := c, hbm := m, pending := q } = .next { core := c', hbm := memRun m ops, pending := q }

/-- From block `c` the command completes, leaves HBM and queue unchanged, and the block it leaves satisfies `P`. -/
def Reaches (i : Instr) (c : Core) (P : Core → Prop) : Prop :=
  ∀ (m : List Host.Cell) (q : List Instr),
    ∃ c', exec i { core := c, hbm := m, pending := q } = .next { core := c', hbm := m, pending := q } ∧ P c'

/-- From block `c` and HBM `m` the command completes, leaves the queue unchanged, and what it leaves satisfies `P`. -/
def ReachesMem (i : Instr) (c : Core) (m : List Host.Cell) (P : Core → List Host.Cell → Prop) : Prop :=
  ∀ q : List Instr,
    ∃ c' m', exec i { core := c, hbm := m, pending := q } = .next { core := c', hbm := m', pending := q } ∧ P c' m'

/-- Two blocks that differ in registers only, and in no register outside a list of addresses. -/
def RegsOnly (l : List Nat) (c c' : Core) : Prop :=
  c' = { c with regs := c'.regs } ∧ ∀ a, a ∉ l → c'.rd a = c.rd a

/-- A host access takes effect at once: the link is up, nothing waits before it, no snapshot copy is shown late, and the
island it needs is on (R36, R37, R64). -/
abbrev Open (c : Core) (island : Nat) : Prop :=
  c.gb (hif 0x200) 0 = true ∧ c.blocked = [] ∧ c.snapping = false ∧ c.islandUp island = true

/-- The block a host access finds: message causes looked at, and no completion sent yet. -/
def Arrives (c : Core) : Core := { c.msi with linkOut := [] }

/-- From block `c` the host access has the effect that leaves `d`, then its completion is sent and message causes are looked at
again. -/
def Answers (i : Instr) (c d : Core) (r : LinkResp) : Prop := Goes i c { d with linkOut := d.linkOut ++ [r] }.msi

/-- The reserved bits of a register (Table 2-9). -/
def rvOf (a : Nat) : Word := match regRow (a / 0x1000) (a % 0x1000) with | some r => r.rv | none => 0

/-- A write changes no reserved bit of a register (R48). -/
abbrev Quiet (e : Core) (a : Nat) (v : Word) : Prop := (v ^^^ e.view a) &&& rvOf a = 0

/-- The block once the bits `m` of a register are stored, in open mode its reserved bits with them (R48). -/
def Stored (e : Core) (a : Nat) (v m : Word) : Core :=
  let m := m ||| if e.sealed then 0 else rvOf a
  if m = 0 then e else e.stow a v m

/-- A step that answers a next state. -/
def Live (s : State) : Prop := ∃ t, step s = .next t

/-- The HBM's bytes are in canonical form. -/
def HbmWf (s : State) : Prop := Memory.wf s.hbm

end Sys2Proof.Safety
end

