-- ==== Sys2Proof/Certificates/Slice0/Obligations.lean ====
section
/-! DEFINITION. The statements for the provers. `Goes`, `GoesMem`, `Reaches` and `ReachesMem` say that a command completes and
what it leaves, the queue and (for `Goes` and `Reaches`) the HBM unchanged; a block written out is the whole block, so that
whatever it does not name is as before. -/

open Sys2Proof Sys2Proof.Machine Sys2Proof.Safety

/-- A step of the block with a command at the front of its queue is that command's effect on the block with the rest
of the queue. With an empty queue the block idles, which is the model's choice (assumption log, entry 2). (R36,
opcode_table.json) -/
def Obligations.AStepRunsTheFrontCommand : Prop :=
  ∀ s : State,
    (∀ (i : Instr) (rest : List Instr), s.pending = i :: rest → step s = exec i { s with pending := rest }) ∧
    (s.pending = [] → step s = .next s)

/-- From every state a step answers a next state, whatever command is at the front, and the queue it leaves is the
queue without its front command. (R36, opcode_table.json) -/
def Obligations.EveryCommandCompletesAndLeavesTheQueueInOrder : Prop :=
  ∀ s : State, Live s ∧ ∀ t, step s = .next t → t.pending = s.pending.tail

/-- From every state whose HBM lists its bytes in canonical form (addresses rising, none listed that reads as an
unlisted one), a step leaves the HBM in canonical form, whatever command it runs. (R237, R241, R460, Table 8-1) -/
def Obligations.TheHbmStaysCanonical : Prop :=
  ∀ s t : State, HbmWf s → step s = .next t → HbmWf t

/-- After power-on reset the queue is empty, the HBM lists nothing and is in canonical form, every register holds its
reset value (of every port PE_FRM_CFG 0xB8B30C22, PE_PATH_CFG 0x00000438, PE_MAP_BASE 0x00001800 and PE_MAP_CNT 0),
every table word is zero, no page is enabled, D06 stands, the Warden has no image, and the fuses are blank in open
mode. That the HBM reads zero before its initialisation is the model's choice (assumption log, entry 3). (R11, R12,
R101, R137, R184, R201, R207, R211, R279, R460, Table 8-1) -/
def Obligations.ResetLeavesTheStatedValues : Prop :=
  State.reset.pending = [] ∧ HbmWf State.reset ∧ (∀ a, memRead State.reset.hbm a = 0) ∧
  (∀ a, State.reset.core.rd a = regReset a) ∧ (∀ k, State.reset.core.trd k = 0) ∧
  (∀ p, p < 96 → regReset (pe p 0x4C) = 0xB8B30C22 ∧ regReset (pe p 0x58) = 0x00000438 ∧ regReset (pe p 0x5C) = 0x00001800 ∧
    regReset (pe p 0x60) = 0) ∧
  (∀ s ∈ pageSlots, State.reset.core.en s = false) ∧ State.reset.core.d06 = false ∧ State.reset.core.wState = 0 ∧
  State.reset.core.sealed = false ∧ State.reset.core.fuses.owner = 0 ∧ State.reset.core.fuses.valid = false ∧
  State.reset.core.fuses.rollback = 0 ∧ State.reset.core.fuses.rev0 = false ∧ State.reset.core.fuses.rev1 = false

/-- On a link that is up, with no access before it that waits, every host access to a page slot 0x16 to 0x1F, be it a
write, a read, a 64-bit read, an alias access or an access of another width, completes with a completer abort and
leaves the block as it was: no page records it. (R35) -/
def Obligations.UnassignedSlotsAbort : Prop :=
  ∀ c : Core, c.gb (hif 0x200) 0 = true → c.blocked = [] → c.snapping = false →
    let e := Arrives c
    (∀ (a : BitVec 20) (w : Bool) (v : Word) (left : Nat), 0x16 ≤ a.toNat / 0x1000 → a.toNat / 0x1000 ≤ 0x1F →
      Answers (.unassignedSlotAccess a w) c e .abort ∧ Answers (.registerWrite a v left) c e .abort ∧
      Answers (.evClearingRead a) c e .abort ∧ Answers (.latchingRead a) c e .abort ∧ Answers (.hldRead a w) c e .abort) ∧
    (∀ (x : BitVec 24) (v : Word) (left : Nat), 0x16 ≤ aliasReg x.toNat / 0x1000 → aliasReg x.toNat / 0x1000 ≤ 0x1F →
      Answers (.aliasRead x) c e .abort ∧ Answers (.aliasWrite x v left) c e .abort) ∧
    (∀ x : OddAccess, (if x.bar2 then 0x16 ≤ aliasReg x.addr.toNat / 0x1000 ∧ aliasReg x.addr.toNat / 0x1000 ≤ 0x1F
      else 0x16 ≤ x.addr.toNat / 0x1000 ∧ x.addr.toNat / 0x1000 ≤ 0x1F) → Answers (.accessWidthError x) c e .abort)

/-- The alias word at A × 32 + b × 4, which is (n × 32 + b) × 4 for n = A ÷ 4, names the register at A and its bit b;
on a link that is up, with nothing before it and the island on, a read of it answers that bit of the register and
changes nothing but for the parity check that every use of a register makes. (R60) -/
def Obligations.AliasWordsNameTheirBits : Prop :=
  ∀ (n b : Nat), n < 0x20000 → b < 32 →
    let a := 4 * n
    let x := (n * 32 + b) * 4
    x = a * 32 + b * 4 ∧ x < 0x1000000 ∧ aliasReg x = a ∧ aliasBit x = b ∧
    (∀ c : Core, Open c (islandOf (a / 0x1000)) → (pageKind (a / 0x1000)).isSome = true → privileged (a / 0x1000) = false →
      Answers (.aliasRead (BitVec.ofNat 24 x)) c ((Arrives c).used a) (.data (if bitOf ((Arrives c).view a) b then 1 else 0)))

/-- A write on a link that is up, with nothing before it and its island on, answers at once. One that names no
register of its page is recorded with cause 0x5, one to a register without a writable bit with cause 0x3, one to the
CFG area of an enabled page with cause 0x1, a narrow one with cause 0x2 and an unaligned one, which is aborted, with
cause 0xB; none of them changes the register. A CFG register of a port that is not enabled takes the bits written and
keeps the rest, parity and copies right; a change of an RV bit is recorded with cause 0x6 and stored in open mode. An
alias write changes the one bit it names. An unassigned slot and a privileged page are aborted, the second reported to
the Spillway. A link that is down carries no access. (R35, R36, R41, R45, R48, R50, R57, R61, Table 2-8, Table 2-9,
Table 2-12) -/
def Obligations.HostWritesObeyTheFieldKinds : Prop :=
  ∀ c : Core,
    let e := Arrives c
    (c.gb (hif 0x200) 0 = false → ∀ a v left, Goes (.registerWrite a v left) c { c with linkOut := [.noLink] }) ∧
    (∀ (a : BitVec 20) (v : Word) (left : Nat), a.toNat < 0x80000 → a.toNat % 4 = 0 →
      let slot := a.toNat / 0x1000
      let o := a.toNat % 0x1000
      Open c (islandOf slot) → (pageKind slot).isSome = true → privileged slot = false →
      (regRow slot o = none → Answers (.registerWrite a v left) c (e.ign a.toNat 5) .done) ∧
      (∀ r, regRow slot o = some r →
        (r.cf ||| r.ct ||| r.cn ||| r.gd = 0 → Answers (.registerWrite a v left) c (e.ign a.toNat 3) .done) ∧
        (0x40 ≤ o → o < 0x200 → r.cf ||| r.ct ≠ 0 → e.cfgLocked slot = true →
          Answers (.registerWrite a v left) c (e.ign a.toNat 1) .done) ∧
        (0x20 ≤ slot → 0x40 ≤ o → o < 0x200 → r.cf ≠ 0 → r.ct ||| r.cn ||| r.gd ||| r.cmd ||| r.zero = 0 → e.en slot = false →
          let f := if (v ^^^ e.view a.toNat) &&& r.rv = 0 then e else e.ign a.toNat 6
          let m := r.cf ||| if f.sealed then 0 else r.rv
          Answers (.registerWrite a v left) c { f.wr a.toNat ((f.voted a.toNat &&& ~~~m) ||| (v &&& m)) with
            parMis := Sparse.drop a.toNat f.parMis, ct1 := Sparse.drop a.toNat f.ct1, ct2 := Sparse.drop a.toNat f.ct2 } .done))) ∧
    (∀ (a : BitVec 20) (w : Bool), c.gb (hif 0x200) 0 = true → c.blocked = [] → c.snapping = false → a.toNat < 0x80000 →
      (pageKind (a.toNat / 0x1000) = none → Answers (.unassignedSlotAccess a w) c e .abort) ∧
      (privileged (a.toNat / 0x1000) = true → Answers (.privilegedPageAccess a w) c (e.report 147) .abort)) ∧
    (∀ x : OddAccess, x.bar2 = false → x.write = true → x.addr.toNat < 0x80000 →
      let slot := x.addr.toNat / 0x1000
      Open c (islandOf slot) → (pageKind slot).isSome = true → privileged slot = false →
      ((x.bytes = 1 ∨ x.bytes = 2 ∧ x.addr.toNat % 2 = 0) → isGrd slot (x.addr.toNat % 0x1000 / 4 * 4) = false →
        Answers (.accessWidthError x) c (e.ign x.addr.toNat 2) .done) ∧
      (x.bytes = 4 → x.addr.toNat % 4 ≠ 0 → Answers (.accessWidthError x) c (e.ign x.addr.toNat 0xB) .abort)) ∧
    (∀ (x : BitVec 24) (v : Word) (left : Nat), x.toNat % 4 = 0 →
      let a := aliasReg x.toNat
      let b := aliasBit x.toNat
      let slot := a / 0x1000
      let o := a % 0x1000
      Open c (islandOf slot) → (pageKind slot).isSome = true → privileged slot = false → isGrd slot o = false →
      ∀ r, regRow slot o = some r →
        (bitOf (r.lv ||| r.ev ||| r.hd ||| r.ro ||| r.cn) b = true → Answers (.aliasWrite x v left) c (e.ign a 3) .done) ∧
        (0x20 ≤ slot → 0x40 ≤ o → o < 0x200 → bitOf r.cf b = true → r.ct ||| r.lv ||| r.ev ||| r.cn ||| r.hd ||| r.gd ||| r.ro ||| r.cmd ||| r.zero = 0 →
          e.en slot = false → Answers (.aliasWrite x v left) c
            { e.wr a ((e.voted a &&& ~~~(bit b)) ||| (if bitOf v 0 then bit b else 0)) with
              parMis := Sparse.drop a e.parMis, ct1 := Sparse.drop a e.ct1, ct2 := Sparse.drop a e.ct2 } .done))

/-- On a link that is up, with nothing before it and its island on, a full 32-bit read answers what the register shows;
a register whose parity mismatches then sets PAR_ERR. A read of an event register clears its event fields and one of
PG_IGN_ADDR clears it; the read of the low tick or frame word latches its high word, that of GA_SEQ latches GA_OUT and
that of GA_OUT ends the latch; the reads of the bandwidth, temperature and queue peaks restart their peak. On a page
of another kind a read changes its event fields only, and one of a register without any changes nothing. A 64-bit read
of two holding registers of a port answers both; an alias read answers its bit. An aperture read of one word answers
it and clears its event fields, one of several words with no event field answers them in order, and a write of a TTI
text word stores it. (R36, R40, R42, R57, R60, R64, R71, R72, R364, Table 2-9, Table 2-12, Table 2-16) -/
def Obligations.HostReadsAnswerWhatRegistersShow : Prop :=
  ∀ c : Core,
    let e := Arrives c
    (∀ a : BitVec 20, a.toNat < 0x80000 → a.toNat % 4 = 0 →
      let slot := a.toNat / 0x1000
      let o := a.toNat % 0x1000
      Open c (islandOf slot) → (pageKind slot).isSome = true → privileged slot = false →
      (∀ i ∈ [Instr.evClearingRead a, .hldRead a false, .latchingRead a],
        Answers i c ((e.readEffect a.toNat).used a.toNat) (.data (e.view a.toNat))) ∧
      (∀ r, regRow slot o = some r →
        pageKind slot ∉ [some .lev, some .snp, some .dev, some .rsv, some .ga, some .wq] →
        e.readEffect a.toNat = if r.ev = 0 then e else e.wr a.toNat (e.rd a.toNat &&& ~~~r.ev)) ∧
      (0x20 ≤ slot → a.toNat % 8 = 0 → 0x800 ≤ o → o < 0xB00 →
        Answers (.hldRead a true) c ((e.used a.toNat).used (a.toNat + 4))
          (.bytes (le 4 (e.view a.toNat).toNat ++ le 4 (e.view (a.toNat + 4)).toNat)))) ∧
    (∀ b, (Sparse.get (fun _ => 0) e.parMis (b / 4 * 4) = 0 → e.used b = e) ∧
      (Sparse.get (fun _ => 0) e.parMis (b / 4 * 4) ≠ 0 → (e.used b).gb (pg (b / 0x1000) + 8) 9 = true)) ∧
    (∀ p : PageSlot, c.gb (hif 0x200) 0 = true → c.blocked = [] → c.snapping = false →
      (pageKind p.val).isSome = true → privileged p.val = false →
      Answers (.pgIgnAddrRead p) c ((e.wr (pg p.val + 0xC) (e.rd (pg p.val + 0xC) &&& ~~~0x1FFFF)).used (pg p.val + 0xC))
        (.data (e.view (pg p.val + 0xC)))) ∧
    (Open c 0 → Answers (.latchingRead 0x1208) c ((e.wr (lev 0x20C) (BitVec.ofNat 32 (e.tick / 2 ^ 32))).used (lev 0x208))
      (.data (BitVec.ofNat 32 e.tick))) ∧
    (Open c 2 → Answers (.latchingRead 0xE200) c ((e.wr (snp 0x204) (BitVec.ofNat 32 (e.frame / 2 ^ 32))).used (snp 0x200))
      (.data (BitVec.ofNat 32 e.frame))) ∧
    (∀ g : GaugeNo, Open c 4 →
      Answers (.latchingRead (BitVec.ofNat 20 (gaR g.val 0x1C))) c
        ((e.updGauge g.val fun x => { x with latch := some (e.rd (gaR g.val 0x20)) }).used (gaR g.val 0x1C)) (.data (e.view (gaR g.val 0x1C))) ∧
      Answers (.latchingRead (BitVec.ofNat 20 (gaR g.val 0x20))) c
        ((e.updGauge g.val fun x => { x with latch := none }).used (gaR g.val 0x20)) (.data (e.view (gaR g.val 0x20)))) ∧
    (Open c 2 → Answers .devTempPeakRead c ((e.wr (dev 0x224) (e.rd (dev 0x220))).used (dev 0x224)) (.data (e.view (dev 0x224)))) ∧
    (Open c 3 → Answers .bwPeakRead c ((e.wr (rsv 0x238) 0).used (rsv 0x238)) (.data (e.view (rsv 0x238)))) ∧
    (∀ q : QueueNo, Open c 5 →
      Answers (.wqPeakRead q) c ((e.wr (wq (0x280 + 4 * q.val)) (e.rd (wq (0x240 + 4 * q.val)))).used (wq (0x280 + 4 * q.val)))
        (.data (e.view (wq (0x280 + 4 * q.val))))) ∧
    (∀ x : BitVec 24, x.toNat % 4 = 0 →
      let slot := aliasReg x.toNat / 0x1000
      Open c (islandOf slot) → (pageKind slot).isSome = true → privileged slot = false →
      Answers (.aliasRead x) c (e.used (aliasReg x.toNat)) (.data (if bitOf (e.view (aliasReg x.toNat)) (aliasBit x.toNat) then 1 else 0))) ∧
    (Open c 3 → ∀ o : BitVec 19, o.toNat % 4 = 0 →
      (∀ q, e.apEntry o.toNat = some q → q.2.2.2.ev = 0 → Answers (.apertureAccess o (.read 1)) c e (.data (e.apView o.toNat))) ∧
      (∀ q, e.apEntry o.toNat = some q → q.2.2.2.ev ≠ 0 → Answers (.apertureAccess o (.read 1)) c
        (e.twr (tkey q.1 (e.apWord o.toNat)) (e.trd (tkey q.1 (e.apWord o.toNat)) &&& ~~~q.2.2.2.ev)) (.data (e.apView o.toNat))) ∧
      (e.apEntry o.toNat = none → Answers (.apertureAccess o (.read 1)) c e (.data 0)) ∧
      (∀ n, 3 ≤ n → o.toNat % 64 + 4 * n ≤ 64 →
        (∀ k, k < n → ∀ q, e.apEntry (o.toNat + 4 * k) = some q → q.2.2.2.ev = 0) →
        Answers (.apertureAccess o (.read n)) c e
          (.bytes (((List.range n).map fun k => e.apView (o.toNat + 4 * k)).flatMap fun v => le 4 v.toNat))) ∧
      (∀ i w v, w < 16 → e.apEntry o.toNat = some (7, i, w, { off := 0, cf := all32 }) →
        Answers (.apertureAccess o (.write [v])) c (e.twr (tti i w) v) .done))

/-- A write of EN = 1 to a stale page starts its enable scan and leaves EN as it was; EN = 0 abandons a scan. The end
of a scan that finds every CF byte of the page right corrects CT copies and enables the page; one that finds a
mismatch records it with cause 0x9, reports the page's integrity source and leaves EN = 0. A soft reset of a page
resets it and shows SOFT_BUSY, and while it shows, another is recorded with cause 0x8; its end clears SOFT_BUSY and EN
and sets STALE. A sweep that meets no flipped bit, with every byte and copy right, changes nothing; one that meets a
flipped CF bit flips it and keeps the mismatch. (R42, R43, R44, R47, R70, R464, R499, Table 2-5) -/
def Obligations.PagesEnableResetAndRepair : Prop :=
  ∀ c : Core,
    let e := Arrives c
    (∀ p : PageSlot, 0x20 ≤ p.val → Open c (islandOf p.val) →
      let a := pg p.val + 4
      (∀ v : Word, Quiet e a v → bitOf v 0 = true → bitOf v 1 = false → (Stored e a v 4).en p.val = false → p.val ∉ e.scans →
        e.stale p.val = true → Answers (.pgCtrlEnWrite p v) c { Stored e a v 4 with scans := e.scans ++ [p.val] } .done) ∧
      (∀ v : Word, Quiet e a v → bitOf v 0 = true → bitOf v 1 = false → (Stored e a v 4).en p.val = false → p.val ∉ e.scans →
        e.stale p.val = false → Answers (.pgCtrlEnWrite p v) c ((Stored e a v 4).pageOn p.val) .done) ∧
      (∀ v : Word, Quiet e a v → bitOf v 0 = false → bitOf v 1 = false → (Stored e a v 4).en p.val = false →
        Answers (.pgCtrlEnWrite p v) c { Stored e a v 4 with scans := e.scans.filter (· ≠ p.val) } .done) ∧
      (∀ v : Word, Quiet e a (v ||| 2) → bitOf v 0 = false → (Stored e a (v ||| 2) 4).gb a 8 = false → (Stored e a (v ||| 2) 4).en p.val = false →
        Answers (.softRst p v) c ({ Stored e a (v ||| 2) 4 with scans := e.scans.filter (· ≠ p.val) }.softReset p.val) .done) ∧
      (∀ v : Word, Quiet e a (v ||| 2) → bitOf v 0 = false → (Stored e a (v ||| 2) 4).gb a 8 = true → (Stored e a (v ||| 2) 4).en p.val = false →
        Answers (.softRst p v) c ({ Stored e a (v ||| 2) 4 with scans := e.scans.filter (· ≠ p.val) }.ign a 8) .done)) ∧
    (∀ p : PageSlot, p.val ∈ c.scans →
      let d := { c with scans := c.scans.filter (· ≠ p.val) }.voteRange (pg p.val + 0x40) (pg p.val + 0x200)
      (d.parBad (pg p.val + 0x40) (pg p.val + 0x200) = [] → Goes (.enableScanEnd p) c (d.pageOn p.val)) ∧
      (∀ a l, d.parBad (pg p.val + 0x40) (pg p.val + 0x200) = a :: l → Goes (.enableScanEnd p) c
        (match intSource p.val with | some k => (d.ign a 9).report k | none => d.ign a 9))) ∧
    (∀ p : PageSlot, p.val ∉ c.scans → Goes (.enableScanEnd p) c c) ∧
    (∀ p : PageSlot, 0x20 ≤ p.val → c.gb (pg p.val + 4) 8 = true → Reaches (.softRstDone p) c fun d =>
      d.gb (pg p.val + 4) 8 = false ∧ d.en p.val = false ∧ d.stale p.val = true ∧ p.val ∉ d.scans ∧
      ∀ a, a ≠ pg p.val + 4 → a ≠ pg p.val + 8 → d.rd a = c.rd a) ∧
    (∀ p : PageSlot, c.gb (pg p.val + 4) 8 = false → Goes (.softRstDone p) c c) ∧
    (c.parMis = [] → c.ct1 = [] → c.ct2 = [] → Goes (.configSweep []) c c) ∧
    (∀ u : Upset, c.parMis = [] → c.ct1 = [] → c.ct2 = [] → 0x20 ≤ u.addr.toNat / 0x1000 → c.islandUp (islandOf (u.addr.toNat / 0x1000)) = true →
      ∀ r, regRow (u.addr.toNat / 0x1000) (u.addr.toNat % 0x1000) = some r → bitOf r.cf u.bit.val = true →
      Reaches (.configSweep [u]) c fun d => d.rd u.addr.toNat = c.rd u.addr.toNat ^^^ bit u.bit.val ∧ d.parMis ≠ [] ∧
        d.gb (pg (u.addr.toNat / 0x1000) + 8) 9 = true)

/-- GRD_TGT opens a page's sequence at the current tick, GRD_VAL keeps its value; GRD_CPL with the value's complement,
within 1,024 ticks, while the Warden is FAILED and the target has eligible bits, writes those bits and raises DONE. A
complement that differs, a Warden that is not FAILED and a target without eligible bits discard the sequence with REJ
4, 1 and 2 and a record of the write; a step out of order discards it with REJ 3; a sequence 1,024 ticks old expires
with REJ 5. Other pages are unchanged. (R52, R53, R54, R55, R56, R424, Table 2-11) -/
def Obligations.TheGuardedFallbackTakesThreeWrites : Prop :=
  ∀ (c : Core) (p : PageSlot), 0x20 ≤ p.val →
    let e := Arrives c
    let st := pg p.val + 0x3C
    let drop (d : Core) (off cause : Nat) : Core := (({ d with grd := none } : Core).sf st 0 2 0).grdRej p.val off cause
    (Open c (islandOf p.val) →
      (∀ v : Word, Quiet e (pg p.val + 0x30) v → c.grd = none →
        Answers (.grdTgtWrite p v) c (({ Stored e (pg p.val + 0x30) v 0xFFC with grd := some (p.val, e.tick) } : Core).sf st 0 2 1) .done) ∧
      (∀ v : Word, e.grdAt p.val 1 = true →
        Answers (.grdValWrite p v) c (({ e with grdVal := v } : Core).sf st 0 2 2) .done) ∧
      (∀ v : Word, e.grdAt p.val 2 = true → Answers (.grdValWrite p v) c (drop e 0x34 3) .done) ∧
      (∀ (v : Word) (q : Nat × Nat) (r : Row), e.grd = some q → q.1 = p.val → e.gf st 0 2 = 2 →
        let off := e.gf (pg p.val + 0x30) 2 10 * 4
        regRow p.val off = some r →
        (e.tick < q.2 + 1024 → e.wState = 4 → r.elig ≠ 0 → v = ~~~e.grdVal → Answers (.grdCplWrite p v) c
          ((((({ e with grd := none } : Core).sf st 0 2 0).guardSet p.val off e.grdVal (e.grdMask r e.grdVal) 8 false).1).ev st (bit 2)) .done) ∧
        (e.tick < q.2 + 1024 → e.wState = 4 → r.elig ≠ 0 → v ≠ ~~~e.grdVal → Answers (.grdCplWrite p v) c (drop e 0x38 4) .done) ∧
        (e.tick < q.2 + 1024 → e.wState ≠ 4 → Answers (.grdCplWrite p v) c (drop e 0x38 1) .done) ∧
        (e.tick < q.2 + 1024 → e.wState = 4 → r.elig = 0 → Answers (.grdCplWrite p v) c (drop e 0x38 2) .done) ∧
        (q.2 + 1024 ≤ e.tick → Answers (.grdCplWrite p v) c (drop e 0x38 5) .done))) ∧
    (∀ t, c.grd = some (p.val, t) →
      (t + 1024 ≤ c.tick → Goes .grdSequenceExpire c (drop c 0x30 5)) ∧
      (c.tick < t + 1024 → Goes .grdSequenceExpire c c))

/-- With SNP enabled and D06 running, SNAP_ALL asks for the next boundary, or the one after within 8 cycles of it, and
ARM for its target where that lies ahead; each shows BUSY. A request that cannot be served is missed, with its event
and count, and shows BUSY while it is looked at; a command while BUSY is recorded with cause 0x8; CANCEL shows its own
busy bit and, more than 8 cycles before the boundary, withdraws; a second CANCEL meanwhile is recorded. A capture keeps
every counter of a powered page as it stands and starts it from its reset value. The copy moves what was captured into
the holding registers, the others of the HLD areas at their reset values, and shows the frame; every other register
keeps its value but for the SNP page. The generation then rises by one with its event. A request pending when SNP or
D06 stops is withdrawn as missed. (R62, R63, R64, R66, R69, R500, Table 2-14) -/
def Obligations.SnapshotsAreRequestedAndTaken : Prop :=
  ∀ c : Core,
    let e := Arrives c
    let miss (d : Core) : Core := (d.ev (snp 0x400) (bit 1)).cn (snp 0x504) 1
    let tgt : Nat := (e.rd (snp 0xB04)).toNat + (e.rd (snp 0xB08)).toNat * 2 ^ 32
    let put (v : Word) : Core := Stored e (snp 0xB00) v 0
    (Open c 2 → Quiet e (snp 0xB00) 0 → e.snpS.req = none → (∀ v, (put v).gb (snp 0xB00) 8 = false) →
      (e.en 0xE = true → e.d06 = true → ∀ left, Answers (.snapAll left) c
        ({ put 1 with snpS := { e.snpS with req := some (1, e.frame + (if left < 8 then 2 else 1)) } }.sb (snp 0xB00) 8 true) .done) ∧
      (e.en 0xE = true → e.d06 = true → e.frame < tgt → Answers .snapArm c
        ({ put 2 with snpS := { e.snpS with req := some (2, tgt) } }.sb (snp 0xB00) 8 true) .done) ∧
      (e.en 0xE = true → e.d06 = true → tgt ≤ e.frame → Answers .snapArm c (miss (put 2)) .done) ∧
      (e.en 0xE = false ∨ e.d06 = false → ∀ left,
        Answers (.snapAll left) c ((miss (put 1)).sb (snp 0xB00) 8 true) .done ∧
        Answers .snapArm c ((miss (put 2)).sb (snp 0xB00) 8 true) .done)) ∧
    (Open c 2 → Quiet e (snp 0xB00) 0 → (∀ v, (put v).gb (snp 0xB00) 8 = true) → ∀ left,
      Answers (.snapAll left) c ((put 1).ign (snp 0xB00) 8) .done ∧ Answers .snapArm c ((put 2).ign (snp 0xB00) 8) .done) ∧
    (Open c 2 → Quiet e (snp 0xB00) 0 → (put 4).gb (snp 0xB00) 9 = false → ∀ left,
      let d := (put 4).sb (snp 0xB00) 9 true
      (e.snpS.req = none → Answers (.snapCancel left) c d .done) ∧
      (∀ q, e.snpS.req = some q → e.frame + 1 < q.2 →
        Answers (.snapCancel left) c ({ d with snpS := { e.snpS with req := none } }.sb (snp 0xB00) 8 false) .done) ∧
      (∀ q, e.snpS.req = some q → q.2 = e.frame + 1 → 8 ≤ left →
        Answers (.snapCancel left) c ({ d with snpS := { e.snpS with req := none } }.sb (snp 0xB00) 8 false) .done) ∧
      (∀ q, e.snpS.req = some q → q.2 = e.frame + 1 → left < 8 → Answers (.snapCancel left) c d .done)) ∧
    (Open c 2 → Quiet e (snp 0xB00) 0 → (put 4).gb (snp 0xB00) 9 = true → ∀ left,
      Answers (.snapCancel left) c ((put 4).ign (snp 0xB00) 8) .done) ∧
    (∀ src merged,
      let d := c.capture src merged
      (∀ a, c.counts a = true → d.rd a = regReset a) ∧
      (∃ q, d.snpS.sel = some q ∧ q.source = src ∧ q.merged = merged ∧ q.cnt = c.regs.filter fun r => c.counts r.1) ∧
      d.bank = !c.bank ∧ d.tbl = c.tbl ∧ d.frame = c.frame) ∧
    (c.snpS.sel = none → Goes .snapshot c c) ∧
    (∀ q, c.snpS.sel = some q → (q.cnt.map (·.1)).Nodup → (∀ r ∈ q.cnt, r.1 / 0x1000 ∈ pageSlots ∧ 0x500 ≤ r.1 % 0x1000 ∧ r.1 % 0x1000 < 0x800) →
      Reaches .snapshot c fun d =>
        d.snpS = { c.snpS with sel := none, copied := true } ∧
        (∀ r ∈ q.cnt, d.rd (r.1 + 0x300) = r.2) ∧
        (∀ slot o, slot ∈ pageSlots → 0x800 ≤ o → o < 0xB00 → (∀ r ∈ q.cnt, r.1 + 0x300 ≠ pg slot + o) →
          d.rd (pg slot + o) = regReset (pg slot + o)) ∧
        (∀ slot o, slot < 0x80 → slot ≠ 0xE → o < 0x800 ∨ 0xB00 ≤ o ∧ o < 0x1000 → d.rd (pg slot + o) = c.rd (pg slot + o)) ∧
        d.rd (snp 0x208) = BitVec.ofNat 32 c.frame ∧ d.tbl = c.tbl ∧ d.frame = c.frame) ∧
    (c.snpS.copied = true → c.blocked = [] → c.snpS.req = none → Goes .snapGenIncrement c
      ({ (((({ c with snpS := { c.snpS with copied := false } }.wr (snp 0x10) (c.rd (snp 0x10) + 1)).ev (snp 0x400) (bit 0)).sb
        (snp 0xB00) 8 false)) with linkOut := [] }.msi)) ∧
    (c.snpS.copied = false → c.blocked = [] → Goes .snapGenIncrement c ({ c with linkOut := [] } : Core).msi) ∧
    (∀ q, c.snpS.req = some q → c.d06 = false ∨ c.en 0xE = false → Goes .snapRequestWithdraw c
      ((miss { c with snpS := { c.snpS with req := none } }).sb (snp 0xB00) 8 false)) ∧
    (c.snpS.req = none → Goes .snapRequestWithdraw c c)

/-- On a port that has left OFF and whose filter has run 64 ticks against the shown value, ENERGY_UP sets ENERGY and
ENERGY_DOWN clears it (a port in internal loopback keeps it) and, in SENSE or a later state, marks the fall for the
next boundary; the filter starts again and the LEV event bit of the lane is set; while the bank is up the port page's
own event bit (0 for up, 1 for down) is set too. Before the 64 ticks, in OFF, and with ENERGY as it is already,
nothing changes. (R82, R83, R86) -/
def Obligations.EnergyFollowsItsFilter : Prop :=
  ∀ (c : Core) (p : Port),
    let on (v : Bool) : Core := ((c.setEnergy p.val v).updPort p.val fun x =>
      { x with eFilt := 0, fell := x.fell || (!v && decide (2 ≤ c.pst p.val)) }).ev (lev (0x408 + 4 * (p.val / 32))) (bit (p.val % 32))
    ((c.port p.val).live = true → 64 ≤ (c.port p.val).eFilt →
      (c.energy p.val = false → c.bankOn (p.val / 16) = false → Goes (.energyUp p) c (on true)) ∧
      (c.energy p.val = false → c.bankOn (p.val / 16) = true → Goes (.energyUp p) c ((on true).ev (pe p.val 0x408) (bit 0))) ∧
      (c.energy p.val = true → c.loopInt p.val = false → c.bankOn (p.val / 16) = false → Goes (.energyDown p) c (on false)) ∧
      (c.energy p.val = true → c.loopInt p.val = false → c.bankOn (p.val / 16) = true →
        Goes (.energyDown p) c ((on false).ev (pe p.val 0x408) (bit 1)))) ∧
    ((c.port p.val).live = false ∨ (c.port p.val).eFilt < 64 → Goes (.energyUp p) c c ∧ Goes (.energyDown p) c c) ∧
    (c.energy p.val = true → Goes (.energyUp p) c c) ∧ (c.energy p.val = false ∨ c.loopInt p.val = true → Goes (.energyDown p) c c) ∧
    ∀ v, (on v).energy p.val = v

/-- The estimate of a sweep that has run 8 frames shows the rate code within ±2 % of the transitions counted, and starts
the first attempt of the sweep's order. An attempt with a lock, within its 160 frames, that has seen the framing
pattern three times in succession at exactly the frame distance of its rate, after RX_INV or, with POL_AUTO, its
complement, records its result for the next boundary: at an SDH-family rate the client that eight equal SS values give
(10 SDH, 00 SONET), at an OTU rate a provisional one. An attempt that has run 160 frames without success goes on with
the next rate or, with none left, fails the sweep; a failed sweep is repeated after 2,000 frames while ENERGY is 1; a
forced format locks, with CDR_LOCK, at its own rate and client. Nothing else changes. (R88, R90, R91, R92, R93, R94,
R96) -/
def Obligations.SensingRunsItsAttempts : Prop :=
  ∀ (c : Core) (p : Port),
    (∀ n k : Nat, (c.port p.val).stage = .estimate k → 8 ≤ k →
      let e := classify (2 * n)
      Goes (.rateEstimateEnd p n) c ((c.sf (pe p.val 0x208) 9 3 e).nextAttempt p.val (c.sweepOrder p.val e))) ∧
    (∀ r kbps : Nat, 1 ≤ r → r ≤ 6 → 50 * (rateKbps r - kbps) ≤ kbps → 50 * (kbps - rateKbps r) ≤ kbps → classify kbps = r) ∧
    (∀ (r n : Nat) (l : List Nat) (a : Attempt) (pos : Nat) (comp : Bool), (c.port p.val).stage = .attempt r n l → n ≤ 160 →
      (c.port p.val).locked = true → c.gb (pe p.val 0x200) 5 = true → (comp = true → c.gb (pe p.val 0x44) 8 = true) →
      (let w : BitVec 48 := if c.gb (pe p.val 0x40) 0 != comp then ~~~framePattern else framePattern
       a.hits = [(pos, w), (pos + 8 * lineLen r, w), (pos + 2 * (8 * lineLen r), w)]) →
      let got (cl : Nat) (prov : Bool) : Core := c.updPort p.val fun x => { x with
        stage := .none, found := some { rate := r, client := cl, prov := prov, inv := comp, pos := some (pos % (8 * lineLen r)) } }
      (∀ sonet : Bool, isOtu r = false → a.ss = List.replicate 8 (if sonet then 0 else 2) →
        Goes (.rateAttemptSuccess p a) c (got (if sonet then 2 else 1) false)) ∧
      (isOtu r = true → c.gf (pe p.val 0x44) 6 2 ≠ 1 → Goes (.rateAttemptSuccess p a) c (got 1 true)) ∧
      (isOtu r = true → c.gf (pe p.val 0x44) 6 2 = 1 → Goes (.rateAttemptSuccess p a) c (got 2 true))) ∧
    (∀ a, c.gb (pe p.val 0x200) 5 = false ∨ (c.port p.val).locked = false → Goes (.rateAttemptSuccess p a) c c) ∧
    (∀ (r n r' : Nat) (l : List Nat), (c.port p.val).stage = .attempt r n (r' :: l) → 160 ≤ n →
      Goes (.rateAttemptFail p) c (((((c.sb (pe p.val 0x200) 5 false).updPort p.val fun x =>
        { x with stage := .attempt r' 0 l, locked := false }).sb (pe p.val 0x200) 5 false).sf (pe p.val 0x200) 12 3 r'))) ∧
    (∀ (r n : Nat), (c.port p.val).stage = .attempt r n [] → 160 ≤ n →
      Goes (.rateAttemptFail p) c ((c.sb (pe p.val 0x200) 5 false).sweepFail p.val)) ∧
    ((c.port p.val).stage = .wait → 2000 ≤ c.gf (pe p.val 0x200) 16 12 → c.energy p.val = true →
      Goes (.sweepRetry p) c (c.startSense p.val)) ∧
    ((c.port p.val).stage = .forced → c.fmtOk p.val = true → c.gb (pe p.val 0x200) 5 = true →
      Goes (.forcedFormatLock p) c (c.updPort p.val fun x => { x with
        stage := .none, found := some { rate := c.gf (pe p.val 0x48) 1 3, client := c.gf (pe p.val 0x48) 4 2, prov := false,
                                        inv := false, pos := none } })) ∧
    (c.gb (pe p.val 0x200) 5 = false → Goes (.forcedFormatLock p) c c)

/-- A port that does not run from PE_FMT and has been RESENSE × 8 frames in HUNT or PRESYNC without a lock goes back to
SENSE with its event bit 6, and before that stays; an OTU port with a provisional client whose carried STM-N has been
in frame for 8 frames, and is, resolves it to SDH or SONET from its last eight SS values, which the row names, with its event bit 7; a CDR
that loses lock clears CDR_LOCK in both pages and, with ENERGY 1, counts, and in line loopback its lane goes idle; an
elastic-store slip re-centres the store and counts. Nothing else changes. (R80, R92, R97, R100, R498, Table 18-6) -/
def Obligations.AlignedPortsKeepTheirFormat : Prop :=
  ∀ (c : Core) (p : Port),
    (∀ n, c.gf (pe p.val 0x44) 16 8 = n → (c.pst p.val = 3 ∨ c.pst p.val = 4) → c.forced p.val = false →
      (n ≠ 0 → 8 * n ≤ (c.port p.val).huntF → (c.port p.val).fr.lock = none → Reaches (.resense p) c fun d =>
        d = ((((c.abandon p.val).sf (pe p.val 0x200) 0 3 2).ev (pe p.val 0x408) (bit 6)).startSense p.val) ∧
        d.pst p.val = 2 ∧ d.gb (pe p.val 0x408) 6 = true ∧ (d.port p.val).fr.lock = none ∧ (d.port p.val).huntF = 0) ∧
      (n = 0 ∨ (c.port p.val).huntF < 8 * n ∨ (c.port p.val).fr.lock ≠ none → Goes (.resense p) c c)) ∧
    (∀ sonet : Bool, isOtu (c.rate p.val) = true → c.gb (pe p.val 0x208) 6 = true → 8 ≤ (c.port p.val).clientF →
      (c.port p.val).cl.lock.isSome = true → (c.port p.val).clientSs.take 8 = List.replicate 8 (if sonet then 0 else 2) →
      Goes (.clientSet p ((c.port p.val).clientSs.take 8)) c
        (((c.sf (pe p.val 0x208) 4 2 (if sonet then 2 else 1)).sb (pe p.val 0x208) 6 false).ev (pe p.val 0x408) (bit 7))) ∧
    ((c.port p.val).clientF < 8 ∨ (c.port p.val).cl.lock = none ∨ c.gb (pe p.val 0x208) 6 = false →
      Goes (.clientSet p ((c.port p.val).clientSs.take 8)) c c) ∧
    (∀ ss, ss ≠ (c.port p.val).clientSs.take 8 → Goes (.clientSet p ss) c c) ∧
    (c.gb (pe p.val 0x200) 5 = true →
      let d := (c.sb (pe p.val 0x200) 5 false).sb (bk (p.val / 16) 0x208) (p.val % 16) false
      let f (d : Core) : Core := let g := d.ev (bk (p.val / 16) 0x400) (bit 2); if g.energy p.val then g.cn (bk (p.val / 16) 0x510) 1 else g
      ((d.en (0x20 + p.val) && d.gf (pe p.val 0x40) 2 2 = 3) = false → Goes (.cdrLoss p) c (f d)) ∧
      ((d.en (0x20 + p.val) && d.gf (pe p.val 0x40) 2 2 = 3) = true →
        Goes (.cdrLoss p) c (f ((d.sb (pe p.val 0x200) 6 false).sb (bk (p.val / 16) 0x204) (p.val % 16) false)))) ∧
    (c.gb (pe p.val 0x200) 5 = false → Goes (.cdrLoss p) c c) ∧
    Goes (.esSlip p) c
      (((c.wr (bk (p.val / 16) (0x240 + 4 * (p.val % 16))) 0).ev (bk (p.val / 16) 0x400) (bit 1)).cn (bk (p.val / 16) 0x50C) 1)

/-- While a framer runs and is not aligned: the pattern, compared in its 48 bits at each candidate's position after the
inversions of the line, drives the candidates, and the hunt cycle counts the line frame; of a hunting OTU frame the
MFAS is kept as the value before the first of SYNC. The carried STM-N is taken from the demapped stream, one frame
length at a time; with less than that nothing happens. A detection at a new position of the frame that is not excluded
and shows the pattern is a candidate with count 1, unless there are eight; one that does not show it is none. The
first candidate that reached IF_N is taken as SYNC with a probation of 32 line frames and no candidate and no
exclusion left, and multiframe values recorded before count no more against it; a cycle of 64 line frames clears the
exclusions. A framer that does not run is left alone. Nothing else changes. (R103, R104, R109, R110, R111, R112, R114,
R120, R125, R126) -/
def Obligations.HuntingFindsAPosition : Prop :=
  ∀ (c : Core) (p : Port) (cl : Bool), (c.framer p.val cl).lock = none →
    let checks (li : LineIn) : List (Nat × Bool) :=
      li.checks.map fun k => (k.pos, decide (c.bitsAt p.val cl k = if !cl && c.rxInv p.val then ~~~framePattern else framePattern))
    let hunt (d : Core) (li : LineIn) : Core := d.updFramer p.val cl fun f =>
      { ((checks li).foldl (fun f k => Framer.check (c.ifN p.val) f k.1 k.2) f) with cyc := f.cyc + 1 }
    (c.framerOn p.val cl = true →
      (cl = false → ∀ li : LineIn, Goes (.lineFrame p cl li) c
        ((hunt (c.heardLine p.val li).1 li).firstMfas p.val cl (invert (c.rxInv p.val) (c.heardLine p.val li).2))) ∧
      (cl = true → ∀ (li : LineIn) (fr : List Byte) (rest : List Bool), c.clientFrame p.val = some (fr, rest) →
        Goes (.lineFrame p cl li) c ((hunt c li).updPort p.val fun x => { x with client := rest })) ∧
      (cl = true → c.clientFrame p.val = none → ∀ li, Goes (.lineFrame p cl li) c c) ∧
      (∀ k : PatCheck, k.pos < c.frameBits p.val cl → (c.framer p.val cl).cands.any (fun q => q.1 = k.pos) = false →
        (c.framer p.val cl).excl.contains k.pos = false → (c.framer p.val cl).cands.length < 8 → c.ifN p.val ≠ 1 →
        (c.bitsAt p.val cl k = (if !cl && c.rxInv p.val then ~~~framePattern else framePattern) →
          Goes (.detection p cl k) c (c.updFramer p.val cl fun f => { f with cands := f.cands ++ [(k.pos, 1)] })) ∧
        (c.bitsAt p.val cl k ≠ (if !cl && c.rxInv p.val then ~~~framePattern else framePattern) →
          Goes (.detection p cl k) c c)) ∧
      (∀ q : Nat, (c.framer p.val cl).ready = some q → (c.onPort p.val).filter (fun k => isPath (k / 4)) = [] →
        let d := c.updFramer p.val cl fun f => { f with
          lock := some q, ready := none, cands := [], excl := [], cyc := 0, errRun := 0, prob := 32, fresh := true }
        Goes (.candidateConfirm p cl) c
          (if cl then d else d.updPort p.val fun x => { x with mfas := { x.mfas with bad := 0, failed := false } })) ∧
      (∀ q : Nat, (c.framer p.val cl).ready = some q → Reaches (.candidateConfirm p cl) c fun d =>
        (d.framer p.val cl).lock = some q ∧ (d.framer p.val cl).prob = 32 ∧ (d.framer p.val cl).excl = [] ∧ d.regs = c.regs) ∧
      (64 ≤ (c.framer p.val cl).cyc →
        Goes (.huntCycleEnd p cl) c (c.updFramer p.val cl fun f => { f with excl := [], cyc := 0 })) ∧
      ((c.framer p.val cl).cyc < 64 → Goes (.huntCycleEnd p cl) c c)) ∧
    (c.framerOn p.val cl = false → ∀ (li : LineIn) (k : PatCheck), Goes (.lineFrame p cl li) c c ∧ Goes (.detection p cl k) c c ∧
      Goes (.candidateConfirm p cl) c c ∧ Goes (.huntCycleEnd p cl) c c)

/-- An aligned framer whose error run has reached OOF_N returns to HUNT: after probation by OOF, with no exclusion; in
probation as a false lock, its position joining the exclusion list. The lock is gone and the exit is counted on the
framer. (R112, R113, R115, R116, R120, R126) -/
def Obligations.AlignedFramerLeavesSync : Prop :=
  ∀ (c : Core) (p : Port) (cl : Bool) (pos : Nat), (c.framer p.val cl).lock = some pos →
    c.oofN p.val ≤ (c.framer p.val cl).errRun →
    ((c.framer p.val cl).prob = 0 → Goes (.oof p cl) c (c.leaveSync p.val cl none)) ∧
    (0 < (c.framer p.val cl).prob → Goes (.falseLock p cl) c (c.leaveSync p.val cl (some pos))) ∧
    (∀ e : Option Nat, ((c.leaveSync p.val cl e).framer p.val cl).lock = none ∧
      ((c.leaveSync p.val cl e).framer p.val cl).exits = (c.framer p.val cl).exits + 1)

/-- LOF (C_LOF for the carried STM-N) is declared once the framer has been out of frame LOF_SET frames and cleared
once in frame LOF_CLR frames; OTU LOM and TU-LOM are declared once the multiframe has been out for MF_LOM frames and
cleared once throughout in for MF_LOM. Declaring and clearing change the defect's mark and the reporting that follows
from it (R153), and nothing else. (R117, R121, R126, R131, R153) -/
def Obligations.AlignmentDefectsFollowTheirRuns : Prop :=
  ∀ (c : Core) (p : Port) (o : ObjRef),
    (∀ cl : Bool, let d := if cl then Defect.cLof else Defect.lof
      ((c.port p.val).present.contains d = false → c.lofSet p.val ≤ (c.framer p.val cl).outRun →
        Goes (.lofDeclare p cl) c (c.setDefect (.port p) d true)) ∧
      ((c.port p.val).present.contains d = true → c.lofClr p.val ≤ (c.framer p.val cl).inRun →
        Goes (.lofClear p cl) c (c.setDefect (.port p) d false))) ∧
    (isOtu (c.rate p.val) = true → (c.port p.val).present.contains .otuLom = false →
      c.mfLom p.val ≤ (c.port p.val).mfas.oomF → Goes (.otuLomDeclare p) c (c.setDefect (.port p) .otuLom true)) ∧
    ((c.port p.val).present.contains .otuLom = true → c.mfLom p.val ≤ (c.port p.val).mfas.mfF →
      Goes (.otuLomClear p) c (c.setDefect (.port p) .otuLom false)) ∧
    ((c.obj o.key).svc = true → c.hasH4 o.key = true → (c.obj o.key).present.contains .tuLom = false →
      c.mfLom (c.portOf o.idx.val) ≤ (c.obj o.key).h4.oomF → Goes (.tuLomDeclare o) c (c.setDefect (.obj o) .tuLom true)) ∧
    ((c.obj o.key).present.contains .tuLom = true → c.mfLom (c.portOf o.idx.val) ≤ (c.obj o.key).h4.mfF →
      Goes (.tuLomClear o) c (c.setDefect (.obj o) .tuLom false))

/-- MFAS alignment is gained on an aligned OTU framer after MF_IF_N values in a row that follow the one before, its
expected value then being the one after the last received, and is lost after MF_OOM_N wrong ones in a row; with fewer
nothing changes. A value is counted as the one expected, or as the one after the last received, or as an error. The H4
alignment of a Path with TU-structured payload and its pointer in NORM likewise, with the two-bit phase, shown in
H4_STATE of the Path's entry and of the entries in it; it is also lost with the pointer out of NORM. Nothing else
changes. (R120, R129, R130) -/
def Obligations.MultiframesAlign : Prop :=
  ∀ (c : Core) (p : Port) (o : ObjRef),
    let x := (c.port p.val).mfas
    let y := (c.obj o.key).h4
    let q := c.portOf o.idx.val
    let out (m : Multi) : Multi := { m with inMf := false, run := 0, bad := 0, thru := false }
    ((c.port p.val).fr.lock.isSome = true → x.inMf = false → c.mfIfN p.val ≤ x.run → ∀ l, x.last = some l →
      Goes (.mfasAlign p) c (c.updPort p.val fun z => { z with
        mfas := { x with inMf := true, run := 0, bad := 0, thru := false, want := (l + 1) % 256 } })) ∧
    ((c.port p.val).fr.lock = none ∨ x.inMf = true ∨ x.run < c.mfIfN p.val → Goes (.mfasAlign p) c c) ∧
    (x.inMf = true → c.mfOomN p.val ≤ x.bad → Goes (.mfasOom p) c (c.updPort p.val fun z => { z with mfas := out x })) ∧
    (x.inMf = false ∨ x.bad < c.mfOomN p.val → Goes (.mfasOom p) c c) ∧
    ((c.obj o.key).svc = true → c.hasH4 o.key = true → (c.obj o.key).itp = .norm → y.inMf = false → c.mfIfN q ≤ y.run →
      ∀ l, y.last = some l → Goes (.h4MfAlign o) c ((c.updObj o.key fun z => { z with
        h4 := { y with inMf := true, run := 0, bad := 0, thru := false, want := (l + 1) % 4 } }).showH4 o.key)) ∧
    (c.hasH4 o.key = false ∨ y.inMf = true ∨ y.run < c.mfIfN q → Goes (.h4MfAlign o) c c) ∧
    (y.inMf = true → c.mfOomN q ≤ y.bad ∨ (c.obj o.key).itp ≠ .norm →
      Goes (.h4MfOom o) c ((c.updObj o.key fun z => { z with h4 := out y }).showH4 o.key)) ∧
    (y.inMf = false ∨ (y.bad < c.mfOomN q ∧ (c.obj o.key).itp = .norm) → Goes (.h4MfOom o) c c) ∧
    (∀ (m n v l : Nat) (z : Multi), z.last = some l →
      (z.value m n v).last = some v ∧ (z.value m n v).inMf = z.inMf ∧ (z.value m n v).want = (z.want + 1) % m ∧
      (z.inMf = true → (z.value m n v).bad = if v = z.want then 0 else z.bad + 1) ∧
      (z.inMf = false → (z.value m n v).run = if v = (l + 1) % m then z.run + 1 else 0))

/-- The monitor of a received VC-12 in NORM with its enable set shows what its own machine has reached. SEARCH goes to
BASIC once the machine holds basic frame alignment; BASIC and NO-CRC4 go to CRC4 once it holds CRC-4 multiframe
alignment; BASIC goes to NO-CRC4 once 8 ms have passed without it; each of the three goes to SEARCH once basic
alignment has been lost, and CRC4 once CRC-4 alignment has. Otherwise nothing changes. In the machine the third errored
FAS in a row loses basic alignment; in CRC4 as many errored blocks among the last 1,000 as the threshold lose CRC-4
alignment; the 64th frame of basic alignment without a multiframe alignment signal gives NO-CRC4. The new state is
shown in W6 [19:17] of the entry. (R132, R133, R134, R135) -/
def Obligations.E1MonitorMoves : Prop :=
  ∀ (c : Core) (i : TribIdx),
    let x := c.obj (okey i.val 0)
    let go (d : Core) (st : E1St) (code : Nat) : Core :=
      (d.updObj (okey i.val 0) fun z => { z with e1 := st }).tsf (trib i.val 6) 17 3 code
    let lost : Core := c.updObj (okey i.val 0) fun z => { z with e1rx := { z.e1rx with lostFas := false, lostCrc := false } }
    (c.e1On i.val = true →
      (x.e1 = .search → x.e1rx.st = .basic ∨ x.e1rx.st = .noCrc4 ∨ x.e1rx.st = .crc4 → Goes (.e1BasicAlign i) c (go c .basic 2)) ∧
      (x.e1 ≠ .search ∨ x.e1rx.st = .search → Goes (.e1BasicAlign i) c c) ∧
      (x.e1 = .basic ∨ x.e1 = .noCrc4 → x.e1rx.st = .crc4 → Goes (.e1Crc4Align i) c (go c .crc4 4)) ∧
      (x.e1rx.st ≠ .crc4 → Goes (.e1Crc4Align i) c c) ∧
      (x.e1 = .basic → x.e1rx.st = .noCrc4 → Goes (.noCrc4 i) c (go c .noCrc4 3)) ∧
      (x.e1 ≠ .basic ∨ x.e1rx.st ≠ .noCrc4 → Goes (.noCrc4 i) c c) ∧
      (x.e1 = .basic ∨ x.e1 = .noCrc4 ∨ x.e1 = .crc4 → x.e1rx.lostFas = true → Goes (.e1BasicLoss i) c (go lost .search 1)) ∧
      (x.e1rx.lostFas = false → Goes (.e1BasicLoss i) c c) ∧
      (x.e1 = .crc4 → x.e1rx.lostCrc = true → Goes (.e1Crc4Loss i) c (go lost .search 1)) ∧
      (x.e1 ≠ .crc4 ∨ x.e1rx.lostCrc = false → Goes (.e1Crc4Loss i) c c)) ∧
    (c.e1On i.val = false → ∀ j ∈ [Instr.e1BasicAlign i, .e1Crc4Align i, .noCrc4 i, .e1BasicLoss i, .e1Crc4Loss i], Goes j c c) ∧
    (∀ (thr : Nat) (y : E1Rx) (fr : List Bool),
      (y.odd = false → isFas (fr.take 8) = false → y.errs = 2 → (y.frame thr fr).st = .search ∧ (y.frame thr fr).lostFas = true) ∧
      ((y.odd = true ∧ y.errs < 3) ∨ (y.odd = false ∧ isFas (fr.take 8) = true) → y.st = .crc4 →
        thr ≤ (y.crcFrame fr).blocks.countP id → (y.frame thr fr).st = .search ∧ (y.frame thr fr).lostCrc = true) ∧
      (y.odd = false → isFas (fr.take 8) = true → y.st = .basic → y.age = 63 → (y.frame thr fr).st = .noCrc4))

/-- A trace whose last TTI_ACC periods were identical, on an aligned port (J0, SM on an OTU port) or an object in
service with a receive buffer, becomes ACCEPTED of its TTI entry, the bytes beyond its length zero; the change event is
set if they differ from the ones accepted before, and with its TIM enable set the comparison with VALUE is kept for the
TIM detection. With fewer periods, or where the row names another trace than the last received, nothing changes. (R147, R148, R149, R185) -/
def Obligations.TracesAreAccepted : Prop :=
  ∀ (c : Core) (p : Port) (o : ObjRef),
    (let x := (c.port p.val).j0;
      (max 3 (c.gf (pe p.val 0x54) 8 4) ≤ x.run → 5 ≤ c.pst p.val →
        let d := c.setAccepted p.val x.last
        let e := if c.ttiBytes p.val 64 64 = x.last ++ List.replicate (64 - x.last.length) 0 then d else d.peEv p.val (bit 25)
        Goes (.ttiAccept (.j0 p) x.last) c
          (e.updPort p.val fun y => { y with j0Bad := e.gb (pe p.val 0x54) 0 && e.ttiBad p.val none x.last.length })) ∧
      (x.run < max 3 (c.gf (pe p.val 0x54) 8 4) ∨ c.pst p.val < 5 → Goes (.ttiAccept (.j0 p) x.last) c c)) ∧
    (let x := (c.port p.val).sm;
      (max 3 (c.gf (pe p.val 0x54) 8 4) ≤ x.run → isOtu (c.rate p.val) = true → 5 ≤ c.pst p.val →
        let d := c.setAccepted (192 + p.val) x.last
        let e := if c.ttiBytes (192 + p.val) 64 64 = x.last then d else d.peEv p.val (bit 26)
        Goes (.ttiAccept (.sm p) x.last) c (e.updPort p.val fun y =>
          { y with smBad := e.gb (pe p.val 0x54) 4 && e.ttiBad (192 + p.val) (some (e.gf (pe p.val 0x54) 5 2)) 64 })) ∧
      (x.run < max 3 (c.gf (pe p.val 0x54) 8 4) ∨ isOtu (c.rate p.val) = false ∨ c.pst p.val < 5 →
        Goes (.ttiAccept (.sm p) x.last) c c)) ∧
    (∀ t : Nat, c.rxBuf o = some t →
      let x := (c.obj o.key).rx.trace
      let acc := max 3 (c.gf (pe (c.portOf o.idx.val) 0x54) 8 4)
      (acc ≤ x.run → (c.obj o.key).svc = true →
        let d := c.setAccepted t x.last
        let b := if d.ttype o.idx.val = 2 ∧ isPath o.idx.val = true then bit 28 else bit 10
        let e := if c.ttiBytes t 64 64 = x.last ++ List.replicate (64 - x.last.length) 0 then d else d.tev (trib o.idx.val 6) b
        Goes (.ttiAccept (.path o) x.last) c (e.updObj o.key fun y =>
          { y with timBad := bitOf (e.trc (trib o.idx.val 0)) 14 && e.ttiBad t none x.last.length })) ∧
      (x.run < acc ∨ (c.obj o.key).svc = false → Goes (.ttiAccept (.path o) x.last) c c)) ∧
    (c.rxBuf o = none → ∀ bs, Goes (.ttiAccept (.path o) bs) c c) ∧
    (∀ (t : Trace) (bs : List Byte), bs ≠ c.traceHeard t → Goes (.ttiAccept t bs) c c) ∧
    (∀ (t : Nat) (bs : List Byte), bs.length ≤ 64 →
      (c.setAccepted t bs).ttiBytes t 64 64 = bs ++ List.replicate (64 - bs.length) 0)

/-- An SSM received for S1_ACC frames is shown as accepted and valid, a K1/K2 pair received for K_ACC frames as
accepted (on a port that is no PPORT), and a signal label received in five blocks as accepted; each sets its change
event if the accepted value changed. Nothing else changes. (R151, R152, section 5.5) -/
def Obligations.OverheadValuesAreAccepted : Prop :=
  ∀ (c : Core) (p : Port) (o : ObjRef),
    (max 3 (c.gf (pe p.val 0x50) 11 4) ≤ (c.port p.val).sRun →
      let old := c.rd (pe p.val 0x214)
      let d := c.wr (pe p.val 0x214) (setFld (setFld old 4 4 (c.port p.val).sVal.toNat) 8 1 1)
      Goes (.ssmAccept p) c (if fld old 4 4 = (c.port p.val).sVal.toNat then d else d.peEv p.val (bit 24))) ∧
    (max 3 (c.gf (pe p.val 0x50) 8 3) ≤ (c.port p.val).kRun → c.mspOf p.val = none →
      let v := (c.port p.val).kVal
      let d := c.wr (pe p.val 0x210) (setFld (setFld (c.rd (pe p.val 0x210)) 0 8 (v.extractLsb' 8 8).toNat) 8 8
        (v.extractLsb' 0 8).toNat)
      Goes (.k1k2Accept p) c
        (if c.gf (pe p.val 0x210) 0 16 = d.gf (pe p.val 0x210) 0 16 then d else d.ev (pe p.val 0x410) 1)) ∧
    ((c.obj o.key).svc = true → 5 ≤ (c.obj o.key).slRun →
      let v := (c.obj o.key).slVal.toNat
      let d := c.tsf (c.statKey o.key) 14 8 v
      let b := if d.ttype o.idx.val = 2 ∧ isPath o.idx.val = true then bit 29 else bit 11
      Goes (.signalLabelAccept o) c
        (if fld (c.trd (c.statKey o.key)) 14 8 = v then d else d.tev (trib o.idx.val 6) b))

/-- A defect is declared or cleared when its detection says so; an excessive-error window that ended with at least
EXC_SET errors and no signal fail in it declares EXC, and one below EXC_CLR clears it; MS-RDI received in five frames
is marked on its port, and HP-RDI received in five blocks on its Path. Reporting is brought up to date for the port,
and nothing else changes. (R143, R153, Table 5-10, Table 5-11) -/
def Obligations.DefectsFollowTheirDetection : Prop :=
  ∀ (c : Core) (p : Port) (o : ObjRef) (d : Defect),
    (c.portDetect p.val d = some true → Goes (.defectDeclare (.port p) d) c (c.setDefect (.port p) d true)) ∧
    (c.portDetect p.val d = some false → Goes (.defectClear (.port p) d) c (c.setDefect (.port p) d false)) ∧
    (c.objDetect o d = some true → Goes (.defectDeclare (.obj o) d) c (c.setDefect (.obj o) d true)) ∧
    (c.objDetect o d = some false → Goes (.defectClear (.obj o) d) c (c.setDefect (.obj o) d false)) ∧
    (∀ n w : Nat, (c.port p.val).judge.due = some (n, false) → c.rd (pe p.val 0x6C) = BitVec.ofNat 32 w → fld (BitVec.ofNat 32 w) 0 8 ≠ 0 →
      let e := c.updPort p.val fun x => { x with judge := { x.judge with due := none } }
      (excSet (BitVec.ofNat 32 w) (rateN (c.rate p.val)) ≤ n → Goes (.excWindowEnd (.port p)) c (e.setDefect (.port p) .msExc true)) ∧
      (n < excSet (BitVec.ofNat 32 w) (rateN (c.rate p.val)) → n < excClr (BitVec.ofNat 32 w) (rateN (c.rate p.val)) →
        Goes (.excWindowEnd (.port p)) c (e.setDefect (.port p) .msExc false))) ∧
    ((c.port p.val).k2Val = 6 → 5 ≤ (c.port p.val).k2Run → (c.port p.val).remote = [] →
      Goes (.remoteIndicationChange (.port p) .msRdi) c ((c.updPort p.val fun x => { x with remote := [.msRdi] }).refresh p.val)) ∧
    (isPath o.idx.val = true → 5 ≤ (c.obj o.key).rdiRun → (c.obj o.key).rdiVal = true → (c.obj o.key).remote = [] →
      Goes (.remoteIndicationChange (.obj o) .hpRdi) c
        ((c.updObj o.key fun x => { x with remote := [.hpRdi] }).refresh (c.rxPort o.idx.val)))

/-- Of the defects present on an object, the reported ones are present and among its ranks, in rank order; a reported
defect that suppresses every lower rank is the last one reported; and where an EXC is reported that does not, no DEG
is reported with it. The highest ranked defect present is always reported. (R154, Table 5-10) -/
def Obligations.WideDefectsSuppress : Prop :=
  ∀ (cq : Word) (present ranks : List Defect), ranks.Nodup →
    let rep := cutRanks cq present ranks
    rep.Sublist ranks ∧ (∀ d ∈ rep, d ∈ present) ∧
    (∀ (a b : List Defect) (d : Defect), rep = a ++ d :: b → d.wide cq = true → b = []) ∧
    (∀ (a b : List Defect) (d e : Defect), rep = a ++ d :: b → d.isExc = true → e ∈ b → e.isDeg = false) ∧
    (∀ d, (ranks.filter fun e => present.contains e).head? = some d → rep.head? = some d)

/-- At the boundary that ends a PM second the counters held since it are given to the harvest and the second's number
advances; at any other time nothing happens. The harvest writes every record of the second to its slot in the Open
Reservoir with STATUS COMPLETE, marks the cells it wrote whole as good, and ends self-refresh; past the boundary that
ends the next second it does nothing more. A harvest overtaken by that boundary stops with what it has written, STATUS
LATE, and counts it, the count saturating. To a stack that may not be used nothing is written. (R164, R166, R167, R240,
R241, R275, Table 5-13) -/
def Obligations.PmSecondsAreHarvested : Prop :=
  ∀ (c : Core) (m : List Host.Cell) (sec : Nat),
    let d : Core := ({ c with harvest := none } : Core).srExit
    (c.secondDue = some sec → Reaches .pmSecondEnd c fun c' =>
      c'.pmSec = sec + 1 ∧ c'.harvest = some sec ∧ c'.ceDone = 0 ∧ c'.lateDone = 0 ∧ c'.frame = c.frame ∧
      ∀ p, p < 96 → (c'.port p).pmHeld = (c.port p).pmDone ∧ (c'.port p).pm = (c.port p).pm) ∧
    (c.secondDue = none → Goes .pmSecondEnd c c) ∧
    (c.harvest = none → GoesMem .harvest c m c [] ∧ ∀ w, GoesMem (.harvestLate w) c m c []) ∧
    (c.harvest = some sec → c.frame < (sec + 2) * 8000 →
      (let ops := c.harvestOps sec 137312 2
       GoesMem .harvest c m (d.rewrote ops) ops) ∧ ∀ w, GoesMem (.harvestLate w) c m c []) ∧
    (c.harvest = some sec → (sec + 2) * 8000 ≤ c.frame →
      GoesMem .harvest c m c [] ∧
      (∀ w, w < 137312 →
        let n := min (c.lateCount + 1) 0xFFFFFFFF
        let ops := c.harvestOps sec w 4 ++ if c.orReady then [.write (orBase + 0x1000000C) (le 4 n)] else []
        GoesMem (.harvestLate w) c m ({ d with lateCount := n }.rewrote ops) ops)) ∧
    (∀ n st, c.orReady = false → c.harvestOps sec n st = []) ∧
    (∀ n st, c.orReady = true →
      (∀ r, r < n → MemOp.write (orBase + 0x10001000 + sec % 64 * 0x240000 + (c.pmRecord sec r).1) (c.pmRecord sec r).2 ∈ c.harvestOps sec n st) ∧
      MemOp.write (orBase + 0x10000100 + sec % 64 * 16) (le 8 sec ++ le 4 st ++ le 4 n) ∈ c.harvestOps sec n st ∧
      MemOp.write (orBase + 0x10000000) (le 8 sec) ∈ c.harvestOps sec n st)

/-- The oldest frame that a channel's tap has received, named by the row, leaves the tap; with another named nothing changes. With the queues off nothing more happens; a frame whose
beginning was dropped whole is passed over. A frame that waited at the tail gives way. A good one, of 2 to 4,096 bytes with the right
FCS, is filed without its FCS in the channel's queue, or completes the packet that its beginning opened; any other is counted as bad with
its event, and the packet it opened is discarded. A channel that has finished a frame takes the best packet addressed to it, popped from
the transmit queue, and sends a flag and then the packet and its FCS with zeros inserted and the closing flag; with no such packet, or
while it still sends one, nothing happens. (R170, R171, R352, R353, R359) -/
def Obligations.DccFramesCross : Prop :=
  ∀ (c : Core) (p : Port) (ms : Bool),
    let src := 2 * p.val + (if ms then 1 else 0)
    let taken (rest : List (List Byte × Bool)) : Core := c.updPort p.val fun x =>
      if ms then { x with dccM := { x.dccM with done := rest } } else { x with dccR := { x.dccR with done := rest } }
    let good (oct body : List Byte) : Prop := oct = body ++ c.fcs p.val body ∧ 2 ≤ body.length ∧ body.length ≤ 4096
    (∀ f, (c.tap p.val ms).done.head? ≠ some f → Goes (.dccRxFrame p ms f) c c) ∧
    (∀ (oct : List Byte) (bad : Bool) (rest : List (List Byte × Bool)), (c.tap p.val ms).done = (oct, bad) :: rest →
      (c.en 0xC = false → Goes (.dccRxFrame p ms (oct, bad)) c (taken rest)) ∧
      (c.en 0xC = true → src ∈ c.weirS.skip → Goes (.dccRxFrame p ms (oct, bad)) c
        { taken rest with weirS := { c.weirS with skip := c.weirS.skip.filter (· ≠ src) } }) ∧
      (c.en 0xC = true → src ∉ c.weirS.skip →
        let d := (taken rest).dropWaiting src
        let q := c.dccQ p.val ms
        let hdr (body : List Byte) : Word := pktHdr body.length (d.gf (wq 0x40) (if ms then 11 else 8) 3) 1 p.val (if ms then 1 else 0)
        (d.openOf src = none →
          (∀ body : List Byte, bad = false → good oct body → Goes (.dccRxFrame p ms (oct, bad)) c (d.receivePkt q src (hdr body) body false)) ∧
          (bad = true ∨ (¬∃ body : List Byte, good oct body) →
            Goes (.dccRxFrame p ms (oct, bad)) c ((d.qEv q (bit 3)).cn (wq (0x540 + 4 * q)) 1))) ∧
        (∀ (j : Nat) (k : Pkt), d.openOf src = some (j, k) →
          (∀ body : List Byte, bad = false → good oct body → Goes (.dccRxFrame p ms (oct, bad)) c
            (((d.putQueue j { d.queue j with pkts := (d.queue j).pkts.map fun i =>
              if i.id = k.id then { i with hdr := hdr body, bytes := body, ended := true } else i }).growPkt j k.id body.length).commitFit j k.id)) ∧
          (bad = true ∨ (¬∃ body : List Byte, good oct body) → Goes (.dccRxFrame p ms (oct, bad)) c (d.discard j k.id false))))) ∧
    (Sparse.get (fun _ => []) c.weirS.sending src ≠ [] ∨ c.dccOn p.val ms = false ∨ c.en 0xC = false → Goes (.dccTxFrame p ms) c c) ∧
    (bestPkt ((c.queue c.txq).pkts.filter (toChan · p.val ms)) = none → Goes (.dccTxFrame p ms) c c) ∧
    (Sparse.get (fun _ => []) c.weirS.sending src = [] → c.dccOn p.val ms = true → c.en 0xC = true →
      ∀ k : Pkt, bestPkt ((c.queue c.txq).pkts.filter (toChan · p.val ms)) = some k →
      Reaches (.dccTxFrame p ms) c fun c' =>
        Sparse.get (fun _ => []) c'.weirS.sending src = k.bytes ++ c.fcs p.val k.bytes ∧
        c'.chanBits p.val ms = c.chanBits p.val ms ++ hdlcFlag ++ hdlcBits (k.bytes ++ c.fcs p.val k.bytes) ∧
        (c'.queue c.txq).pkts = (c.queue c.txq).pkts.filter (·.id ≠ k.id) ∧ ∀ j, j ≠ c.txq → c'.queue j = c.queue j)

/-- For every TYPE's largest value and every current value within it: the all-ones word is an AIS indication; the
current value with NDF disabled is normal; the five I bits inverted are an increment and the five D bits a decrement,
and within three blocks of the last change invalid; NDF enabled with a value in range is an NDF whatever the current
value; and another value in range is a new one unless three I or D bits and at most two of the others differ. (R189,
Table 6-7) -/
def Obligations.PointerWordsClassify : Prop :=
  ∀ (t cur v : Nat), t < 16 → cur ≤ ptrMax t → v ≤ ptrMax t →
    let word (ndf x : Nat) : BitVec 16 := BitVec.ofNat 16 (ndf * 4096 + 2048 + x)
    let cls (near : Bool) (ndf x : Nat) : PtrClass := ptrClass (ptrMax t) false (some cur) near false (word ndf x)
    ptrClass (ptrMax t) false (some cur) false false 0xFFFF = .aisInd ∧ cls false 6 cur = .norm ∧
    cls false 6 (cur ^^^ 0x2AA) = .inc ∧ cls false 6 (cur ^^^ 0x155) = .dec ∧
    cls true 6 (cur ^^^ 0x2AA) = .inv ∧ cls true 6 (cur ^^^ 0x155) = .inv ∧ cls false 9 v = .ndfEn ∧
    (v ≠ cur → ones 10 ((v ^^^ cur) &&& 0x2AA) ≤ 2 → ones 10 ((v ^^^ cur) &&& 0x155) ≤ 2 → cls false 6 v = .new)

/-- In NORM a normal pointer only counts; an increment or decrement moves the value by one, round the range of the
TYPE, shows it in W5 and counts a justification. The pointer is the one on the line or, in internal loopback, the one
last sent in its place. A word on the port of an MSP pair that is not selected moves only the interpreter kept for that port, and on a port
of no pair none. A state that the counts have reached is entered at its own step: the object takes it, shows its
code, and its counts restart; with none reached nothing changes. An object whose interpreter does not run is left as it
was. (R187, R189, R190, R191, R299, Table 6-8) -/
def Obligations.PointersAreInterpreted : Prop :=
  ∀ (c : Core) (o : ObjRef) (w : BitVec 16),
    let k := o.key
    (c.interprets k = false → Goes (.pointerReceive o ⟨false, w⟩) c c) ∧
    (Reaches (.pointerReceive o ⟨true, w⟩) c fun d => d = { c with spare := d.spare } ∧
      ∀ j, j ≠ k → Sparse.get (fun _ => ({} : Obj)) d.spare j = Sparse.get (fun _ => {}) c.spare j) ∧
    (((List.range 48).all fun j => !mspV (c.msp j).eff || mspW (c.msp j).eff != c.portOf o.idx.val) = true →
      Goes (.pointerReceive o ⟨true, w⟩) c c) ∧
    (∀ x : Nat, c.interprets k = true → (c.obj k).itp = .norm → (c.obj k).cur = some x →
      c.gb (pe (c.portOf o.idx.val) 0x58) 7 = false → ¬(isPath o.idx.val = true ∧ c.ttype o.idx.val = 6) →
      let mx := ptrMax (c.ttype o.idx.val)
      let r := if c.loopInt (c.rxPort (k / 4)) then (match c.mirror k with | some j => (c.obj j).gOut | none => 0) else w
      let v := (r.extractLsb' 0 10).toNat
      let cl := ptrClass mx false (some x) (decide ((c.obj k).since < 3)) false r
      let seen (q : PtrClass) : Core := c.setObj k { (c.obj k).count q v with goto := none }
      let moved (q : PtrClass) (n : Nat) : Core :=
        (((seen q).updObj k fun y => { y with cur := some n, since := 0, nNew := 0 }).showPtr k n)
      (cl = .norm → Goes (.pointerReceive o ⟨false, w⟩) c (seen .norm)) ∧
      (cl = .inc → Goes (.pointerReceive o ⟨false, w⟩) c ((moved .inc (if mx ≤ x then 0 else x + 1)).pje k true)) ∧
      (cl = .dec → Goes (.pointerReceive o ⟨false, w⟩) c ((moved .dec (if x = 0 then mx else x - 1)).pje k false))) ∧
    ((c.obj k).goto = none → Goes (.pointerStateChange o) c c) ∧
    (∀ st : PtrSt, (c.obj k).goto = some st → Reaches (.pointerStateChange o) c fun d =>
      (d.obj k).itp = st ∧ (d.obj k).goto = none ∧ (d.obj k).nAis = 0 ∧ (d.obj k).nInv = 0 ∧ (d.obj k).nNdf = 0 ∧ (d.obj k).nNew = 0 ∧
      ((d.obj k).cur = if st = .norm then some (c.obj k).newVal else none) ∧ fld (d.trd (d.statKey k)) 10 2 = st.code)

/-- On a Path in service within its port's positions: a generator marked AIS sends all-ones; one due to start sends
pointer 0 with NDF and an empty depth; a depth within one unit only accumulates what the source gave; a depth at or
beyond one unit, once SPACE blocks have passed, moves the pointer by one unit, sends the last value with its D or I bits
inverted in that block, and counts it in the port's PJE counter, and before that waits where it is below two; at eight
units, where it is whole units, the value takes all of it at once with NDF and the event, the depth then 0. The row names the
bytes that moved the depth since the block before, and does nothing where they are others. Nothing else changes. (R187, R193, R194, R195, R199, R200) -/
def Obligations.PointersAreGenerated : Prop :=
  ∀ (c : Core) (o : ObjRef), isPath o.idx.val = true → (c.obj o.key).svc = true → c.ttype o.idx.val ≠ 6 → c.unused o.idx.val = false →
    let k := o.key
    let x := c.obj k
    let p := c.portOf o.idx.val
    let mx := ptrMax (c.ttype o.idx.val)
    let u : Int := genUnit (c.ttype o.idx.val)
    let d := x.depth + x.tx.moved
    let ss := if c.gf (pe p 0x208) 4 2 = 2 then 0 else 2
    let space := max 4 (c.gf (pe p 0x58) 8 6)
    let put (v : Nat) (d : Int) (n : Nat) (w : BitVec 16) (just : Int) : Core := c.updObj k fun y => { y with
      gVal := v, depth := d, gSince := n, gOut := w, tx := { x.tx with moved := 0, just := just } }
    (∀ n, n ≠ x.tx.moved → Goes (.pointerGenerate o n) c c) ∧
    (x.gHeld = true → Goes (.pointerGenerate o x.tx.moved) c
      (c.updObj k fun y => { y with gOut := 0xFFFF, tx := { x.tx with moved := 0, just := 0 } })) ∧
    (x.gHeld = false →
      (x.gNdf = true → Goes (.pointerGenerate o x.tx.moved) c (c.updObj k fun y => { y with
        gNdf := false, gVal := 0, gSince := 0, depth := 0, gOut := ptrWord true ss 0, tx := { x.tx with moved := 0, just := 0 } })) ∧
      (x.gNdf = false →
        (-u < d → d < u → Goes (.pointerGenerate o x.tx.moved) c (put x.gVal d (x.gSince + 1) (ptrWord false ss x.gVal) 0)) ∧
        (u ≤ d → d < 8 * u → space ≤ x.gSince + 1 → Goes (.pointerGenerate o x.tx.moved) c
          ((put (if x.gVal = 0 then mx else x.gVal - 1) (d - u) 0 (ptrWord false ss (x.gVal ^^^ 0x155)) (-u)).cn (pe p 0x510) 1)) ∧
        (d ≤ -u → -8 * u < d → space ≤ x.gSince + 1 → Goes (.pointerGenerate o x.tx.moved) c
          ((put (if mx ≤ x.gVal then 0 else x.gVal + 1) (d + u) 0 (ptrWord false ss (x.gVal ^^^ 0x2AA)) u).cn (pe p 0x50C) 1)) ∧
        (-2 * u < d → d < 2 * u → x.gSince + 1 < space →
          Goes (.pointerGenerate o x.tx.moved) c (put x.gVal d (x.gSince + 1) (ptrWord false ss x.gVal) 0)) ∧
        (8 * u ≤ d ∨ d ≤ -8 * u → d % u = 0 →
          let v := (((x.gVal : Int) - d / u) % ((mx : Int) + 1)).toNat
          Goes (.pointerGenerate o x.tx.moved) c ((put v 0 0 (ptrWord true ss v) 0).ev (pe p 0x40C) (bit 5)))))

/-- An active analyzer whose machine has gained sync shows it, and one whose machine has lost it shows that, each with
its event, and a loss is counted; otherwise nothing changes. Out of sync the 64th correct bit in a row gains sync; in
sync the 16th errored bit of a block of 64 loses it, a compared bit counting as errored where it differs from the
pattern's. A write of SINGLE is accepted while no single error is pending, which shows as SINGLE_BUSY, and is otherwise
refused with cause 0x8. Nothing else changes. (R70, R201, R203, R204) -/
def Obligations.PrbsPairsRun : Prop :=
  ∀ (c : Core) (k : Fin 64),
    let st := c.trd (prbs k.val 4)
    (bitOf st 2 = true → bitOf st 0 = false → (c.pat k.val).inSync = true →
      Goes (.prbsSyncGain k) c ((c.tev (prbs k.val 4) (bit 0)).tev (prbs k.val 5) (bit 0))) ∧
    (bitOf st 2 = false ∨ bitOf st 0 = true ∨ (c.pat k.val).inSync = false → Goes (.prbsSyncGain k) c c) ∧
    (bitOf st 0 = true → (c.pat k.val).lost = true →
      let d := c.setPat k.val { c.pat k.val with lost := false }
      let e := (d.tsf (prbs k.val 4) 0 1 0).tev (prbs k.val 5) (bit 1)
      Goes (.prbsSyncLoss k) c (e.twr (prbs k.val 9) (satFld (d.trd (prbs k.val 9)) 0 16 1))) ∧
    (bitOf st 0 = false ∨ (c.pat k.val).lost = false → Goes (.prbsSyncLoss k) c c) ∧
    (bitOf (c.trd (prbs k.val 3)) 1 = false → Goes (.prbsSingle k) c (c.tsf (prbs k.val 3) 1 1 1)) ∧
    (bitOf (c.trd (prbs k.val 3)) 1 = true → Goes (.prbsSingle k) c (c.ign (rsv ((k.val * 256 + 12) % 0x1000)) 8)) ∧
    (∀ (code : Nat) (x : Prbs) (b : Bool),
      let good : Bool := (patNext code x.reg).1 = b
      let y := (x.bit code b).1
      (x.inSync = false → (patTaps code).1 ≤ x.fill → good = true → y.good = x.good + 1 ∧ y.inSync = decide (64 ≤ x.good + 1)) ∧
      (x.inSync = false → (patTaps code).1 ≤ x.fill → good = false → y.good = 0 ∧ y.inSync = false) ∧
      (x.inSync = true → (x.bit code b).2 = (1, if good then 0 else 1)) ∧
      (x.inSync = true → x.err < 15 → y.inSync = true ∧ y.reg = (patNext code x.reg).2) ∧
      (x.inSync = true → x.err = 15 → good = false → y.inSync = false ∧ y.lost = true))

/-- In a running sink group: a control packet received whole, named by the row, is taken once. With LCAS one with a CRC error changes
nothing else of its slot and is counted with its event; a good one brings its SQ and CTRL to the slot, to govern the
payload from the frame after the one in which it ends at the read point; without LCAS it brings its SQ and the accepted
values stay. Multiframe alignment of a member that is not under signal fail is gained after MF_IF_N values and lost
after MF_OOM_N; VC-LOM is declared and cleared after MF_LOM frames; a slot leaves LOA after 16 frames in range; without
LCAS a TERM sink accepts an SQ repeated three times, with SQM where it is not the slot's own; a payload set that differs
from the CTRL values in effect is counted as a change and the group's capacity judged on the new set. Otherwise nothing
changes. (R217, R221, R222, R225, R226) -/
def Obligations.SinkMembersFollowTheirSlots : Prop :=
  ∀ (c : Core) (g : GroupNo) (sl : SlotNo), c.gRuns g.val = true → gSource (c.group g.val).eff = false →
    let d := (c.group g.val).eff
    let x := c.slot g.val sl.val
    let n := if gHigh d then 16 else 32
    (∀ k, x.pkt ≠ some k → Goes (.vcatControlPacket g sl k) c c) ∧
    (∀ k : CtrlPkt, x.pkt = some k → sl.val < c.nslot d →
      let e := c.setSlot g.val sl.val { x with pkt := none }
      (gLcas d = true → k.crcOk = false → Goes (.vcatControlPacket g sl k) c
        ((e.tev (grp g.val 14) (bit 9)).twr (grp g.val 15) (satFld (c.trd (grp g.val 15)) 16 16 1))) ∧
      (gLcas d = false → gRev d = none → fld (c.trd (grp g.val 13)) 27 1 = (if k.rsAck then 1 else 0) →
        Goes (.vcatControlPacket g sl k) c (e.setSlot g.val sl.val { x with
          pkt := none, sq := k.sq, sqRun := runOf x.sq x.sqRun k.sq
          ctrlQ := x.ctrlQ ++ [(k.frame + x.depth.toNat + 1, k.ctrl, k.sq)] })) ∧
      (gLcas d = true → k.crcOk = true → gRev d = none → Reaches (.vcatControlPacket g sl k) c fun e =>
        e.slot g.val sl.val = { x with
          pkt := none, sq := k.sq, sqRun := runOf x.sq x.sqRun k.sq, sqAcc := k.sq, ctrl := k.ctrl
          ctrlQ := x.ctrlQ ++ [(k.frame + x.depth.toNat + 1, k.ctrl, k.sq)] } ∧
        (x.ctrl ≠ k.ctrl → bitOf (e.trd (grp g.val 14)) 7 = true) ∧ (x.sqAcc ≠ k.sq → (e.group g.val).rsPend = true) ∧
        fld (e.trd (grp g.val 13)) 27 1 = (if k.rsAck then 1 else 0))) ∧
    (∀ o : Nat, (c.members d)[sl.val]? = some o →
      (c.objSf o = true → ∀ b, Goes (.vcMfAlign g sl b) c c) ∧
      (c.objSf o = false → x.mf.inMf = false → c.mfIfN (c.portOf (o / 4)) ≤ x.mf.run → ∀ l, x.mf.last = some l →
        Goes (.vcMfAlign g sl true) c (c.setSlot g.val sl.val { x with
          mf := { x.mf with inMf := true, run := 0, bad := 0, thru := false, want := (l + 1) % n } })) ∧
      (x.mf.inMf = true ∨ x.mf.run < c.mfIfN (c.portOf (o / 4)) → Goes (.vcMfAlign g sl true) c c) ∧
      (c.objSf o = false → x.mf.inMf = true → c.mfOomN (c.portOf (o / 4)) ≤ x.mf.bad →
        Goes (.vcMfAlign g sl false) c (c.setSlot g.val sl.val { x with
          mf := { x.mf with inMf := false, run := 0, bad := 0, thru := false }, hist := [] })) ∧
      (x.mf.inMf = false ∨ x.mf.bad < c.mfOomN (c.portOf (o / 4)) → Goes (.vcMfAlign g sl false) c c) ∧
      (x.lom = false → c.mfLom (c.portOf (o / 4)) ≤ x.mf.oomF → Goes (.vcLom g sl) c (c.setSlot g.val sl.val { x with lom := true })) ∧
      (x.lom = false → x.mf.oomF < c.mfLom (c.portOf (o / 4)) → Goes (.vcLom g sl) c c) ∧
      (x.lom = true → c.mfLom (c.portOf (o / 4)) ≤ x.mf.mfF → Goes (.vcLom g sl) c (c.setSlot g.val sl.val { x with lom := false })) ∧
      (x.lom = true → x.mf.mfF < c.mfLom (c.portOf (o / 4)) → Goes (.vcLom g sl) c c)) ∧
    (x.loa = true → 16 ≤ x.loaRun → Goes (.memberLoaClear g sl) c (c.setSlot g.val sl.val { x with loa := false, loaRun := 0 })) ∧
    (x.loa = false ∨ x.loaRun < 16 → Goes (.memberLoaClear g sl) c c) ∧
    (gMode d = true → gLcas d = false → 3 ≤ x.sqRun → sl.val < c.nslot d →
      Goes (.sqAccept g sl) c (c.setSlot g.val sl.val { x with sqAcc := x.sq, sqm := x.sq.toNat != sl.val })) ∧
    (gMode d = false ∨ gLcas d = true ∨ x.sqRun < 3 → Goes (.sqAccept g sl) c c) ∧
    (gLcas d = true → ((List.range (c.nslot d)).all fun s => c.gSet g.val 24 s = c.inSet g.val s) = false →
      let e := forN (c.nslot d) (fun s c' => c'.setGSet g.val 24 s 6 (c.inSet g.val s)) c
      Goes (.payloadSetChange g) c ((e.twr (grp g.val 15) (satFld (e.trd (grp g.val 15)) 0 16 1)).capacity g.val)) ∧
    (gLcas d = false ∨ ((List.range (c.nslot d)).all fun s => c.gSet g.val 24 s = c.inSet g.val s) = true →
      Goes (.payloadSetChange g) c c)

/-- A running group in state ALIGNED whose slots have been outside the range of the read point for 16 frames loses its
read point and its slots their own LOA; a TERM sink with LCAS reports MST fail for a slot failed for the hold-off, MST
OK for one good for the wait-to-restore time, and toggles RS-Ack once a changed set of SQ values has stood through one
MST cycle of 512 or 1,024 frames; before that nothing changes. Every 64 frames the group's member records are written
at its place in an Open Reservoir that is ready, the cells written whole are good, and self-refresh ends. (R215, R221,
R230, R235, R240, R275) -/
def Obligations.GroupsReportAndRecord : Prop :=
  ∀ (c : Core) (m : List Host.Cell) (g : GroupNo) (sl : SlotNo), c.gRuns g.val = true →
    let y := c.group g.val
    let d := y.eff
    let x := c.slot g.val sl.val
    let cyc := if gType d ≤ 2 then 512 else 1024
    (16 ≤ y.loaRun → fld (c.trd (grp g.val 12)) 0 3 = 2 →
      Reaches (.groupLoa g) c fun c' => c'.group g.val = { y with readPt := none, loaRun := 0 } ∧
        fld (c'.trd (grp g.val 12)) 0 3 = 3 ∧ c'.regs = (c.setGState g.val 3).regs ∧ c'.tbl = (c.setGState g.val 3).tbl ∧
        ∀ s, s < c.nslot d → s < 256 → c'.slot g.val s = { c.slot g.val s with loa := false, loaRun := 0 }) ∧
    (y.loaRun < 16 ∨ fld (c.trd (grp g.val 12)) 0 3 ≠ 2 → Goes (.groupLoa g) c c) ∧
    (gSource d = false → gMode d = true → gLcas d = true → x.failed = true → c.gSet g.val 16 sl.val = true →
      8 * fld (c.trc (grp g.val 3)) 0 8 ≤ x.failRun →
      Goes (.mstFail g sl) c ((c.setGSet g.val 16 sl.val 5 false).capacity g.val)) ∧
    (x.failed = false ∨ x.failRun < 8 * fld (c.trc (grp g.val 3)) 0 8 → Goes (.mstFail g sl) c c) ∧
    (gSource d = false → gMode d = true → gLcas d = true → x.failed = false → c.gSet g.val 16 sl.val = false →
      sl.val < c.nslot d → 8000 * fld (c.trc (grp g.val 3)) 8 10 ≤ x.okRun →
      Goes (.mstOk g sl) c ((c.setGSet g.val 16 sl.val 5 true).capacity g.val)) ∧
    (x.failed = true ∨ x.okRun < 8000 * fld (c.trc (grp g.val 3)) 8 10 → Goes (.mstOk g sl) c c) ∧
    (gSource d = false → gMode d = true → gLcas d = true → y.rsPend = true → cyc ≤ y.rsCnt →
      Goes (.rsAckToggle g) c ((c.setGroup g.val { y with rsPend := false, rsCnt := 0 }).tsf (grp g.val 13) 28 1
        (1 - fld (c.trd (grp g.val 13)) 28 1))) ∧
    (y.rsPend = false ∨ y.rsCnt < cyc → Goes (.rsAckToggle g) c c) ∧
    (c.frame % 64 = 0 → c.orReady = true →
      let ops := (c.members d).zipIdx.map fun q => MemOp.write (orBase + 0x1A000000 + g.val * 0x800 + q.2 * 8) (c.memberRecord g.val q.2 q.1)
      GoesMem (.memberRecordWrite g) c m (c.srExit.rewrote ops) ops) ∧
    (c.frame % 64 ≠ 0 ∨ c.orReady = false → GoesMem (.memberRecordWrite g) c m c [])

/-- With the RSV island up and no failed initialisation, each step follows the one before it: training; zeroed
retained region with RET_READY; zeroed Open Reservoir with OR_READY, which the HIF page shows too; parts of the traffic
store shown as progress; zeroed traffic store with TS_READY, progress 100 and the event. A failure before TS_READY sets
INIT_FAIL with its event and the HBM source of the Spillway. A step out of order, twice, or after a failure, and any
without the island, leaves all as it was. (R241, R242, R270) -/
def Obligations.TheStoreComesUpInOrder : Prop :=
  ∀ (c : Core) (m : List Host.Cell),
    let r := rsv 0x204
    (c.gb (lev 0x204) 3 = true → c.gb r 4 = false →
      (c.gb r 0 = false → GoesMem (.rsvInitStep .trained) c m (c.sb r 0 true) []) ∧
      (c.gb r 0 = true → c.gb r 1 = false →
        let ops := [MemOp.clear 0x3C0000000 0x400000000]
        GoesMem (.rsvInitStep .ret) c m ((c.sb r 1 true).rewrote ops) ops) ∧
      (c.gb r 1 = true → c.gb r 2 = false →
        let ops := [MemOp.clear 0x380000000 0x3C0000000]
        GoesMem (.rsvInitStep .openRes) c m (((c.sb r 2 true).sb (hif 0x204) 1 true).rewrote ops) ops) ∧
      (c.gb r 2 = true → c.gb r 3 = false →
        let ops := [MemOp.clear 0 0x380000000]
        (∀ n, GoesMem (.rsvInitStep (.part n)) c m (c.sf r 8 8 n.val) []) ∧
        GoesMem (.rsvInitStep .traffic) c m ((((c.sb r 3 true).sf r 8 8 100).ev (rsv 0x400) (bit 7)).rewrote ops) ops) ∧
      (c.gb r 3 = false → Goes .initFail c (((c.sb r 4 true).ev (rsv 0x400) (bit 8)).report 106))) ∧
    (c.gb r 0 = true → GoesMem (.rsvInitStep .trained) c m c []) ∧
    (c.gb r 0 = false ∨ c.gb r 1 = true → GoesMem (.rsvInitStep .ret) c m c []) ∧
    (c.gb r 1 = false ∨ c.gb r 2 = true → GoesMem (.rsvInitStep .openRes) c m c []) ∧
    (c.gb r 2 = false ∨ c.gb r 3 = true → GoesMem (.rsvInitStep .traffic) c m c [] ∧ ∀ n, GoesMem (.rsvInitStep (.part n)) c m c []) ∧
    (c.gb (lev 0x204) 3 = false ∨ c.gb r 4 = true → Goes .initFail c c ∧ ∀ st, GoesMem (.rsvInitStep st) c m c []) ∧
    (c.gb r 3 = true → Goes .initFail c c)

/-- Once OR_READY, with no failed initialisation and a committed decoder on a CXL link, a read of a line without a bad
word answers its 64 bytes from HBM byte 0x380000000 + offset, one with a bad word poison; either counts its two cells
and ends self-refresh, and leaves the HBM as it was. A write outside 0x10000000–0x1FFFFFFF writes its bytes there,
counts, and marks the cells it wrote whole as good; a write into that range is discarded and counted, and completes.
BAR4 in PCIe mode does the same from 0x40000000 on, in aligned words within a line, other forms being aborted; below it
reads give zero and writes are discarded. Before OR_READY a read answers poison and a write is discarded; with the link
down neither goes in. (R238, R239, R240, R241, R242, R384, R385, Table 8-10, Table 13-1) -/
def Obligations.TheOpenReservoirIsReadAndWritten : Prop :=
  ∀ (c : Core) (m : List Host.Cell),
    let a (line : BitVec 24) : Nat := 0x380000000 + 64 * line.toNat
    let s : Core := { c with linkOut := [.done] }
    let dropped : Core := (s.cn (rsv 0x51C) 1).ev (rsv 0x400) (bit 10)
    (c.hdmOn = true → c.orReady = true →
      (∀ line : BitVec 24, c.orPoison (64 * line.toNat) 64 = false →
        GoesMem (.hdmRead line) c m { (c.hdmWake.cn (rsv 0x534) 2) with linkOut := [.bytes (memBytes m (a line) 64)] } []) ∧
      (∀ line : BitVec 24, c.orPoison (64 * line.toNat) 64 = true →
        GoesMem (.hdmRead line) c m { (c.hdmWake.cn (rsv 0x534) 2) with linkOut := [.poison] } []) ∧
      (∀ (line : BitVec 24) (bs : List Byte), bs.length = 64 → line.toNat < 0x400000 ∨ 0x800000 ≤ line.toNat →
        let ops := [MemOp.write (a line) bs]
        GoesMem (.hdmWrite line bs) c m ((s.hdmWake.cn (rsv 0x538) 2).rewrote ops) ops) ∧
      (∀ (line : BitVec 24) (bs : List Byte), 0x400000 ≤ line.toNat → line.toNat < 0x800000 →
        GoesMem (.hdmWrite line bs) c m dropped [])) ∧
    (c.hdmOn = true → c.orReady = false → ∀ (line : BitVec 24) (bs : List Byte),
      GoesMem (.hdmRead line) c m { c with linkOut := [.poison] } [] ∧ GoesMem (.hdmWrite line bs) c m dropped []) ∧
    (c.hdmOn = false → ∀ (line : BitVec 24) (bs : List Byte),
      GoesMem (.hdmRead line) c m { c with linkOut := [.noLink] } [] ∧ GoesMem (.hdmWrite line bs) c m { c with linkOut := [.noLink] } []) ∧
    (c.gb (hif 0x200) 0 = false → ∀ x, GoesMem (.bar4Access x) c m { c with linkOut := [.noLink] } []) ∧
    (c.gb (hif 0x200) 0 = true → c.gb (hif 0x200) 1 = false → ∀ x : Bar4,
      (x.addr.toNat < 0x40000000 →
        (x.data = none → GoesMem (.bar4Access x) c m { c with linkOut := [.bytes (List.replicate x.bytes 0)] } []) ∧
        (∀ bs, x.data = some bs → GoesMem (.bar4Access x) c m s [])) ∧
      (0x40000000 ≤ x.addr.toNat →
        (x.bytes < 4 ∨ x.bytes % 4 ≠ 0 ∨ x.addr.toNat % 4 ≠ 0 ∨ 64 < x.addr.toNat % 64 + x.bytes →
          GoesMem (.bar4Access x) c m { c with linkOut := [.abort] } []) ∧
        (4 ≤ x.bytes → x.bytes % 4 = 0 → x.addr.toNat % 4 = 0 → x.addr.toNat % 64 + x.bytes ≤ 64 →
          let o := x.addr.toNat - 0x40000000
          let b := 0x380000000 + o
          let n := (b + x.bytes + 31) / 32 - b / 32
          (x.data = none → c.orReady = true →
            (c.orPoison o x.bytes = false → GoesMem (.bar4Access x) c m
              { (c.hdmWake.cn (rsv 0x534) n) with linkOut := [.bytes (memBytes m b x.bytes)] } []) ∧
            (c.orPoison o x.bytes = true → GoesMem (.bar4Access x) c m { (c.hdmWake.cn (rsv 0x534) n) with linkOut := [.poison] } [])) ∧
          (x.data = none → c.orReady = false → GoesMem (.bar4Access x) c m { c with linkOut := [.poison] } []) ∧
          (∀ bs, x.data = some bs → bs.length = x.bytes →
            (c.orReady = true → o < 0x10000000 ∨ 0x20000000 ≤ o →
              let ops := [MemOp.write b bs]
              GoesMem (.bar4Access x) c m ((s.hdmWake.cn (rsv 0x538) n).rewrote ops) ops) ∧
            (c.orReady = false ∨ (0x10000000 ≤ o ∧ o < 0x20000000) → GoesMem (.bar4Access x) c m dropped []))))) ∧
    (∀ (d : Core) (ops : List MemOp) (k : Nat), k ∈ (d.rewrote ops).rsvS.badCells ↔
      k ∈ d.rsvS.badCells ∧ ∃ j, j < 32 ∧ ∀ op ∈ ops, op.hits (32 * k + j) = false)

/-- An uncorrectable or misdirected word of the Open Reservoir or the retained region is counted, recorded with its
address, kind, region, pseudo-channel and syndrome, reported, and its cell marked bad. Of the traffic store, with
retries on, it is counted as a retry, and where the retry succeeds nothing more happens; else it is counted, recorded
and reported the same way and no cell is marked. A scrub pass of an initialised stack out of self-refresh counts the
words it rewrote and the pass, and restarts its progress; otherwise it does nothing. A temperature shows, with WARN from
85 °C and HOT from 95 °C; HOT rising sets its event and its report. Nothing else changes. (R265, R266, R267, R268,
R270, Table 8-12) -/
def Obligations.HbmErrorsAreRecorded : Prop :=
  ∀ c : Core,
    (∀ (k : EccKind) (cell : BitVec 29) (syn : Byte),
      let code := match k with | .ue => 1 | .md => 2
      let region := if cell.toNat < storeCells then 0 else if cell.toNat < storeCells + 33554432 then 1 else 2
      let noted (b : Core) : Core :=
        let d := (b.cn (rsv (0x500 + 4 * code)) 1).ev (rsv 0x408) (bit code)
        (((d.wr (rsv 0x240) (BitVec.ofNat 32 (32 * cell.toNat))).wr (rsv 0x244) (BitVec.ofNat 32 (32 * cell.toNat / 2 ^ 32))).wr
          (rsv 0x248) (BitVec.ofNat 32 (code + region * 4 + cell.toNat % 16 * 16 + syn.toNat * 256))).report 102
      (storeCells ≤ cell.toNat → ∀ ok, Goes (.eccUncorrectable k cell syn ok) c
        { noted c with rsvS := { (noted c).rsvS with badCells := ((noted c).rsvS.badCells.filter (· ≠ cell.toNat)) ++ [cell.toNat] } }) ∧
      (cell.toNat < storeCells → c.gb (rsv 0x40) 8 = true → Goes (.eccUncorrectable k cell syn true) c (c.cn (rsv 0x518) 1)) ∧
      (cell.toNat < storeCells → ∀ ok, c.gb (rsv 0x40) 8 = false ∨ ok = false →
        let b := if c.gb (rsv 0x40) 8 then c.cn (rsv 0x518) 1 else c
        Reaches (.eccUncorrectable k cell syn ok) c fun d => d.rsvS.badCells = c.rsvS.badCells ∧ 102 ∈ d.reports ∧
          ∀ a, a ≠ rsv 0x50C → a ≠ rsv 0x400 → d.rd a = (noted b).rd a)) ∧
    (∀ n : Nat, c.gb (rsv 0x44) 16 = true → c.gb (rsv 0x204) 3 = true → c.gb (rsv 0x204) 4 = false → c.gb (rsv 0x200) 8 = false →
      let d := ((c.cn (rsv 0x52C) n).cn (rsv 0x500) n).ev (rsv 0x408) (bit 5 ||| if n = 0 then 0 else bit 0)
      Goes (.scrubPass n) c
        { ((d.sf (rsv 0x254) 0 16 (d.gf (rsv 0x254) 0 16 + 1)).wr (rsv 0x250) 0) with ceSec := c.ceSec + n }) ∧
    (∀ n : Nat, c.gb (rsv 0x44) 16 = false ∨ c.gb (rsv 0x204) 3 = false ∨ c.gb (rsv 0x204) 4 = true ∨ c.gb (rsv 0x200) 8 = true →
      Goes (.scrubPass n) c c) ∧
    (∀ t : Byte,
      let d := c.wr (rsv 0x258) (BitVec.ofNat 32 (t.toNat + (if 95 ≤ t.toNat then 256 else 0) + (if 85 ≤ t.toNat then 512 else 0)))
      (t.toNat < 95 ∨ c.gb (rsv 0x258) 8 = true → Goes (.hbmHot t) c d) ∧
      (95 ≤ t.toNat → c.gb (rsv 0x258) 8 = false → Goes (.hbmHot t) c ((d.ev (rsv 0x400) (bit 9)).report 106)))

/-- A mismatch met for the first time in a frame is counted, recorded with its table and index, and reported; an entry
of TRIB, GROUP, TTI or PRBS is used as stored, and one of the plane that is not active only marked. An active XMAP entry
is taken from the other plane where the planes are equal and that entry is right, its object sent as all-ones for the
frame, and otherwise its object is marked AIS until a commit. An active PMAP entry is taken from the other plane on the
same terms, and otherwise its selector is held. A second report of the same entry in the frame changes nothing. (R42,
R269, R296, Table 8-12) -/
def Obligations.TableParityIsHandledByTable : Prop :=
  ∀ (c : Core) (t : Fin 9) (i : BitVec 18),
    let noted : Core := ((({ c with rsvS := { c.rsvS with seen := c.rsvS.seen ++ [(t.val, i.toNat)] } }.cn (rsv 0x520) 1).ev
      (rsv 0x400) (bit 5)).wr (rsv 0x24C) (BitVec.ofNat 32 (t.val + i.toNat * 16))).report 105
    let mis := if noted.rsvS.mis.contains (t.val, i.toNat) = true then noted.rsvS.mis else noted.rsvS.mis ++ [(t.val, i.toNat)]
    let marked : Core := { noted with rsvS := { noted.rsvS with mis := mis } }
    let good (d : Core) : Core := { d with rsvS := { d.rsvS with mis := d.rsvS.mis.filter (· ≠ (t.val, i.toNat)) } }
    let x := c.gf (rsv 0x200) 0 1
    let p := c.gf (rsv 0x200) 1 1
    let first := t ≠ 0 ∧ c.rsvS.seen.contains (t.val, i.toNat) = false
    c.rsvS.blank = [] →
    (t = 0 ∨ c.rsvS.seen.contains (t.val, i.toNat) = true → Goes (.tableParityError t i) c c) ∧
    (first → t.val < 3 ∨ 6 < t.val → Goes (.tableParityError t i) c noted) ∧
    (first → t.val = 4 - x ∨ t.val = 6 - p → Goes (.tableParityError t i) c marked) ∧
    (first → t.val = 3 + x →
      (c.gb (rsv 0x200) 2 = true → c.rsvS.mis.contains (4 - x, i.toNat) = false →
        let d := (((good marked).twr (xmap x i.toNat) (c.trd (xmap (1 - x) i.toNat))).sb (rsv 0x24C) 22 true).ev (rsv 0x400) (bit 6)
        Goes (.tableParityError t i) c { d with rsvS := { d.rsvS with sent := d.rsvS.sent.map fun s =>
          if s.key / 4 = i.toNat then { s with bytes := if s.ais then s.bytes else onesOf (d.bytesOf s.key) } else s } }) ∧
      (c.gb (rsv 0x200) 2 = false ∨ c.rsvS.mis.contains (4 - x, i.toNat) = true →
        Goes (.tableParityError t i) c { marked with rsvS := { marked.rsvS with bad := marked.rsvS.bad ++ [i.toNat] } })) ∧
    (first → t.val = 5 + p →
      let d := marked.ev (slu 0x400) (bit 10)
      (c.gb (rsv 0x200) 3 = true → c.rsvS.mis.contains (6 - p, i.toNat) = false → Goes (.tableParityError t i) c
        ((forN 4 (fun w e => e.twr (pmap p i.toNat w) (e.trd (pmap (1 - p) i.toNat w))) (good d)).sb (rsv 0x24C) 22 true)) ∧
      (c.gb (rsv 0x200) 3 = false ∨ c.rsvS.mis.contains (6 - p, i.toNat) = true →
        Goes (.tableParityError t i) c { d with rsvS := { d.rsvS with held := d.rsvS.held ++ [i.toNat] } }))

/-- With a Warden that is neither running nor FAILED nobody can write GO, and nothing happens. GO while a request is in
progress is recorded as refused with cause 0x8. Otherwise the request and its target are held; with no HOLD and the
store ready, or nothing to store, MAPS 1–3 sets BUSY, CHECKING and LOCKED, and the first refusal in the order FAILED,
HOLD, INIT, ENTRY ends it. A check that passes shows both charges and arms the commit for its target, or two frames on,
ending self-refresh where it needs the store; one that fails shows the failing index and ends REFUSED with its cause;
CHECK_ONLY ends CHECKED; a target too near, or D06 stopped, ends it MISSED. CANCEL of a running Warden shows its busy
bit and withdraws a request that is CHECKING, or ARMED and not yet due; with no request it does no more; a second one
while the bit shows is recorded with cause 0x8. (R12, R69, R70, R253, R258, R259, R262, R263, R264, R275, R502, Table
8-12) -/
def Obligations.CommitRequestsAreCheckedAndWithdrawn : Prop :=
  ∀ c : Core,
    let st := rsv 0x208
    let held (v : Word) (tgt : BitVec 64) : Core :=
      let d := ((c.wr (rsv 0xB10) (v &&& 0x7E)).wr (rsv 0xB14) (BitVec.ofNat 32 tgt.toNat)).wr (rsv 0xB18) (BitVec.ofNat 32 (tgt.toNat / 2 ^ 32))
      { d with rsvS := { d.rsvS with req := some { bits := v, tgt := tgt.toNat } } }.sf st 12 2 (fld v 1 2)
    let ready (v : Word) (tgt : BitVec 64) : Prop :=
      ((held v tgt).gb (rsv 0x204) 3 = true ∧ (held v tgt).gb (rsv 0x204) 4 = false) ∨
        ((held v tgt).checkMaps (fld v 1 2) (bitOf v 5)).storage = 0
    (∀ v tgt, c.wDown = true → c.wState ≠ 4 → Goes (.mapCommitGo v tgt) c c) ∧
    (∀ v tgt, c.wDown = false ∨ c.wState = 4 → c.gb st 0 = true → Goes (.mapCommitGo v tgt) c (c.ign (rsv 0xB10) 8)) ∧
    (∀ v tgt, c.gb st 0 = false → c.wState = 4 → Goes (.mapCommitGo v tgt) c ((held v tgt).endReq 3 7)) ∧
    (∀ v tgt, c.gb st 0 = false → c.wDown = false →
      ((held v tgt).gb (rsv 0xB1C) 0 = true → Goes (.mapCommitGo v tgt) c ((held v tgt).endReq 3 6)) ∧
      ((held v tgt).gb (rsv 0xB1C) 0 = false → ¬ready v tgt → Goes (.mapCommitGo v tgt) c ((held v tgt).endReq 3 9)) ∧
      ((held v tgt).gb (rsv 0xB1C) 0 = false → ready v tgt → fld v 1 2 = 0 → Goes (.mapCommitGo v tgt) c ((held v tgt).endReq 3 1)) ∧
      ((held v tgt).gb (rsv 0xB1C) 0 = false → ready v tgt → fld v 1 2 ≠ 0 →
        Goes (.mapCommitGo v tgt) c ((((held v tgt).sb st 0 true).sf st 1 2 1).sb (rsv 0x200) 5 true))) ∧
    (c.rsvS.req = none ∨ c.gf st 1 2 ≠ 1 → Goes .commitCheckEnd c c) ∧
    (∀ q, c.rsvS.req = some q → c.gf st 1 2 = 1 →
      let k := c.checkMaps (fld q.bits 1 2) (bitOf q.bits 5)
      let d0 := (c.wr (rsv 0x21C) (BitVec.ofNat 32 k.storage)).wr (rsv 0x234) (BitVec.ofNat 32 k.width)
      let d := if fld q.bits 1 2 % 2 = 1 then d0.admitErr (k.cause = 3 || k.cause = 4) else d0
      (k.cause ≠ 0 → Goes .commitCheckEnd c ((d.wr (rsv 0x20C) (BitVec.ofNat 32 k.idx)).endReq 3 k.cause)) ∧
      (k.cause = 0 → bitOf q.bits 6 = true → Goes .commitCheckEnd c (d.endReq 2 0)) ∧
      (k.cause = 0 → bitOf q.bits 6 = false → d.d06 = true → d.frame + 2 ≤ (if bitOf q.bits 3 then q.tgt else d.frame + 2) →
        let b := if bitOf q.bits 3 then q.tgt else d.frame + 2
        let e := (d.wr (rsv 0x210) (BitVec.ofNat 32 b)).wr (rsv 0x214) (BitVec.ofNat 32 (b / 2 ^ 32))
        let f := if k.rings = [] then e else e.srExit
        Goes .commitCheckEnd c ({ f with rsvS := { f.rsvS with plan := k.rings } }.sf st 1 2 2)) ∧
      (k.cause = 0 → bitOf q.bits 6 = false → d.d06 = false ∨ (bitOf q.bits 3 = true ∧ q.tgt < d.frame + 2) →
        Goes .commitCheckEnd c (d.endReq 5 8)) ∧ d.d06 = c.d06 ∧ d.frame = c.frame) ∧
    (∀ left, c.wDown = true → Goes (.mapCommitCancel left) c c) ∧
    (∀ left, c.wDown = false → c.gb st 3 = true → Goes (.mapCommitCancel left) c (c.ign (rsv 0xB10) 8)) ∧
    (∀ left, c.wDown = false → c.gb st 3 = false →
      let d := c.sb st 3 true
      (d.gf st 1 2 = 0 → Goes (.mapCommitCancel left) c d) ∧
      (d.gf st 1 2 = 1 → Goes (.mapCommitCancel left) c (d.endReq 4 10)) ∧
      (d.gf st 1 2 = 2 → d.frame + 1 < d.armedAt ∨ (d.armedAt = d.frame + 1 ∧ 8 ≤ left) → Goes (.mapCommitCancel left) c (d.endReq 4 10)) ∧
      (d.gf st 1 2 = 2 → d.armedAt ≤ d.frame ∨ (d.armedAt = d.frame + 1 ∧ left < 8) → Goes (.mapCommitCancel left) c d))

/-- At the boundary an armed commit names, the planes it names flip and the others stay, the planes' SYNCED bits it
names clear, the rings placed by its check come into effect, the request ends COMMITTED, and its copy begins or, with
NOCOPY, the planes unlock at once; the HBM is unchanged. The end of the copy makes the inactive planes named equal to
the active ones, word by word, sets their SYNCED bits and unlocks. Away from that boundary nothing happens. (R260,
R261, R264, R430, Table 8-12) -/
def Obligations.CommitsFlipTheirPlanes : Prop :=
  ∀ (c : Core) (m : List Host.Cell),
    (c.commitDue = false → GoesMem .commitTake c m c []) ∧
    (c.commitDue = true → ∀ q, c.rsvS.req = some q → q.cmd = none → q.capsule = none → ReachesMem .commitTake c m fun d m' =>
      m' = m ∧ d.rsvS.req = none ∧
      d.gb (rsv 0x200) 0 = (c.gb (rsv 0x200) 0 != bitOf q.bits 1) ∧ d.gb (rsv 0x200) 1 = (c.gb (rsv 0x200) 1 != bitOf q.bits 2) ∧
      (bitOf q.bits 1 = true → d.gb (rsv 0x200) 2 = false) ∧ (bitOf q.bits 2 = true → d.gb (rsv 0x200) 3 = false) ∧
      d.gf (rsv 0x208) 1 2 = 0 ∧ d.gf (rsv 0x208) 4 4 = 1 ∧ d.gf (rsv 0x208) 8 4 = 0 ∧
      (bitOf q.bits 4 = true → d.gb (rsv 0x200) 5 = false ∧ d.gb (rsv 0x208) 0 = false) ∧
      (bitOf q.bits 4 = false → d.gb (rsv 0x200) 4 = true ∧ d.rsvS.copy = fld q.bits 1 2) ∧
      d.rsvS.rings.map (fun r => (r.key, r.base, r.cells, r.depth)) = c.rsvS.plan.map (fun r => (r.key, r.base, r.cells, r.depth))) ∧
    (c.rsvS.copy = 3 → Reaches .postCommitCopyEnd c fun d =>
      let a := c.gf (rsv 0x200) 0 1
      let p := c.gf (rsv 0x200) 1 1
      (∀ i, i < 137216 → d.trd (xmap (1 - a) i) = c.trd (xmap a i)) ∧
      (∀ i w, i < 16384 → w < 4 → d.trd (pmap (1 - p) i w) = c.trd (pmap p i w)) ∧
      d.gb (rsv 0x200) 2 = true ∧ d.gb (rsv 0x200) 3 = true ∧ d.gb (rsv 0x200) 4 = false ∧ d.gb (rsv 0x200) 5 = false ∧
      d.gb (rsv 0x208) 0 = false ∧ d.rsvS.copy = 0)

/-- With SR_EN, no ring, no commit request, the store initialised or failed, and the idle frames run, the HBM enters
self-refresh, which its own page and the HIF page show and RSV_SR_CNT counts; where one of these does not hold it does
not. An access to the stack leaves L1, starts the idle frames again, and ends self-refresh with its event. Nothing else
changes. (R27, R274, R275, R458, Table 8-12) -/
def Obligations.SelfRefreshComesAndGoes : Prop :=
  ∀ c : Core,
    (c.gb (rsv 0x40) 9 = true → c.rsvS.rings = [] → c.rsvS.req = none → c.gb (rsv 0x200) 8 = false →
      c.gb (rsv 0x204) 3 = true ∨ c.gb (rsv 0x204) 4 = true → max 1 (c.gf (rsv 0x40) 0 8) ≤ c.rsvS.idle →
      Goes .selfRefreshEntry c (((c.sb (rsv 0x200) 8 true).sb (hif 0x204) 2 true).cn (rsv 0x530) 1)) ∧
    (c.gb (rsv 0x40) 9 = false ∨ c.rsvS.rings ≠ [] ∨ c.rsvS.req ≠ none ∨ c.gb (rsv 0x200) 8 = true ∨
      c.rsvS.idle < max 1 (c.gf (rsv 0x40) 0 8) → Goes .selfRefreshEntry c c) ∧
    (let d := c.leaveL1;
      let e : Core := { d with rsvS := { d.rsvS with idle := 0 } };
      (e.gb (rsv 0x200) 8 = true → Goes .selfRefreshExit c
        (((e.sb (rsv 0x200) 8 false).sb (hif 0x204) 2 false).ev (rsv 0x400) (bit 11))) ∧
      (e.gb (rsv 0x200) 8 = false → Goes .selfRefreshExit c e) ∧
      (c.levS.inL1 = false → d = c) ∧ (c.levS.inL1 = true → d.levS.inL1 = false ∧ d.gb (rsv 0x200) 8 = c.gb (rsv 0x200) 8))

/-- The signature of each VC frame that a copy completes is recorded with its stream position and frame. The oldest recorded becomes its
copy's marker where none is in flight, and marks the other copy's marker where it is equal, its frame not before it and within 1,024
frames; where the row names another than the oldest recorded nothing happens. A match of an unaligned pair counts toward the
confirmation; the last one, within the skew allowance, confirms its offset, leader and skew with ALIGN 2, and beyond
the allowance gives ALIGN 3. A match of an aligned pair at another offset is a miss; a marker unmatched after 1,024
frames too, and enough misses in a row lose the offset. Nothing else changes. (R283, R284, R285, Table 9-3) -/
def Obligations.MarkersAlignTheCopies : Prop :=
  ∀ (c : Core) (n : PairNo), c.pairValid c.mapsNow.p n.val = true → (c.pair n.val).marking = true →
    let x := c.pair n.val
    let set (y : Pair) : Core := c.setPair n.val y
    let kept (d e : Core) : Prop := d = { e with sluS := d.sluS } ∧ ∀ k, k ≠ n.val → d.pair k = c.pair k
    (c.pairsOf c.mapsNow.p = [n.val] → c.recordSigs.pair n.val = { x with
      sigW := x.sigW ++ (c.obj (c.copyKey c.mapsNow.p n.val false)).rx.done.map fun q => (crcOnes 32 0x04C11DB7 false q.1, q.2)
      sigP := x.sigP ++ (c.obj (c.copyKey c.mapsNow.p n.val true)).rx.done.map fun q => (crcOnes 32 0x04C11DB7 false q.1, q.2) }) ∧
    (∀ sig pos f, x.sigW.head? ≠ some (sig, pos, f) → Goes (.vcFrameSignature n false sig pos f) c c) ∧
    (∀ sig pos f, x.sigP.head? ≠ some (sig, pos, f) → Goes (.vcFrameSignature n true sig pos f) c c) ∧
    (∀ (sig pos f : Nat) (rest : List (Nat × Nat × Nat)), x.sigW = (sig, pos, f) :: rest →
      (x.markW = none → x.markP = none → Goes (.vcFrameSignature n false sig pos f) c
        (set { x with sigW := rest, markW := some { sig := sig, pos := pos, frame := f } })) ∧
      (∀ w m : Marker, x.markP = some m → x.markW = some w → m.hit = none → m.sig = sig → m.frame ≤ f → f ≤ m.frame + 1024 →
        Goes (.vcFrameSignature n false sig pos f) c
          (set { x with sigW := rest, markP := some { m with hit := some ((pos + 2 ^ 32 - m.pos) % 2 ^ 32, f - m.frame) } }))) ∧
    (∀ (m : Marker) (off skew : Nat), x.markP = some m → m.hit = some (off, skew) → x.align = 1 →
      let same := match x.cand with | some q => q.1 = off && q.2.1 = true | none => false
      let run := if same then x.candRun + 1 else 1
      let y : Pair := { x with markP := none, cand := some (off, true, skew), candRun := run }
      (run < c.confN → Goes (.markerMatch n true) c (set y)) ∧
      (c.confN ≤ run → skew ≤ c.pairSkew c.mapsNow.p n.val → Reaches (.markerMatch n true) c fun d =>
        d.pair n.val = { y with align := 2, offset := some off, lead := true, skew := skew, missRun := 0, candRun := 0
                                rd := if x.offset = some off ∧ x.lead = true then x.rd else none
                                rdNow := if x.offset = some off ∧ x.lead = true then x.rdNow else none } ∧
        kept d (c.ev (slu 0x400) (bit 1))) ∧
      (c.confN ≤ run → c.pairSkew c.mapsNow.p n.val < skew → Reaches (.markerMatch n true) c fun d =>
        d.pair n.val = { y with align := 3, offset := none, rd := none, rdNow := none, lead := true, skew := skew, missRun := 0, candRun := 0 } ∧
        kept d (c.ev (slu 0x400) (bit 1)))) ∧
    (∀ m : Marker, x.markW = some m → m.hit = none → m.frame + 1024 < c.frame → x.align ≠ 1 → x.missRun + 1 < c.loseN →
      Reaches (.markerMiss n false) c fun d =>
        d.pair n.val = { x with markW := none, missRun := x.missRun + 1, candRun := 0 } ∧ kept d c) ∧
    (∀ m : Marker, x.markW = some m → m.hit = none → m.frame + 1024 < c.frame → x.align = 2 → c.loseN ≤ x.missRun + 1 →
      Reaches (.markerMiss n false) c fun d =>
        d.pair n.val = { x with markW := none, align := 1, offset := none, rd := none, rdNow := none, cand := none, candRun := 0, missRun := 0 } ∧
        kept d (c.ev (slu 0x400) (bit 1)))

/-- For every selector with a confirmed offset, whatever its hold-off and WTR: LO and FS_W choose W, FS_P chooses P;
under neither, a raised SF of P chooses W even where W fails too; else a raised SF of W chooses P; else a raised SD of
P chooses W and one of W chooses P; with no request a revertive selector goes to W and a non-revertive one stays. A
selector without an offset never changes its choice for MS, WTR or no request. Deciding changes only the request code
and the next selection. (R288, R290, R292, Table 9-4) -/
def Obligations.SelectorsObeyTheHighestRequest : Prop :=
  ∀ (x : Pair) (g : SelCfg),
    let y := x.settle g
    let r (i : Nat) : Bool := x.raised.getD i false
    (y = { x with req := y.req, next := y.next }) ∧
    (x.cmd = 1 → y.next = false ∧ y.req = 10) ∧
    (x.cmd = 2 → y.next = true ∧ y.req = 9) ∧
    (x.cmd = 3 → y.next = false ∧ y.req = 8) ∧
    (x.cmd = 0 ∨ 3 < x.cmd → r 2 = true → y.next = false ∧ y.req = 7) ∧
    (x.cmd = 0 ∨ 3 < x.cmd → r 2 = false → r 0 = true → y.next = true ∧ y.req = 6) ∧
    (x.cmd = 0 ∨ 3 < x.cmd → r 2 = false → r 0 = false → r 3 = true → y.next = false ∧ y.req = 5) ∧
    (x.cmd = 0 ∨ 3 < x.cmd → r 2 = false → r 0 = false → r 3 = false → r 1 = true → y.next = true ∧ y.req = 4) ∧
    (x.cmd = 0 → r 0 = false → r 1 = false → r 2 = false → r 3 = false →
      (x.wtr = none → y.req = 0 ∧ y.next = if g.defer && x.offset.isNone then x.next else if g.revert then false else x.next) ∧
      (x.wtr ≠ none → y.req = 1 ∧ y.next = if g.defer && x.offset.isNone then x.next else true)) ∧
    (x.cmd = 4 → r 0 = false → r 1 = false → r 2 = false → r 3 = false →
      y.req = 3 ∧ y.next = if g.defer && x.offset.isNone then x.next else true) ∧
    (x.cmd = 5 → r 0 = false → r 1 = false → r 2 = false → r 3 = false →
      y.req = 2 ∧ y.next = if g.defer && x.offset.isNone then x.next else false)

/-- A condition that has held beyond the hold-off is raised at its end, ends an MS command and stops WTR, and the
selector decides again; before that nothing changes. WTR that has run out ends and the selector decides. An external
command of any kind that the Warden writes is held for the next boundary, or the one after within 8 cycles of it, with
XCMD_BUSY set; while one waits another is refused with cause 0x8; with no Warden running none is written. Nothing else
changes. (R18, R289, R290, R291, R294, R69, R70, Table 9-4) -/
def Obligations.SelectorTimersAndCommandsAct : Prop :=
  ∀ c : Core,
    (∀ (n : PairNo) (p sd : Bool), c.pairValid c.mapsNow.p n.val = true → c.rsvS.held.contains n.val = false →
      let x := c.pair n.val
      let i := (if p then 2 else 0) + (if sd then 1 else 0)
      (x.cond.getD i false = true → x.holdOf (c.pairCfg n.val) i < x.runs.getD i 0 →
        Goes (.sfHoldoffEnd n p sd) c (c.setPair n.val ({ x with
          raised := (List.range 4).map fun j => x.raised.getD j false || decide (j = i)
          cmd := if 4 ≤ x.cmd then 0 else x.cmd, wtr := none, dirty := x.dirty || decide (4 ≤ x.cmd) }.settle (c.pairCfg n.val)))) ∧
      (x.cond.getD i false = false ∨ x.runs.getD i 0 ≤ x.holdOf (c.pairCfg n.val) i →
        Goes (.sfHoldoffEnd n p sd) c (c.setPair n.val x)) ∧
      (x.wtr = some 0 → Goes (.wtrEnd n) c (c.setPair n.val ({ x with wtr := none, dirty := true }.settle (c.pairCfg n.val)))) ∧
      (x.wtr ≠ some 0 → Goes (.wtrEnd n) c (c.setPair n.val x))) ∧
    (∀ (t : BitVec 14) (m : Bool) (left : Nat),
      let d (k : Nat) : Core :=
        let w : Word := BitVec.ofNat 32 (1 + 2 * k + (if m then 16 else 0) + 64 * t.toNat)
        let e := (c.wr (slu 0xB00) (w &&& 0xFFFDE)).sb (slu 0xB04) 0 true
        { e with sluS := { e.sluS with xcmd := some { w := w, skip := if left < 8 then 1 else 0, cmd := none } } }
      (c.wDown = false → c.gb (slu 0xB04) 0 = false →
        Goes (.xcmdClear t m left) c (d 0) ∧ Goes (.xcmdLo t m left) c (d 1) ∧ Goes (.xcmdFsP t m left) c (d 2) ∧
        Goes (.xcmdFsW t m left) c (d 3) ∧ Goes (.xcmdMsP t m left) c (d 4) ∧ Goes (.xcmdMsW t m left) c (d 5)) ∧
      (∀ i ∈ [Instr.xcmdClear t m left, .xcmdLo t m left, .xcmdFsP t m left, .xcmdFsW t m left, .xcmdMsP t m left,
          .xcmdMsW t m left],
        (c.wDown = false → c.gb (slu 0xB04) 0 = true → Goes i c (c.ign (slu 0xB00) 8)) ∧ (c.wDown = true → Goes i c c)))

/-- Twelve frames without an accepted value declare PSBF and one with clears it; 400 frames of mismatch declare CH_MM
and one of agreement clears it; each change raises its event on both ports of the pair. While PSBF stands, a
bidirectional pair goes on its own requests alone. In a bidirectional pair without a protocol failure, a higher far
request makes the local end send RR with the far channel and select PPORT for channel 1 and WPORT otherwise; a far
request no higher leaves the local choice. (R152, R301, R302, R303, Table 9-6) -/
def Obligations.MspPairsReportProtocolFailures : Prop :=
  ∀ c : Core,
    (∀ k : MspNo, mspV (c.msp k.val).eff = true →
      let x := c.msp k.val
      (x.psbf = false → 12 ≤ x.noK →
        Goes (.psbf k) c (((c.setMsp k.val { x with psbf := true }.govern).apsEv x.eff 2).showMsp k.val)) ∧
      (x.psbf = true → x.noK = 0 →
        Goes (.psbf k) c (((c.setMsp k.val { x with psbf := false }.govern).apsEv x.eff 2).showMsp k.val)) ∧
      (x.psbf = false → x.noK < 12 → Goes (.psbf k) c c) ∧
      (x.chMm = false → 400 ≤ x.chRun →
        Goes (.chMm k) c (((c.setMsp k.val { x with chMm := true }.govern).apsEv x.eff 3).showMsp k.val)) ∧
      (x.chMm = true → x.chRun = 0 →
        Goes (.chMm k) c (((c.setMsp k.val { x with chMm := false }.govern).apsEv x.eff 3).showMsp k.val)) ∧
      (x.chMm = false → x.chRun < 400 → Goes (.chMm k) c c)) ∧
    (∀ x : Msp, bitOf x.eff 15 = true → x.chMm = false → x.modeMm = false →
      let l := x.localReq (bitOf x.eff 16)
      let y := x.govern
      (x.psbf = true → y.p = x.p) ∧
      (x.psbf = false → l.1 < x.far → y.p = { x.p with next := decide (x.k1.toNat % 16 = 1) } ∧
        y.tx1.toNat = 0x20 + x.k1.toNat % 16) ∧
      (x.psbf = false → x.far ≤ l.1 → y.p = x.p ∧ (x.k1.toNat / 16 ≠ 4 → y.tx1.toNat = l.1 * 16 + l.2))) ∧
    (∀ (p : Port) (k : Nat), c.mspOf p.val = some k → max 3 (c.gf (pe p.val 0x50) 8 3) ≤ (c.port p.val).kRun →
      Reaches (.k1k2Accept p) c fun d =>
        d.gf (pe p.val 0x210) 0 16 = (c.kAccept p.val).gf (pe p.val 0x210) 0 16 ∧ (d.msp k).noK = 0 ∧
        (d.msp k).k1.toNat = (c.kAccept p.val).gf (pe p.val 0x210) 0 16 % 256 ∧
        (d.msp k).k2.toNat = (c.kAccept p.val).gf (pe p.val 0x210) 0 16 / 256)

/-- With a lane enabled, a heartbeat with a CRC error is only counted and a good one is held as received in the frame; what a device sends is
good and gives its partner the role and the frame number; with no lane none is received.
Three frames without one make a STANDBY or ACTIVE device SOLO and withdraw its yield; a device that has arbitrated its
wait becomes SOLO; unit 1 in a dual state for 8 frames becomes STANDBY. YIELD written by the Warden on an ACTIVE device
with a ready STANDBY partner announces a boundary, at which the device becomes STANDBY; it does nothing on a device of
another role, with no such partner, or with no Warden running, and is refused while one waits; a STANDBY device takes over
at the boundary its partner announced, and takes its partner's frame number once, with nothing waiting for a boundary no more than the
number moving; what then waits is the model's choice (log entry 116). A role change shows the role and raises
its event. (R18, R70, R306, R307, R308, R310, R311, Table 9-8) -/
def Obligations.TheMateChangesRoles : Prop :=
  ∀ c : Core,
    (∀ msg : List Byte, c.gf (slu 0x44) 4 2 ≠ 0 → unle ((msg.drop 60).take 4) ≠ crcOnes 32 0x04C11DB7 false (msg.take 60) →
      Goes (.heartbeatReceive msg) c (c.cn (slu 0x50C) 1)) ∧
    (∀ msg : List Byte, c.gf (slu 0x44) 4 2 ≠ 0 → unle ((msg.drop 60).take 4) = crcOnes 32 0x04C11DB7 false (msg.take 60) →
      Goes (.heartbeatReceive msg) c { c with sluS := { c.sluS with hb := some (hbOf msg), lastHb := some (hbOf msg) } }) ∧
    (∀ msg : List Byte, c.gf (slu 0x44) 4 2 = 0 → Goes (.heartbeatReceive msg) c c) ∧
    (hbGood c.heartbeatMsg = true ∧ (hbOf c.heartbeatMsg).role.val = c.role ∧ (hbOf c.heartbeatMsg).frame = BitVec.ofNat 64 c.frame) ∧
    (3 ≤ c.sluS.missed → c.role = 2 ∨ c.role = 3 →
      let d := (c.setRole 4).ev (slu 0x400) (bit 4)
      Goes .partnerLost c ({ d with sluS := { d.sluS with yieldAt := none } }.sb (slu 0x200) 8 false)) ∧
    (c.sluS.missed < 3 → Goes .partnerLost c c) ∧
    (c.role = 1 → (if c.gf (slu 0x44) 8 13 = 0 then 8000 else c.gf (slu 0x44) 8 13) ≤ c.sluS.arb →
      Goes .arbitrateTimeout c (c.setRole 4)) ∧
    (c.role ≠ 1 → Goes .arbitrateTimeout c c) ∧
    (c.role = 3 ∨ c.role = 4 → c.unit = true → 8 ≤ c.sluS.dual → Goes .dualResolve c (c.setRole 2)) ∧
    (c.unit = false → Goes .dualResolve c c) ∧
    (∀ h, c.wDown = false → c.gb (slu 0x200) 8 = false → c.role = 3 → c.sluS.lastHb = some h → h.role.val = 2 →
      h.flags.getLsbD 2 = true → Goes .yield c ({ c with sluS := { c.sluS with yieldAt := some ((c.frame + 9) % 2 ^ 32) } }.sb (slu 0x200) 8 true)) ∧
    (c.wDown = false → c.gb (slu 0x200) 8 = true → Goes .yield c (c.ign (slu 0xB08) 8)) ∧
    (c.wDown = true → Goes .yield c c) ∧
    (c.gb (slu 0x200) 8 = false → c.role ≠ 3 → Goes .yield c c) ∧
    (c.gb (slu 0x200) 8 = false → (∀ h, c.sluS.lastHb = some h → h.role.val ≠ 2 ∨ h.flags.getLsbD 2 = false) → Goes .yield c c) ∧
    (c.role = 3 → c.sluS.yieldAt = some (c.frame % 2 ^ 32) →
      Goes .yieldTake c (({ c with sluS := { c.sluS with yieldAt := none } }.setRole 2).sb (slu 0x200) 8 false)) ∧
    (∀ h, c.role = 2 → c.sluS.lastHb = some h → h.flags.getLsbD 1 = true → h.yieldAt.toNat = c.frame % 2 ^ 32 →
      Goes .yieldTake c (c.setRole 3)) ∧
    (∀ h, c.role = 2 → c.sluS.took = false → c.sluS.lastHb = some h → c.snpS.req = none → c.gf (rsv 0x208) 1 2 ≠ 2 →
      Goes .frameNumberTake c { c with frame := h.frame.toNat + 1, pmSec := (h.frame.toNat + 1) / 8000, pmSuspect := 2
                                       sluS := { c.sluS with took := true, differ := 0 } }) ∧
    (∀ h, c.role = 2 → c.sluS.took = false → c.sluS.lastHb = some h → Reaches .frameNumberTake c fun d =>
      d.frame = h.frame.toNat + 1 ∧ d.pmSec = (h.frame.toNat + 1) / 8000 ∧ d.pmSuspect = 2 ∧ d.sluS.took = true) ∧
    (c.sluS.took = true → c.sluS.differ < 8 → Goes .frameNumberTake c c) ∧
    (∀ r, 0 < r → r < 8 → c.role ≠ r →
      let d := c.setRole r
      d.role = r ∧ d.gb (slu 0x400) 3 = true ∧ d.sluS.mateIdle = ((r = 1 || r = 2) && !c.gb (slu 0x44) 2) ∧
      RegsOnly [slu 0x200, slu 0x400] c { d with sluS := c.sluS })

/-- The active device with mirroring on sends one message of at most 32 records and marks what it sent; a standby
adopts the command and the WTR of each record of a pair in effect, and ignores a record of no target. A lane that
locks or is lost shows in SLU_STATE with its event; the loss of the last enabled lane is reported to the Spillway.
Otherwise nothing changes. (R305, R307, R309, Table 9-10, Table 9-12) -/
def Obligations.MateMessagesAndLanes : Prop :=
  ∀ c : Core,
    (c.role = 3 → c.gb (slu 0x44) 3 = true → Reaches .mirrorSend c fun d =>
      ∃ rs : List Byte, d.sluS.out = c.sluS.out ++ [le 1 2 ++ rs] ∧ rs.length % 8 = 0 ∧ rs.length ≤ 256 ∧
        d = { c with sluS := d.sluS } ∧ (∀ n, (d.pair n).cmd = (c.pair n).cmd ∧ (d.pair n).wtr = (c.pair n).wtr ∧ (d.pair n).sel = (c.pair n).sel)) ∧
    (c.role ≠ 3 → Goes .mirrorSend c c) ∧
    (∀ r : MirrorRec, c.role = 2 → c.gb (slu 0x44) 3 = true → r.target < 16384 → c.pairValid c.mapsNow.p r.target = true →
      c.sluS.mirIn = [] → Goes (.mirrorReceive [r]) c
        (({ c with sluS := { c.sluS with mirIn := Sparse.put (fun _ => 0) [] r.target c.frame } }).setPair r.target
          { c.pair r.target with cmd := if r.cmd.val ≤ 5 then r.cmd.val else 0, wtr := if r.wtr = 0 then none else some r.wtr })) ∧
    (∀ rs, c.role ≠ 2 → Goes (.mirrorReceive rs) c c) ∧
    (∀ lane : Bool,
      let b := if lane then 4 else 3
      (c.gb (lev 0x204) 6 = true → c.gb (slu 0x200) b = false →
        Goes (.mateLaneUp lane) c ((c.sb (slu 0x200) b true).ev (slu 0x400) (bit 8))) ∧
      (c.gb (slu 0x200) b = true → Goes (.mateLaneUp lane) c c) ∧
      (c.gb (slu 0x200) b = true → c.gb (slu 0x44) 0 = false →
        Goes (.mateLaneDown lane) c ((c.sb (slu 0x200) b false).ev (slu 0x400) (bit 8))) ∧
      (c.gb (slu 0x200) b = true → c.gb (slu 0x44) 0 = true → c.gb (slu 0x200) (7 - b) = false →
        Goes (.mateLaneDown lane) c (((c.sb (slu 0x200) b false).ev (slu 0x400) (bit 8)).report 109)) ∧
      (c.gb (slu 0x200) b = false → Goes (.mateLaneDown lane) c c))

/-- The first input event of a running Gauge since its reset is taken as it is and each later one nearest the one before,
the arrival of the partner's timing marker less its fixed latency and TIM_MATE_DLY; the latency in whole q is the model's
choice (log entry 109). A due output sample raises GA_SEQ by one, shows the filtered value with VALID once T + 14 samples have been
produced and otherwise counts as invalid. A port is a source while it is aligned and not failed, a pin while in use with an edge in each
of its last 4 periods, the mate after three frames with its marker. A source found absent clears PRESENT, VALID, GA_SEQ and the filter; one
found present sets PRESENT and resets the Gauge. SRST asks for a reset at the next boundary and shows it; SYNC asks
for one of every running Gauge; either while its companion shows is recorded with cause 0x8. A coefficient access
reads or writes the addressed tap and steps on; one past Gauge 11 or into a running Gauge's active bank is recorded.
SWAP of a running Gauge waits for its next output. (R316, R317, R318, R319, R321, R322, R323, R339, Table 10-12, Table
10-13) -/
def Obligations.GaugesMeasureTheirInputs : Prop :=
  ∀ (c : Core) (g : GaugeNo),
    let e := Arrives c
    let x := c.gauge g.val
    let a := gaR g.val 0
    let i := g.val / 12
    (c.gaugeOn g.val = true → x.reset = false → c.gb (gaR g.val 0x18) 5 = true →
      let late : Nat := if c.gf (gaR g.val 4) 0 8 = 100 then 63701 + c.gf (tim 0x4C) 0 24 else 0
      let b : Core := if c.gf (gaR g.val 4) 0 8 = 100 then { c with timS := { c.timS with mark := true } } else c
      (∀ ph : Nat, x.ph = none →
        Goes (.gaugeInputEvent g ph) c (b.setGauge g.val { x with ph := some (((ph : Int) - late) % 4976640) })) ∧
      (∀ (ph : Nat) (q v : Int), x.ph = some q → (v - ((ph : Int) - late)) % 4976640 = 0 → 2 * (v - q) ≤ 4976640 → -4976640 < 2 * (v - q) →
        v < 2 ^ 39 → -(2 ^ 39) < v → Goes (.gaugeInputEvent g ph) c (b.setGauge g.val { x with ph := some v }))) ∧
    (∀ m, x.due = true → c.gaugeOn g.val = true → x.swap = none → c.selNow = none → c.timS.fade = none → c.gb (ga i 0x40) 0 = false →
      let y := stageOut 32 (c.gf (gaR g.val 0xC) 15 5)
        (dot ((List.range (c.gaT g.val)).map fun k => (c.coefAt g.val (c.gb (gaR g.val 0x18) 1) k).toInt) x.fir)
      ReachesMem (.gaugeOutputSample g) c m fun d m' => m' = m ∧ (d.gauge g.val).due = false ∧
        d.rd (gaR g.val 0x1C) = BitVec.ofNat 32 ((c.rd (gaR g.val 0x1C)).toNat + 1) ∧
        (c.gaT g.val + 14 ≤ (c.rd (gaR g.val 0x1C)).toNat + 1 →
          d.gb (gaR g.val 0x18) 0 = true ∧ d.rd (gaR g.val 0x20) = BitVec.ofInt 32 y.1 ∧ (d.gauge g.val).last = y.1) ∧
        ((c.rd (gaR g.val 0x1C)).toNat + 1 < c.gaT g.val + 14 → c.gb (gaR g.val 0x18) 0 = false →
          (d.gauge g.val).last = x.last ∧ d.gb (gaR g.val 0x18) 0 = false)) ∧
    (∀ ages, c.en (0xA + i) = true → c.gb (gaR g.val 0x18) 5 = true → c.srcUp (c.gf (gaR g.val 4) 0 8) ages = false → Reaches (.inputLost ⟨g, ages⟩) c fun d =>
      d.gb (gaR g.val 0x18) 5 = false ∧ d.gb (gaR g.val 0x18) 0 = false ∧ d.rd (gaR g.val 0x1C) = 0 ∧ (d.gauge g.val).ph = none ∧
      (d.gauge g.val).n = 0 ∧ (d.gauge g.val).fir = [] ∧ ∀ j, j ≠ g.val → d.gauge j = c.gauge j) ∧
    (∀ ages, c.en (0xA + i) = true → c.gb (gaR g.val 0x18) 5 = false → c.srcUp (c.gf (gaR g.val 4) 0 8) ages = true → Reaches (.inputBack ⟨g, ages⟩) c fun d =>
      d.gb (gaR g.val 0x18) 5 = true ∧ d.gauge g.val = { x with reset := true } ∧ ∀ j, j ≠ g.val → d.gauge j = c.gauge j) ∧
    (∀ ages, c.srcUp (c.gf (gaR g.val 4) 0 8) ages = true → Goes (.inputLost ⟨g, ages⟩) c c) ∧
    (∀ ages, c.srcUp (c.gf (gaR g.val 4) 0 8) ages = false → Goes (.inputBack ⟨g, ages⟩) c c) ∧
    (∀ (s : Nat) (ages : List Nat),
      (s < 96 → c.srcUp s ages = (decide (5 ≤ c.pst s) && !c.portSf s)) ∧
      (96 ≤ s → s < 100 → c.gf (tim 0x48) (4 * (s - 96)) 2 = 0 → (c.srcUp s ages = true ↔ c.gb (tim 0x48) (4 * (s - 96) + 2) = true ∧
        ∀ j, j < 4 → ∃ a ∈ ages, j * 4976640 ≤ a ∧ a < (j + 1) * 4976640)) ∧
      (c.srcUp 100 ages = true ↔ c.mateOn = true ∧ 3 ≤ c.timS.marks)) ∧
    (Open c 4 →
      (Quiet e a ((c.rd a &&& 9) ||| 2) → (Stored e a ((c.rd a &&& 9) ||| 2) 9).gb a 8 = false →
        Answers (.gaugeSrst g) c (((Stored e a ((c.rd a &&& 9) ||| 2) 9).gaugeReset g.val).sb a 8 true) .done) ∧
      (Quiet e a ((c.rd a &&& 9) ||| 2) → (Stored e a ((c.rd a &&& 9) ||| 2) 9).gb a 8 = true →
        Answers (.gaugeSrst g) c ((Stored e a ((c.rd a &&& 9) ||| 2) 9).ign a 8) .done) ∧
      (Quiet e (tim 0xB38) 1 → (Stored e (tim 0xB38) 1 0).gb (tim 0xB38) 1 = false →
        Answers .gaugeSyncAll c (Stored e (tim 0xB38) 1 0).gaSync .done) ∧
      (∀ dst : Bool,
        let v : Word := (c.rd a &&& 1) ||| 4 ||| if dst then 8 else 0
        let d := Stored e a v 9
        Quiet e a v → d.gb a 0 = true → d.gb (gaR g.val 0x18) 2 = false → d.gb (gaR g.val 0x18) 1 ≠ dst →
        Answers (.gaugeSwap g dst) c (d.setGauge g.val { d.gauge g.val with swap := some dst }) .done) ∧
      (∀ p1 : Bool, let j := if p1 then 1 else 0
        Answers (.gaCoefDataAccess p1 none) c ((e.coefStep j).used (ga j 0xE04)) (.data (e.coefRead j)) ∧
        (∀ v : Word, 12 ≤ e.gf (ga j 0xE00) 0 4 →
          Answers (.gaCoefDataAccess p1 (some v)) c ((e.ign (ga j 0xE04) 5).coefStep j) .done) ∧
        (∀ v : Word, e.gf (ga j 0xE00) 0 4 < 12 →
          let k := 12 * j + e.gf (ga j 0xE00) 0 4
          let b := e.gb (ga j 0xE00) 4
          e.gb (gaR k 0) 0 = false →
          let d := e.sb (ga j 0xE08) 0 false
          let at_ := k * 128 + (if b then 64 else 0) + e.gf (ga j 0xE00) 5 6
          let new := Sparse.put (fun _ => 0) d.timS.coef at_ (v.extractLsb' 0 20)
          Answers (.gaCoefDataAccess p1 (some v)) c ({ d with timS := { d.timS with coef := new } }.coefStep j) .done))) ∧
    (∀ (d : Core), d.gaSync.gauge g.val = (if d.gaugeOn g.val then { d.gauge g.val with reset := true } else d.gauge g.val) ∧
      d.gaSync.gb (tim 0xB38) 1 = true)

/-- ACQUIRE with the phase within its window for 16,000 frames becomes LOCKED, and LOCKED with it outside for 800
becomes ACQUIRE and counts; each with its event. A hold-off that ends in BRIDGE with nothing to select leads to
HOLDOVER with a frequency history and FREERUN without one. A WTR that has run out ends with its event. A TIM_CMD is
held for the next boundary, or the one after within 8 cycles of it, with BUSY shown and its result cleared, and while
BUSY shows another is recorded with cause 0x8. Enabling TIM starts D06 at frame 0 in FREERUN, disabling it stops D06
and idles every lane. (R326, R327, R329, R331, R334, R335, R70, Table 10-5, Table 10-11) -/
def Obligations.TheLoopLocksAndSelects : Prop :=
  ∀ c : Core,
    let e := Arrives c
    let moved (st : Nat) : Core :=
      let d := (c.sf (tim 0x200) 0 3 st).ev (tim 0x400) (bit 0)
      { d with timS := { d.timS with lockRun := 0, lossRun := 0 } }
    (c.loop = 1 → 16000 ≤ c.timS.lockRun → Goes .loopLock c (moved 2)) ∧
    (c.timS.lockRun < 16000 → Goes .loopLock c c) ∧
    (c.loop = 2 → 800 ≤ c.timS.lossRun → Goes .loopLockLoss c ((moved 1).cn (tim 0x508) 1)) ∧
    (c.timS.lossRun < 800 → Goes .loopLockLoss c c) ∧
    (c.loop = 4 → min 18 (c.gf (tim 0xB00) 0 5) * 800 ≤ c.timS.hold → c.selNow = none → c.selChoice = none →
      Reaches .refHoldoffEnd c fun d => d.loop = (if c.hoSeconds = [] then 0 else 3) ∧ d.selNow = none) ∧
    (c.loop ≠ 4 → Goes .refHoldoffEnd c c) ∧
    (∀ n : Fin 8, (c.selIn n.val).wtr = some 0 → Goes (.refWtrEnd n) c
      (((c.setSelIn n.val { c.selIn n.val with wtr := none }).showSi n.val).ev (tim 0x400) (bit 2))) ∧
    (∀ n : Fin 8, (c.selIn n.val).wtr ≠ some 0 → Goes (.refWtrEnd n) c c) ∧
    (∀ (n : Fin 8) (set : Bool) (left : Nat), Open c 4 →
      ∀ q ∈ [(Instr.timCmdForce n left, 3 + 8 * n.val), (.timCmdManual n left, 5 + 8 * n.val),
        (.timCmdLockout n set left, 7 + 8 * n.val + if set then 64 else 0), (.timCmdClear left, 1)],
      let w : Word := BitVec.ofNat 32 q.2
      let d := Stored e (tim 0xB30) w 0x7E
      Quiet e (tim 0xB30) w →
      (d.gb (tim 0xB34) 0 = false → Answers q.1 c
        { (((d.sf (tim 0xB34) 1 2 0).sf (tim 0xB34) 3 3 0).sb (tim 0xB34) 0 true) with
          timS := { d.timS with cmd := some (d.rd (tim 0xB30) ||| 1, if left < 8 then 1 else 0) } } .done) ∧
      (d.gb (tim 0xB34) 0 = true → Answers q.1 c (d.ign (tim 0xB30) 8) .done)) ∧
    (Open c 4 → Quiet e (tim 4) ((c.rd (tim 4) &&& 4) ||| 1) → c.parMis = [] → c.ct1 = [] → c.ct2 = [] → c.en 0xD = false →
      Reaches .timEnable c fun d =>
        d.en 0xD = true ∧ d.d06 = true ∧ d.frame = 0 ∧ d.pmSec = 0 ∧ d.loop = 0 ∧ d.selNow = none ∧ d.linkOut = [.done]) ∧
    (Open c 4 → Quiet e (tim 4) (c.rd (tim 4) &&& 4) → c.ct1 = [] → c.ct2 = [] → c.en 0xD = true →
      Reaches .timDisable c fun d => d.en 0xD = false ∧ d.d06 = false ∧ ∀ p, p < 96 → d.gb (pe p 0x200) 6 = false ∧ (d.port p).txRate = 0)

/-- A read of the head word answers it and claims the head of the selected queue. A POP of the claimed packet takes it
off the queue, shows POP_BUSY and raises EMPTY when no committed packet is left; without a claim it changes nothing,
and while POP_BUSY shows it is recorded with cause 0x8. The release of its blocks clears POP_BUSY. A change of WQ_RSEL
ends the claim of the queue it leaves. A flush discards every committed packet and no open one and shows FLUSH_BUSY, and
while that shows it is recorded with cause 0x8. An open packet that
needs a block of a full queue is dropped whole, and what its source then still gives of it is passed over. A crossing that is due is shown once. (R350, R352, R354, R356, R357,
R363, R70, Table 11-4, Table 11-5) -/
def Obligations.QueuesGiveTheirHeads : Prop :=
  ∀ c : Core,
    let e := Arrives c
    (Open c 5 →
      let n := e.gf (wq 0xB00) 0 4
      (∀ k, (e.queue n).head = some k → e.en 0xC = true → Answers .headClaim c
        ((e.putQueue n { e.queue n with claim := some k.id }).showHead.used (wq 0xB04)) (.data (e.view (wq 0xB04)))) ∧
      ((e.queue n).head = none → Answers .headClaim c (e.used (wq 0xB04)) (.data (e.view (wq 0xB04)))) ∧
      (∀ r : Fin 8,
        let v : Word := BitVec.ofNat 32 (1 + r.val * 2)
        let d := Stored e (wq 0xB0C) v 0xE
        Quiet e (wq 0xB0C) v →
        (d.gb (wq 0xB0C) 8 = true → Answers (.pop r) c (d.ign (wq 0xB0C) 8) .done) ∧
        (d.gb (wq 0xB0C) 8 = false → (e.queue n).claim = none → Answers (.pop r) c d .done) ∧
        (∀ i, d.gb (wq 0xB0C) 8 = false → (e.queue n).claim = some i →
          let ps := (e.queue n).pkts.filter (·.id ≠ i)
          let f := (d.setQueue n { e.queue n with pkts := ps, claim := none, freeing := some i }).sb (wq 0xB0C) 8 true
          Answers (.pop r) c (if ps.any (·.done) then f else f.qEv n (bit 5)) .done)) ∧
      (∀ q : QueueNo,
        let v : Word := BitVec.ofNat 32 q.val
        let d := Stored e (wq 0xB00) v 0xF
        Quiet e (wq 0xB00) v →
        (e.gf (wq 0xB00) 0 4 = q.val → d.gf (wq 0xB00) 0 4 = q.val → Answers (.wqRselWrite q) c d .done) ∧
        (e.gf (wq 0xB00) 0 4 ≠ q.val → d.gf (wq 0xB00) 0 4 = q.val →
          Answers (.wqRselWrite q) c (d.putQueue n { e.queue n with claim := none }).showHead .done)) ∧
      (∀ q : QueueNo,
        let v : Word := BitVec.ofNat 32 (q.val + 16)
        let d := Stored e (wq 0xB1C) v 0xF
        let x := e.queue q.val
        let gone := (x.pkts.filter (·.done)).map (·.id)
        let kept : Queue := { x with
          pkts := x.pkts.filter fun k => !k.done, claim := none
          blocks := x.blocks.map fun b => match b with | some i => if gone.contains i then none else b | none => b }
        Quiet e (wq 0xB1C) v → d.gf (wq 0xB1C) 0 4 = q.val →
        (d.gb (wq 0xB1C) 8 = false →
          Answers (.flush q) c (((d.setQueue q.val kept).settleOpen q.val).sb (wq 0xB1C) 8 true) .done) ∧
        (d.gb (wq 0xB1C) 8 = true → Answers (.flush q) c (d.ign (wq 0xB1C) 8) .done))) ∧
    (c.gb (wq 0xB0C) 8 = true → Reaches .popDone c fun d => d.gb (wq 0xB0C) 8 = false ∧ ∀ q, q < 16 →
      (d.queue q).freeing = none ∧ (((c.queue q).pkts.all fun k => k.done || k.need = 0) = true →
        (d.queue q).pkts = (c.queue q).pkts ∧ (d.queue q).claim = (c.queue q).claim)) ∧
    (c.gb (wq 0xB0C) 8 = false → Goes .popDone c c) ∧
    (∀ (q : QueueNo) (src : Nat) (k : Pkt), (c.queue q.val).pkts = [k] → k.done = false → k.src = src → 0 < k.need →
      c.qSize q.val ≤ (c.queue q.val).blocks.length →
      let d := ((c.setQueue q.val { c.queue q.val with
        pkts := [], blocks := dropBlocks k.id (c.queue q.val).blocks, seq := ((c.queue q.val).seq + 1) % 65536 }).qEv q.val (bit 2)).cn
          (wq (0x500 + 4 * q.val)) 1
      Goes (.packetDrop q src) c (if k.ended then d else { d with weirS := { d.weirS with skip := d.weirS.skip ++ [src] } })) ∧
    (∀ (q : QueueNo), (c.queue q.val).hiDue = true → (c.queue q.val).loDue = false → Goes (.watermarkCrossing q) c
      ((c.putQueue q.val { c.queue q.val with hiDue := false, loDue := false }).qEv q.val (bit 0 ||| 0))) ∧
    (∀ (q : QueueNo), (c.queue q.val).hiDue = false → (c.queue q.val).loDue = false → Goes (.watermarkCrossing q) c c)

/-- A write of WQ_WHDR discards a host packet that is still open and shows it superseded; with a bad header it then opens
nothing and shows that, with EN = 0 it opens nothing, with a good one and no room the packet is dropped whole, and with room
it opens a packet of as many zero bytes. A word of the write window replaces the four bytes at its place and no others.
COMMIT numbers the packet next in its queue, makes it visible and shows its number; ABORT discards it and counts it; with no
packet open each is ignored; each shows WBUSY, and while that shows it is recorded with cause 0x8. (R347, R348, R349, R350,
R352, R358, R69, R70, Table 11-5) -/
def Obligations.HostPacketsAreOpenedFilledAndSent : Prop :=
  ∀ c : Core, Open c 5 →
    let e := Arrives c
    (∀ h : Word,
      let d := Stored e (wq 0xB10) h all32
      let b : Core := match e.weirS.host with
        | some i => ({ d with weirS := { d.weirS with host := none } }.discard (d.hostQueue i) i false).wStat 0 5
        | none => d.sf (wq 0xB18) 0 2 0
      let n := fld h 0 13
      let good : Prop := fld h 16 4 = 2 ∧ fld h 20 7 ≤ 95 ∧ 2 ≤ n ∧ n ≤ 4096
      let id := b.weirS.nextId
      let o := b.openPkt b.txq 289 (h &&& 0x0FFFFFFF) (List.replicate n 0)
      let room := b.qSize b.txq - (b.queue b.txq).blocks.length
      (b.en 0xC = false → Answers (.packetOpen h) c b .done) ∧
      (b.en 0xC = true → ¬good → Answers (.packetOpen h) c (b.wStat 0 3) .done) ∧
      (b.en 0xC = true → good → room < pktBlocks n → Answers (.packetOpen h) c ((o.discard b.txq id true).wStat 2 2) .done) ∧
      (b.en 0xC = true → good → pktBlocks n ≤ room →
        let f := o.takeBlocks b.txq id
        Answers (.packetOpen h) c ({ f with weirS := { f.weirS with host := some id } }.wStat 1 (fld (f.rd (wq 0xB18)) 2 3)) .done)) ∧
    (∀ (o : Fin 128) (v : Word) (i : Nat), e.weirS.host = some i →
      let at_ := e.gf (wq 0xB14) 2 3 * 512 + 4 * o.val
      let q := e.hostQueue i
      Answers (.writeWindowWrite o v) c (e.putQueue q { e.queue q with pkts := (e.queue q).pkts.map fun k =>
        if k.id = i then { k with bytes := k.bytes.zipIdx.map fun b =>
          if at_ ≤ b.2 ∧ b.2 < at_ + 4 then v.extractLsb' (8 * (b.2 - at_)) 8 else b.1 } else k }) .done) ∧
    (∀ (o : Fin 128) (v : Word), e.weirS.host = none → Answers (.writeWindowWrite o v) c e .done) ∧
    (let v : Word := (c.rd (wq 0xB14) &&& 0x1C) ||| 1
      let d := Stored e (wq 0xB14) v 0x1C
      Quiet e (wq 0xB14) v →
      (d.gb (wq 0xB14) 8 = true → Answers .packetCommit c (d.ign (wq 0xB14) 8) .done) ∧
      (d.gb (wq 0xB14) 8 = false → e.weirS.host = none → Answers .packetCommit c (d.sb (wq 0xB14) 8 true) .done) ∧
      (∀ i, d.gb (wq 0xB14) 8 = false → e.weirS.host = some i →
        let q := d.hostQueue i
        let f := ({ d with weirS := { d.weirS with host := none } }.commitPkt q i).wStat 0 1
        Answers .packetCommit c ((f.sf (wq 0xB18) 16 16 (f.queue q).seq).sb (wq 0xB14) 8 true) .done)) ∧
    (let v : Word := (c.rd (wq 0xB14) &&& 0x1C) ||| 2
      let d := Stored e (wq 0xB14) v 0x1C
      Quiet e (wq 0xB14) v →
      (d.gb (wq 0xB14) 8 = true → Answers .packetAbort c (d.ign (wq 0xB14) 8) .done) ∧
      (d.gb (wq 0xB14) 8 = false → e.weirS.host = none → Answers .packetAbort c (d.sb (wq 0xB14) 8 true) .done) ∧
      (∀ i, d.gb (wq 0xB14) 8 = false → e.weirS.host = some i → Answers .packetAbort c
        ((({ d with weirS := { d.weirS with host := none } }.discard (d.hostQueue i) i false).wStat 0 4).sb (wq 0xB14) 8 true) .done)) ∧
    (∀ (d : Core) (n i : Nat), ((d.commitPkt n i).queue n).seq = ((d.queue n).seq + 1) % 65536 ∧
      (∀ k ∈ ((d.commitPkt n i).queue n).pkts, k.id = i → k.done = true ∧ k.seq = ((d.queue n).seq + 1) % 65536))

/-- For every profile of width 1 to 64 whose polynomial, initial value and final XOR fit its width, every starting
value that fits it, every fold but one and every stream: a verifying job over the stream followed by the value a plain
job gives for it, least significant byte first, ends MATCH with that value; and with the check bytes in the other
order when the job says so. A stream with another value in that place never ends MATCH. (R367, R368, R369, R370, R371) -/
def Obligations.ACheckedStreamMatches : Prop :=
  ∀ (q : Profile) (j fold : Word) (init : Nat) (bs : List Byte), 1 ≤ q.width → q.width ≤ 64 → q.poly < 2 ^ q.width →
    q.init < 2 ^ q.width → q.xorout < 2 ^ q.width → init < 2 ^ q.width → bitOf j 8 = true →
    let v := (cuCompute q (j &&& ~~~(bit 8)) fold init bs).2.1
    v < 2 ^ q.width ∧
    (bitOf j 9 = false → cuCompute q j fold init (bs ++ le q.checkBytes v) = (cuMatch, v, 0)) ∧
    (bitOf j 9 = true → cuCompute q j fold init (bs ++ (le q.checkBytes v).reverse) = (cuMatch, v, 0)) ∧
    (∀ w, w < 2 ^ q.width → w ≠ v → bitOf j 9 = false → (cuCompute q j fold init (bs ++ le q.checkBytes w)).1 ≠ cuMatch)

/-- START on a closed unit with a usable profile opens a job at its initial value and clears the last result; one with
an unusable profile ends REFUSED with cause 1. A write of CU_DIN adds its four bytes to the selected open job and
shows the running value; with no open job it does nothing. FINISH makes an open job busy and its result is the
computation over its bytes; SUSPEND ends it with its running value; ABORT ends it with cause 5 and shows its busy bit. A command job whose
range holds poison ends POISONED. Commands against a companion that shows are recorded with cause 0x8. (R367, R373,
R374, R375, R376, R377, R70, Table 12-3, Table 12-4) -/
def Obligations.CheckUnitsRunTheirJobs : Prop :=
  ∀ (c : Core) (u : UnitNo),
    let e := Arrives c
    let a := cuR u.val 0
    let v (k : Word) : Word := (c.rd a &&& 0x30) ||| k
    let d (k : Word) : Core := (Stored e a (v k) 0x30).sf a 4 2 (fld ((Stored e a (v k) 0x30).rd a &&& 0x30 ||| k) 4 2)
    (Open c 5 → e.cuCmd u.val = false → (∀ k ∈ [(1 : Word), 4, 8], Quiet e a (v k)) →
      ((d 1).cuOpen u.val = false → e.en 9 = true → Answers (.cuStart u) c ((d 1).cuStart u.val none) .done) ∧
      ((d 1).cuOpen u.val = true → Answers (.cuStart u) c ((d 1).ign a 8) .done) ∧
      ((d 4).cuOpen u.val = true → (d 4).gb a 8 = false → Answers (.cuSuspend u) c
        (((d 4).setCuVal u.val ((d 4).cuRunning u.val)).cuEnd u.val cuSuspended 0 0 ((d 4).cuHeld u.val ((d 4).cuJob u.val).bytes.length)) .done) ∧
      ((d 8).cuOpen u.val = true → (d 8).gb a 10 = false → Answers (.cuAbort u) c (((d 8).cuAbortJob u.val 5).sb a 10 true) .done) ∧
      ((d 8).gb a 10 = true → Answers (.cuAbort u) c ((d 8).ign a 8) .done) ∧
      ((d 4).cuOpen u.val = false → (d 4).gb a 8 = false → Answers (.cuSuspend u) c (d 4) .done) ∧
      ((d 8).cuOpen u.val = false → (d 8).gb a 10 = false → Answers (.cuAbort u) c (d 8) .done)) ∧
    (Open c 5 → e.cuCmd u.val = false → ∀ t : Fin 4,
      let w : Word := BitVec.ofNat 32 (2 + t.val * 16)
      let f := (Stored e a w 0x30).sf a 4 2 (fld ((Stored e a w 0x30).rd a &&& 0x30 ||| 2) 4 2)
      Quiet e a w → f.cuOpen u.val = true → f.gb a 8 = false → fld ((Stored e a w 0x30).rd a &&& 0x30 ||| 2) 4 2 = t.val →
        let x := e.cuJob u.val
        let bs := if x.bytes = [] ∨ t.val = 0 then x.bytes else x.bytes.take (x.bytes.length - (4 - t.val))
        Answers (.cuFinish u t) c ((f.setCuJob u.val { x with bytes := bs }).sb a 8 true) .done) ∧
    (Open c 5 → ∀ w : Word, e.gf (cuP 0xB00) 0 5 = u.val → e.cuCmd u.val = false →
      (e.cuOpen u.val = true → e.gb a 8 = false →
        let x := e.cuJob u.val
        let f := e.setCuJob u.val { x with bytes := x.bytes ++ le 4 w.toNat }
        let f2 := f.sf a 16 4 (f.cuHeld u.val (x.bytes.length + 4))
        Answers (.cuDinWrite w) c (f2.setCuVal u.val (f2.cuRunning u.val)) .done) ∧
      (e.cuOpen u.val = false → Answers (.cuDinWrite w) c e .done)) ∧
    (∀ m, c.cuOpen u.val = true → c.en 9 = true → (c.cuJob u.val).cmd = none → c.gb a 8 = true → c.gb (cuR u.val 4) 8 = false →
      let q := c.profile (fld (c.rd (cuR u.val 4)) 0 4)
      let r := cuCompute q (c.rd (cuR u.val 4)) (c.rd (cuR u.val 8)) (c.cuJob u.val).init (c.cuJob u.val).bytes
      GoesMem (.cuResult u) c m ((c.setCuVal u.val r.2.1).cuEnd u.val r.1 0 r.2.2 0) []) ∧
    (∀ m, c.cuOpen u.val = false → GoesMem (.cuResult u) c m c []) ∧
    (∀ id o n, (c.cuJob u.val).cmd = some (id, o, n) → c.cuOpen u.val = true → c.en 9 = true → c.orPoison o n = true →
      Goes (.cuPoisoned u) c ((c.cuLose u.val).cuEnd u.val cuPoisonedR 0 0 0)) ∧
    ((c.cuJob u.val).cmd = none → Goes (.cuPoisoned u) c c) ∧
    (∀ b : Core,
      let j := b.rd (cuR u.val 4)
      let q := b.profile (fld j 0 4)
      (fld j 0 4 ≤ 9 → 1 ≤ q.width → q.width ≤ 64 → fld j 4 2 ≠ 3 → bitOf j 10 = false →
        let f := b.cuStart u.val none
        f.cuOpen u.val = true ∧ f.gb a 8 = false ∧ f.cuJob u.val = { init := q.start (fld j 4 2) (b.rd (cuR u.val 8)).toNat } ∧
          f.gf a 12 4 = 0) ∧
      (9 < fld j 0 4 → b.cuStart u.val none = (b.setCuJob u.val {}).cuEnd u.val cuRefused 1 0 0) ∧
      (∀ res, 1 ≤ res → res ≤ 8 → (b.cuJob u.val).cmd = none →
        let f := b.cuEnd u.val res 0 0 0
        f.cuOpen u.val = false ∧ f.gb a 8 = false ∧ f.gf a 12 4 = res ∧ f.cuJob u.val = {} ∧ f.gb (cuP 0x400) u.val = true))

/-- Asserting PERST_N takes the link down, withdraws every outstanding command without a completion and counts them,
and leaves the HIF page disabled and stale; deasserting it once the device has started shows it. A link that trains in
a permitted speed and width shows what it trained to with LINK_UP, one that trains again counts a retrain; one that
goes down shows LINK_DOWN, leaves L1, keeps the rings and drops what waits. The decoder commits only on a CXL link. A DOE
discovery or CDAT request is answered and counted; a request while an attestation is outstanding shows BUSY. A message
is sent once for each rise of its cause, while its vector is unmasked and its gap over; a rearmed vector whose cause
holds is due again. (R380, R381, R382, R383, R384, R386, R388, R390, R462) -/
def Obligations.TheLinkComesAndGoes : Prop :=
  ∀ c : Core,
    let e := Arrives c
    (c.pins.perst = true → Reaches .perstAssert c fun d => d.gb (hif 0x200) 0 = false ∧ d.cmds = [] ∧ d.cpls = [] ∧
      d.hifS.lost = c.cmds.length ∧ d.hifS.due = [] ∧ d.blocked = [] ∧ d.en 4 = false ∧ d.stale 4 = true) ∧
    (c.pins.perst = false → Goes .perstAssert c c) ∧
    (c.pins.perst = false → c.pins.pwrgood = true → c.levS.started = true →
      Goes .perstDeassert c ({ c with pins := { c.pins with perst := true } }.sb (lev 0x200) 7 true)) ∧
    (∀ (cxl : Bool) (s : Fin 8) (w : Fin 16), c.pins.perst = true → c.islandUp 1 = true → w.val ∈ [1, 2, 4, 8] → s.val ≤ c.maxSpeed →
      (if cxl then 3 ≤ s.val else 1 ≤ s.val ∧ c.gb (hif 0x40) 2 = true) →
      let new : Word := BitVec.ofNat 32 (1 + (if cxl then 2 else 0) + s.val * 4 + w.val * 32)
      (c.gb (hif 0x200) 0 = false → Goes (.linkUp cxl s w) c ((c.wr (hif 0x200) new).ev (hif 0x400) (bit 0))) ∧
      (c.rd (hif 0x200) = new → Goes (.linkUp cxl s w) c ((c.wr (hif 0x200) new).cn (hif 0x528) 1))) ∧
    (c.gb (hif 0x200) 0 = true → Goes .linkDown c { ((c.wr (hif 0x200) 0).ev (hif 0x400) (bit 1)).leaveL1 with blocked := [] }) ∧
    (c.gb (hif 0x200) 0 = false → Goes .linkDown c c) ∧
    (c.gb (hif 0x200) 0 = true → c.gb (hif 0x200) 1 = true → Goes .hdmDecoderCommit c (c.sb (hif 0x204) 0 true)) ∧
    (c.gb (hif 0x200) 1 = false → Goes .hdmDecoderCommit c c) ∧
    (∀ i, c.gb (hif 0x200) 0 = true → c.hifS.doe = false → Goes (.doeRequest (.discovery i)) c
      { (((c.wr (hif 0x208) 0).sb (hif 0x208) 2 true).ev (hif 0x400) (bit 7)).cn (hif 0x52C) 1 with linkOut := [.doe (doeDiscovery i.toNat)] }) ∧
    (∀ n, c.gb (hif 0x200) 0 = true → c.hifS.doe = false → c.wState = 2 → Goes (.doeRequest (.attest n)) c
      { ((c.wr (hif 0x208) 0x200).sb (hif 0x208) 0 true) with
        hifS := { c.hifS with doe := true }, wrdS := { c.wrdS with attest := c.wrdS.attest ++ [(none, le 32 n.toNat)] } }) ∧
    (∀ x, c.gb (hif 0x200) 0 = true → c.hifS.doe = true → Goes (.doeRequest x) c (c.sb (hif 0x208) 0 true)) ∧
    (∀ v : VecNo,
      let d := c.msi
      let gone : Core := { d with
        hifS := { d.hifS with due := d.hifS.due.filter (· ≠ v.val), sent := Sparse.put (fun _ => 0) d.hifS.sent v.val (d.tick + 1) }
        linkOut := [.message v.val] }
      (d.hifS.due.contains v.val = true → c.en 4 = true → c.gb (hif 0x200) 0 = true → c.vecMasked v.val = false → d.gapOver v.val = true →
        Goes (.msixMessage v) c gone) ∧
      (c.vecMasked v.val = true → Goes (.msixMessage v) c d) ∧
      (d.hifS.due.contains v.val = true → d.en 4 = true → d.gb (hif 0x200) 0 = true → d.vecMasked v.val = false → d.gapOver v.val = true →
        c.gf (hif 0x48) 0 16 ≠ 0 →
        Goes (.msixGapEnd v) c gone)) ∧
    (∀ (hi : Bool) (b : Word), Open c 1 → Answers (.vectorRearm hi b) c
      { e with hifS := { e.hifS with due := e.hifS.due ++ (((List.range 32).filter fun k =>
        bitOf b k && e.cause (32 * (if hi then 1 else 0) + k) && !e.hifS.due.contains (32 * (if hi then 1 else 0) + k)).map
          (32 * (if hi then 1 else 0) + ·)) } } .done)

/-- A doorbell within the ring's size stands and one beyond it is undone, counted and shown as an error; so is a
completion head past the slots written. A fetch the host memory refuses stops fetching and shows it; one it answers
makes the command outstanding with its fields and its deadline and moves the head on by one. The oldest fixed
completion is written to the next slot with its bytes, releases its command and turns the phase at the end of the
ring. A command at its deadline completes LATE and its effect is withdrawn; before that nothing happens. RESYNC.GO
asks for a Ledger; a written Ledger raises its generation, is written to its place and serves every request. (R392,
R393, R394, R395, R396, R398, R404, R405, Table 13-4, Table 13-10) -/
def Obligations.TheCommandRingsMove : Prop :=
  ∀ c : Core,
    let e := Arrives c
    (Open c 1 → ∀ v : Word, Quiet e (hif 0xB00) v →
      let d := Stored e (hif 0xB00) v 0x7FF
      let n := (d.gf (hif 0xB00) 0 11 + 2048 - d.gf (hif 0x214) 0 11) % 2048
      (n ≤ 1024 → e.wState ≠ 3 → Answers (.doorbell v) c d .done) ∧
      (n ≤ 1024 → e.wState = 3 → Answers (.doorbell v) c (d.wakeWarden 1) .done) ∧
      (1024 < n → Answers (.doorbell v) c (((d.wr (hif 0xB00) (e.rd (hif 0xB00))).ev (hif 0x400) (bit 3)).cn (hif 0x51C) 1) .done)) ∧
    (Open c 1 → ∀ v : Word, Quiet e (hif 0xB04) v →
      let d := Stored e (hif 0xB04) v 0x7FF
      let old := fld (e.rd (hif 0xB04)) 0 11
      let used := (d.gf (hif 0x218) 0 11 + 2048 - old) % 2048
      let n := (d.gf (hif 0xB04) 0 11 + 2048 - old) % 2048
      (n ≤ used → Answers (.cplHeadWrite v) c d .done) ∧
      (used < n → Answers (.cplHeadWrite v) c ((d.wr (hif 0xB04) (e.rd (hif 0xB04))).ev (hif 0x400) (bit 3)) .done)) ∧
    (c.en 4 = true → c.gb (hif 0x210) 11 = false → c.gf (hif 0x214) 0 11 ≠ c.gf (hif 0xB00) 0 11 → c.cmds.length < 1024 →
      c.gb (hif 0x200) 0 = true →
      let head := c.gf (hif 0x214) 0 11
      Goes (.commandFetch none) c
        (((c.sb (hif 0x210) 11 true).wr (hif 0x224) (BitVec.ofNat 32 (head % 1024 + 4096))).ev (hif 0x400) (bit 4)) ∧
      (∀ bs : List Byte, bs.length = 64 → c.wState = 2 →
        let f (o n : Nat) := unle ((bs.drop o).take n)
        let dl := if f 4 2 ≠ 0 then f 4 2 else if c.gf (hif 0x44) 0 16 ≠ 0 then c.gf (hif 0x44) 0 16 else 8000
        let k : Cmd := { id := c.cmdNo, tag := f 2 2, slot := head % 1024, op := f 0 1, bytes := bs, dl := dl + 1, fence := f 1 1 % 2 = 1 }
        (c.cmds.any fun j => j.tag = f 2 2 && !j.dup) = false → f 0 1 ≤ 0xB →
        Goes (.commandFetch (some bs)) c
          (({ c with cmdNo := c.cmdNo + 1, cmds := c.cmds ++ [k] }.wr (hif 0x214) (BitVec.ofNat 32 ((head + 1) % 2048))).cn (hif 0x500) 1))) ∧
    (∀ q rest, c.cpls = q :: rest → c.gb (hif 0x200) 0 = true → c.cplUsed < 1024 → c.hifS.chip = none →
      let tail := c.gf (hif 0x218) 0 11
      let phase := c.gb (hif 0x210) 12
      let d := ({ c with
        linkOut := [.completion (tail % 1024) (q.bytes phase)], cpls := rest
        cmds := c.cmds.filter fun k => k.id ≠ q.id }.wr (hif 0x218) (BitVec.ofNat 32 ((tail + 1) % 2048))).wr (hif 0x228)
          (BitVec.ofNat 32 (q.tag + q.status * 65536))
      Goes .completionWrite c (if (tail + 1) % 2048 % 1024 = 0 then d.sb (hif 0x210) 12 (!phase) else d)) ∧
    (c.cpls = [] → Goes .completionWrite c c) ∧
    (∀ (t : BitVec 16) (k : Cmd), c.cmdOf t.toNat = some k →
      (k.dl = 0 → Goes (.deadlineExpire t) c ((c.fixCmd k.id stLate []).withdraw k.id)) ∧
      (k.dl ≠ 0 → Goes (.deadlineExpire t) c c)) ∧
    (Open c 1 → Quiet e (hif 0xB08) 1 →
      let d := Stored e (hif 0xB08) 1 0
      (d.gb (hif 0xB08) 1 = false → d.wState = 2 → Answers .resyncDoorbell c
        ({ d with wrdS := { d.wrdS with ledger := d.wrdS.ledger ++ [none] } }.sb (hif 0xB08) 1 true) .done) ∧
      (d.gb (hif 0xB08) 1 = true → Answers .resyncDoorbell c (d.ign (hif 0xB08) 8) .done)) ∧
    (∀ m, c.wrdS.ledger ≠ [] → c.wState = 2 → c.orReady = true → ReachesMem .ledgerWrite c m fun d m' =>
      (∃ bs, m' = memWrite m (orBase + 0x1B000000) bs) ∧ d.wrdS.ledger = [] ∧ d.wrdS.ledgerGen = c.wrdS.ledgerGen + 1 ∧
      d.rd (hif 0x21C) = BitVec.ofNat 32 (c.wrdS.ledgerGen + 1) ∧ (none ∈ c.wrdS.ledger → d.gb (hif 0xB08) 1 = false)) ∧
    (∀ m, c.wrdS.ledger = [] → GoesMem .ledgerWrite c m c [])

/-- A command that may start and whose unused bytes are zero has its effect; with one that is not zero it completes
BAD_PARAM. NOP completes OK; ABORT of an outstanding command completes it ABORTED, withdraws its effect and completes
OK, and of none NOT_FOUND; RESYNC and ATTEST wait for the Ledger and the report; MAP_COMMIT makes its request in open
mode and is SEALED in sealed mode; MAP_CANCEL cancels and completes OK with the commit status; PROT_CMD hands its word
to the Sluice; GUARD_WRITE writes eligible bits and answers those changed; CHECK starts its unit's job; FW_LOAD and
CAPSULE copy their range into the retained region; CHIP_RESET completes OK and asks for the reset. A fixed completion
carries tag, status, opcode, slot, frame and result, once. (R374, R395, R397, R399, R401, R402, R404, R413, R425,
R431, Table 13-5, Table 13-6) -/
def Obligations.RingCommandsComplete : Prop :=
  ∀ (c : Core) (tag : BitVec 16) (k : Cmd), c.cmdOf tag.toNat = some k → c.mayStart k = true →
    let d := c.startCmd k
    let ok (op : Nat) (used : List (Nat × Nat)) : Prop := k.op = op ∧ k.clean used = true
    (k.op = 0 → k.clean [] = false → Goes (.nop tag) c (d.fixCmd k.id stBadParam [])) ∧
    (ok 0 [] → Goes (.nop tag) c (d.fixCmd k.id stOk [])) ∧
    (ok 1 [(8, 2)] → ∀ j, (d.cmds.find? fun i : Cmd => i.tag = k.at 8 2 && !i.dup && i.op != 1) = some j → j.fixed = false →
      Goes (.abort tag) c (((d.fixCmd j.id stAborted []).withdraw j.id).fixCmd k.id stOk [])) ∧
    (ok 1 [(8, 2)] → (d.cmds.find? fun i : Cmd => i.tag = k.at 8 2 && !i.dup && i.op != 1) = none →
      Goes (.abort tag) c (d.fixCmd k.id stNotFound [])) ∧
    (ok 2 [] → Goes (.resync tag) c { d with wrdS := { d.wrdS with ledger := d.wrdS.ledger ++ [some k.id] } }) ∧
    (ok 3 [(8, 44)] → 7828 ≤ k.at 48 4 → hostRange (k.at 40 8) 7828 = true → Goes (.attest tag) c
      { d with wrdS := { d.wrdS with attest := d.wrdS.attest ++ [(some (k.id, k.at 40 8, k.at 48 4), (k.bytes.drop 8).take 32)] } }) ∧
    (ok 3 [(8, 44)] → k.at 48 4 < 7828 → Goes (.attest tag) c (d.fixCmd k.id stBadParam (le 4 7828))) ∧
    (∀ m, ok 4 [(8, 12)] → d.wrdS.fw = none → hostRange (k.at 8 8) (k.at 16 4) = true → k.at 16 4 ≤ 1048576 → d.wState = 2 →
      let bs := memBytes m (orBase + k.at 8 8) (k.at 16 4)
      let job : FwJob := { cmd := k.id, bytes := bs, bad := d.orPoison (k.at 8 8) (k.at 16 4), update := true, fromFailed := false }
      GoesMem (.fwLoad tag) c m { d.srExit with wrdS := { d.wrdS with hold := none, fw := some job } } [.write stageBase bs]) ∧
    (∀ m, ok 5 [(8, 12)] → hostRange (k.at 8 8) (k.at 16 4) = true →
      let bs := memBytes m (orBase + k.at 8 8) (min (k.at 16 4) 4194304)
      let cause := d.capCause bs (k.at 16 4) (d.orPoison (k.at 8 8) (k.at 16 4))
      let f := if cause = 7 then d.srExit.countSig false else if cause = 0 ∨ 8 ≤ cause then d.srExit.countSig true else d.srExit
      let held : Core := { f with wrdS := { f.wrdS with
        cap := some { cmd := k.id, bytes := bs, own := !d.sealed }, keyHash := Config.sha3 ((bs.drop 0x80).take 1312) } }
      GoesMem (.capsule tag) c m
        (if cause ≠ 0 then f.capRefuse k.id cause
         else if d.sealed = true ∧ k.dl < (k.at 16 4 - 2420 - 0x5A0 + 65535) / 65536 + 1 then f.fixCmd k.id stLate [] else held)
        [.write capBase bs]) ∧
    (ok 6 [(8, 1), (16, 8)] → d.sealed = true → Goes (.mapCommit tag) c (d.fixCmd k.id stSealed [])) ∧
    (ok 6 [(8, 1), (16, 8)] → d.sealed = false → Goes (.mapCommit tag) c
      (d.mapGo (BitVec.ofNat 32 (k.at 8 1) &&& 0x7E ||| 1) (k.at 16 8) (some k.id) none)) ∧
    (∀ left, ok 7 [] → Goes (.mapCancel tag left) c ((d.mapCancel left).fixCmd k.id stOk (le 4 ((d.mapCancel left).rd (rsv 0x208)).toNat))) ∧
    (∀ left, ok 8 [(8, 4)] → c.gb (slu 0xB04) 0 = false → Goes (.protCmd tag left) c
      (d.xcmdGo (BitVec.ofNat 32 (k.at 8 4) ||| 1) left (some k.id))) ∧
    (∀ r, ok 9 [(8, 1), (10, 2), (12, 4), (16, 4)] → regRow (k.at 8 1) (k.at 10 2) = some r →
      let v : Word := BitVec.ofNat 32 (k.at 12 4)
      let m : Word := BitVec.ofNat 32 (k.at 16 4)
      (m &&& ~~~r.elig = 0 → d.sealed = false → let q := d.guardWrite (k.at 8 1) (k.at 10 2) v m 8
        Goes (.guardWrite tag) c (q.1.fixCmd k.id stOk (le 4 q.2.toNat))) ∧
      (m &&& ~~~r.elig ≠ 0 → Goes (.guardWrite tag) c (d.fixCmd k.id stBadParam []))) ∧
    (ok 0xA [(8, 1), (12, 4), (16, 4), (24, 8), (32, 4)] → k.at 8 1 ≤ 31 → hostRange (k.at 24 8) (k.at 32 4) = true →
      let u := k.at 8 1
      (d.cuOpen u = false → d.en 9 = true → Goes (.check tag) c
        (((d.wr (cuR u 4) (BitVec.ofNat 32 (k.at 12 4) &&& 0xFF07FF)).wr (cuR u 8) (BitVec.ofNat 32 (k.at 16 4))).cuStart u
          (some (k.id, k.at 24 8, k.at 32 4)))) ∧
      (d.cuOpen u = true → Goes (.check tag) c (d.fixCmd k.id stRefused (le 4 (d.rd (cuR u 0)).toNat ++ le 8 (d.cuVal u))))) ∧
    (ok 0xB [] → Goes (.chipReset tag) c { d.fixCmd k.id stOk [] with hifS := { d.hifS with chip := some (k.id, none) } }) ∧
    (∀ (b : Core) (i st : Nat) (res : List Byte) (j : Cmd), (b.cmds.find? fun x => x.id = i && !x.fixed) = some j →
      (b.fixCmd i st res).cpls = b.cpls ++ [{ id := i, tag := j.tag, status := st, op := j.op, slot := j.slot, dup := j.dup
                                              frame := b.frame, result := (res ++ List.replicate 16 0).take 16 }] ∧
      (b.fixCmd i st res).cmds = b.cmds.map fun x => if x.id = i then { x with fixed := true } else x) ∧
    (∀ (b : Core) (i st : Nat) (res : List Byte), (b.cmds.find? fun x => x.id = i && !x.fixed) = none → b.fixCmd i st res = b)

/-- A container passes only with a key the device knows and has not revoked, a security version not below the rollback
count, a signature over it and its image's hash; an update that fails keeps the Warden running and completes REFUSED
with its code, one that passes is held for the restart. KEY_FUSE_CMD programs its field, or records a refused field or
a failure; fuse bits once blown stay blown. A capsule's records are written one after another, its sequence number set
and its command completed; a record of XMAP words writes them to the inactive plane, clears the plane's SYNCED bit and
writes no other table word. An ownership capsule seals the device or, where the fuses fail, is refused with cause 10.
The map hashes are computed once after a commit and shown. (R410, R413, R414, R425, R426, R428, R429, Table 14-3,
Table 14-5, Table 14-9, Table 14-16) -/
def Obligations.FusesContainersAndCapsulesAreApplied : Prop :=
  ∀ c : Core,
    (∀ (bs : List Byte) (len : Nat) (bad : Bool),
      (bad = true ∨ fieldAt bs 0xC 4 ≠ len ∨ 1 < fieldAt bs 6 1 ∨
        Config.sha3 ((bs.drop 0x80).take 1312) ≠ Config.fwkHash (fieldAt bs 6 1) ∨
        (if fieldAt bs 6 1 = 0 then c.fuses.rev0 else c.fuses.rev1) = true ∨
        fieldAt bs 8 4 < c.fuses.rollback ∨ fieldAt bs 8 4 = 0 ∨ 64 < fieldAt bs 8 4 ∨ signedBy ctxEneel bs len = false ∨
        (Config.sha3 ((bs.drop 0x5A0).take (fieldAt bs 0x10 4))).toNat ≠ fieldAt bs 0x20 32) → c.verifyCode bs len bad ≠ 0) ∧
    (∀ b, c.wrdS.fw = none → Goes (.fwVerifyEnd b) c c) ∧
    (∀ b q, c.wrdS.fw = some q → q.verified = false → q.update = true → c.wState = 2 → c.wrdS.testLoad = false →
      let code := c.verifyCode q.bytes q.bytes.length q.bad
      let svn := fieldAt q.bytes 8 4
      let e := if code = 6 then c.countSig false else if code = 0 ∨ code = 7 then c.countSig true else c
      let f := e.sf (wrd 0x208) 8 8 code
      let g := if 3 ≤ code ∧ code ≤ 7 then f.report 149 else f
      let h := (f.cn (wrd 0x508) 1).ev (wrd 0x400) (bit 3)
      fieldAt q.bytes 7 1 = 0 → Goes (.fwVerifyEnd b) c
        (if code = 0 then { h with wrdS := { h.wrdS with fw := some { q with verified := true } } }
         else { g.cn (wrd 0x50C) 1 with wrdS := { g.wrdS with fw := none } }.fixCmd q.cmd stRefused (le 4 svn ++ le 1 code))) ∧
    (∀ v b, c.wState ≠ 1 → c.wState ≠ 2 → Goes (.keyFuseCmd v b) c c) ∧
    (∀ v b, c.wState = 2 → bitOf v 0 = true → fld v 1 3 = 0 ∨ 6 ≤ fld v 1 3 →
      Goes (.keyFuseCmd v b) c ((c.wr (keyR 0xB08) (v &&& 0x007F000E)).ign (keyR 0xB08) 8)) ∧
    (∀ v, c.wState = 2 → bitOf v 0 = true → Reaches (.keyFuseCmd v true) c fun d =>
      let f := c.fuses
      (fld v 1 3 = 1 → d.fuses = { f with owner := f.owner ||| c.wrdS.keyHash }) ∧
      (fld v 1 3 = 2 → d.fuses = { f with valid := true } ∧ d.sealed = true) ∧
      (fld v 1 3 = 3 → d.fuses = { f with rollback := max f.rollback (min 64 (fld v 16 7)) } ∧
        d.rd (keyR 0x208) = BitVec.ofNat 32 (max f.rollback (min 64 (fld v 16 7)))) ∧
      (fld v 1 3 = 4 → d.fuses = { f with rev0 := true }) ∧ (fld v 1 3 = 5 → d.fuses = { f with rev1 := true })) ∧
    (∀ v b, c.wState = 2 → Reaches (.keyFuseCmd v b) c fun d =>
      c.fuses.owner &&& ~~~d.fuses.owner = 0 ∧ c.fuses.rollback ≤ d.fuses.rollback ∧ (c.fuses.valid = true → d.fuses.valid = true) ∧
      (c.fuses.rev0 = true → d.fuses.rev0 = true) ∧ (c.fuses.rev1 = true → d.fuses.rev1 = true)) ∧
    (c.wrdS.cap = none → Goes .capsuleRecordsWritten c c ∧ ∀ b, Goes (.ownershipSeal b) c c) ∧
    (∀ q, c.wrdS.cap = some q → q.own = false → c.wState = 2 → c.gb (rsv 0x208) 0 = false → fieldAt q.bytes 0x48 1 / 2 % 4 = 0 →
      let l := (capRecs (fieldAt q.bytes 0x14 4) ((q.bytes.take (fieldAt q.bytes 0x10 4 - 2420)).drop 0x5A0)).getD []
      let seq := fieldAt q.bytes 8 8
      let w := ((forL l (fun r d => d.writeRec r) c).wr (keyR 0xB00) (BitVec.ofNat 32 seq)).wr (keyR 0xB04) (BitVec.ofNat 32 (seq / 2 ^ 32))
      Goes .capsuleRecordsWritten c ({ (w.cn (wrd 0x510) 1).ev (wrd 0x400) (bit 4) with wrdS := { w.wrdS with cap := none } }.fixCmd
        q.cmd stOk (le 8 seq ++ le 4 0))) ∧
    (∀ r : CapRec, r.type = 1 → r.first + r.count ≤ 137216 →
      let p := 1 - c.gf (rsv 0x200) 0 1
      (∀ j, j < r.count → (c.writeRec r).trd (xmap p (r.first + j)) = BitVec.ofNat 32 (fieldAt r.bytes (4 * j) 4) &&& 0x7FFFFF) ∧
      (∀ k, (∀ j, j < r.count → k ≠ xmap p (r.first + j)) → (c.writeRec r).trd k = c.trd k) ∧
      (c.writeRec r).gb (rsv 0x200) 2 = false) ∧
    (∀ q, c.wrdS.cap = some q → q.own = true → c.wState = 2 → c.gb (rsv 0x208) 0 = false →
      (Reaches (.ownershipSeal true) c fun d => d.fuses = { c.fuses with owner := c.fuses.owner ||| c.wrdS.keyHash, valid := true } ∧
        d.sealed = true ∧ d.wrdS.cap = none ∧ d.rd (keyR 0xB00) = BitVec.ofNat 32 (fieldAt q.bytes 8 8)) ∧
      (Reaches (.ownershipSeal false) c fun d => d.fuses.valid = c.fuses.valid ∧ d.fuses.rollback = c.fuses.rollback ∧
        d.wrdS.cap = none)) ∧
    (c.wrdS.hashDue = false → Goes .mapHashCompute c c) ∧
    (c.wrdS.hashDue = true → c.wDown = false → Reaches .mapHashCompute c fun d =>
      d.wrdS.hashDue = false ∧ d.sluS.xHash = c.xmapHash ∧ d.sluS.pHash = c.pmapHash ∧
      (∀ k, k < 8 → d.rd (wrd (0x240 + 4 * k)) = c.xmapHash.extractLsb' (32 * k) 32 ∧
        d.rd (wrd (0x260 + 4 * k)) = c.pmapHash.extractLsb' (32 * k) 32) ∧
      d.rd (wrd 0x280) = BitVec.ofNat 32 c.wrdS.lastB ∧ d.rd (wrd 0x284) = BitVec.ofNat 32 (c.wrdS.lastB / 2 ^ 32))

/-- A state entered is shown by HIF and WRD, arms the watchdog in RUNNING and SLEEPING and disarms it elsewhere. The
Warden sleeps with no work, no doorbell waiting and no trap of the tick, and not otherwise, wakes with its cause, fails with cause 1 at the watchdog's expiry, 2 at a Warden reset and
3 at an error of the running copy: the planes freeze, loads and capsules end, and an automatic restart is due within
the limit. A kick reloads the watchdog; half its period and the wake timer wake a sleeping Warden. A restart begins
when its hold ends, or of a verified update on command, runs the verified copy, and fails into FAILED with cause 4, or
back to the running copy. A test-access instruction that reaches the TST page marks the device in open mode only.
(R27, R33, R400, R417, R418, R419, R420, R432, R456, R457, Table 14-5) -/
def Obligations.TheWardenChangesStates : Prop :=
  ∀ c : Core,
    (∀ (b : Core) (n : Nat), b.wState ≠ n → n < 8 → let d := b.setW n
      d.wState = n ∧ d.gf (wrd 0x200) 0 3 = n ∧ d.gb (lev 0x200) 5 = (n = 2 || n = 3) ∧ d.gb (spw 0 0x254) 4 = !(n = 2 || n = 3) ∧
      d.gb (hif 0x400) 10 = true ∧ d.gb (wrd 0x400) 0 = true) ∧
    (c.wState = 2 → c.cmds = [] → c.ringWaits = false → c.wrdS.trapAt ≠ some c.tick → c.wrdS.ledger = [] →
      c.gb (wrd 0x40) 0 = true → Goes .wardenSleep c (c.setW 3)) ∧
    (c.cmds ≠ [] ∨ c.ringWaits = true ∨ c.wrdS.trapAt = some c.tick ∨ c.wrdS.ledger ≠ [] ∨ c.gb (wrd 0x40) 0 = false →
      Goes .wardenSleep c c) ∧
    (c.wState ≠ 2 → Goes .wardenSleep c c ∧ Goes .wardenRestart c c ∧ Goes .watchdogKick c c) ∧
    (∀ k : Fin 8, c.wState = 3 → Goes (.wardenWake k) c (((c.leaveL1.setW 2).cn (wrd 0x51C) 1).wakeLast k.val)) ∧
    (c.wState ≠ 3 → (∀ k, Goes (.wardenWake k) c c) ∧ Goes .watchdogHalfWake c c ∧ Goes .wakeTimer c c) ∧
    (c.wState = 2 ∨ c.wState = 3 → Reaches (.wardenFail 3) c fun d =>
      let auto := c.gb (wrd 0x40) 1
      let limit := auto && decide (3 ≤ c.recentRestarts.length)
      d.wState = 4 ∧ d.gf (wrd 0x200) 4 3 = (if limit then 5 else 3) ∧ d.gb (rsv 0x200) 7 = true ∧ d.wrdS.fw = none ∧ d.wrdS.cap = none ∧
      d.wrdS.hold = if auto && !limit then some 8 else none) ∧
    (c.wState = 2 ∨ c.wState = 3 → Goes (.wardenFail 2) c (c.wardenFail 2)) ∧
    (c.wDown = true → Goes (.wardenFail 2) c c ∧ Goes (.wardenFail 3) c c) ∧
    (c.gb (lev 0x200) 5 = true → c.gb (lev 0x200) 6 = false → c.rd (lev 0x228) = 0 →
      let d := ((c.ev (lev 0x400) (bit 1)).cn (lev 0x500) 1).wardenFail 1
      Goes .watchdogExpire c d ∧ Goes (.wardenFail 1) c d) ∧
    (c.rd (lev 0x228) ≠ 0 → Goes .watchdogExpire c c ∧ Goes (.wardenFail 1) c c) ∧
    (c.wState = 2 → c.rd (lev 0x228) ≠ 0 → Goes .watchdogKick c
      ({ c with levS := { c.levS with wdtRun := 0 } }.wr (lev 0x228) (BitVec.ofNat 32 (max 1 (c.gf (lev 0xB0C) 0 16) * 1024)))) ∧
    (c.rd (lev 0x228) = 0 → Goes .watchdogKick c c) ∧
    (c.wState = 3 → max 1 (c.gf (lev 0xB0C) 0 16) * 512 ≤ c.levS.wdtRun →
      Goes .watchdogHalfWake c ((c.cn (lev 0x510) 1).wakeWarden 3)) ∧
    (c.wState = 3 → c.rd (lev 0xB10) ≠ 0 → c.tick % 2 ^ 32 = (c.rd (lev 0xB10)).toNat →
      Goes .wakeTimer c ((c.cn (lev 0x510) 1).wakeWarden 3)) ∧
    (c.wState = 4 → c.wrdS.hold = some 0 → Reaches .restartHoldEnd c fun d => d.wState = 5 ∧ d.wrdS.hold = none ∧
      d.wrdS.left = some 40 ∧ d.wrdS.staging = false ∧ d.wrdS.restarts = c.levS.frames :: c.recentRestarts) ∧
    (c.wrdS.hold ≠ some 0 → Goes .restartHoldEnd c c) ∧
    (∀ q, c.wrdS.fw = some q → q.verified = true → c.wState = 2 → Reaches .wardenRestart c fun d =>
      d.wState = 5 ∧ d.wrdS.staging = true ∧ d.wrdS.left = some 40 ∧ d.gb (wrd 0xB04) 8 = true) ∧
    (∀ m, c.wState ≠ 5 → GoesMem .restartVerifyEnd c m c [] ∧ GoesMem .restartTimeout c m c []) ∧
    (∀ m, c.wState = 5 → c.wrdS.staging = false → c.wrdS.fw = none → GoesMem .restartVerifyEnd c m
      (if (c.copyCode m).1 = 0 then (c.showImage (c.copyCode m).2).reachRunning true else c) []) ∧
    (∀ m, c.wState = 5 → c.wrdS.left = some 0 → c.wrdS.staging = false → GoesMem .restartTimeout c m (c.wardenFail 4) []) ∧
    (∀ m, c.wState = 5 → c.wrdS.left ≠ some 0 → c.wrdS.staging = false →
      GoesMem .restartTimeout c m (if (c.copyCode m).1 = 0 then c else c.wardenFail 4) []) ∧
    (∀ m q, c.wState = 5 → c.wrdS.left = some 0 → c.wrdS.staging = true → c.wrdS.fw = some q →
      GoesMem .restartTimeout c m (({ c with wrdS := { c.wrdS with fw := none, staging := false, left := some 40 } }.cn
        (wrd 0x50C) 1).fixCmd q.cmd stRefused (le 4 (fieldAt q.bytes 8 4) ++ le 1 (c.copyCode m).1)) []) ∧
    (c.sealed = false → c.gb (keyR 0x200) 7 = false → Reaches (.jtagInstruction (.priv true)) c fun d =>
      d.gb (keyR 0x200) 7 = true ∧ d.gb (dev 0x20C) 3 = true) ∧
    (c.sealed = true → ∀ i, Goes (.jtagInstruction i) c c) ∧
    (∀ i, i ≠ .priv true → Goes (.jtagInstruction i) c c)

/-- A rail fault is declared once the pair has been invalid for RAIL_N ticks, recorded with the source and its pair,
and puts source 255 into the fault state. A quiet period that has run takes its source out of the fault state, counts
a recovery and ends its timers; a grace timer that has run escalates it, asking for a chip reset where its profile
says so. An acknowledgement ends a pending bit and its grace timer, and FAULT_N with it where the source has left the
fault state; the Warden's own acknowledgement of a Warden-side source in the fault state is refused. Rearming clears
the first-fault record on both pages. An injection is accepted while none runs on its page, and ends after its time.
(R437, R438, R441, R442, R444, R445, R447, R450, R451, Table 15-3, Table 15-5) -/
def Obligations.SourcesFaultRecoverAndAreAcknowledged : Prop :=
  ∀ (c : Core) (k : Source),
    let e := Arrives c
    ((c.src k.val).railBad = true → Goes (.railFault k) c c) ∧
    ((c.src k.val).railRun < max 1 (c.gf (spwOf k.val 0x40) 0 4) → Goes (.railFault k) c c) ∧
    ((c.src k.val).railBad = false → max 1 (c.gf (spwOf k.val 0x40) 0 4) ≤ (c.src k.val).railRun → (c.src k.val).railInj = false →
      (∀ q ∈ c.spwS.srcs, k.val ≤ q.1) → c.sReal 255 = false →
      Reaches (.railFault k) c fun d => d.sReal 255 = true ∧ d.sPend 255 = true ∧ (d.src k.val).railBad = true ∧
        d.rd (spw 0 0x258) = BitVec.ofNat 32 (k.val + (c.src k.val).railVal.toNat * 256 + 65536)) ∧
    (c.inFault k.val = true → (c.src k.val).railBad = false → (c.src k.val).quiet = some 0 → Reaches (.quietEnd k) c fun d =>
      let a := spwOf k.val (0xC00 + 4 * (k.val % 128 / 2))
      d.inFault k.val = false ∧ d.sPend k.val = c.sPend k.val ∧ (d.src k.val).quiet = none ∧ (d.src k.val).grace = none ∧
      d.gf a (k.val % 2 * 16) 16 = min (c.gf a (k.val % 2 * 16) 16 + 1) 65535 ∧
      (c.sPend k.val = false → d.sEsc k.val = false ∧ (d.src k.val).faultN = false)) ∧
    ((c.src k.val).quiet ≠ some 0 → Goes (.quietEnd k) c c) ∧
    (c.inFault k.val = true → (c.src k.val).grace = some 0 → Goes (.graceExpire k) c (c.escalate k.val).spwShow) ∧
    (c.inFault k.val = true → (c.src k.val).grace = some 0 → bitOf (c.reactOf k.val) 3 = false → Reaches (.graceExpire k) c fun d =>
      d.sEsc k.val = true ∧ (d.src k.val).grace = none ∧
      (d.src k.val).faultN = ((c.src k.val).faultN || bitOf (c.reactOf k.val) 2) ∧
      d.levS.chipReq = if bitOf (c.reactOf k.val) 4 = true ∧ c.levS.chipReq = none then some 3 else c.levS.chipReq) ∧
    ((c.src k.val).grace ≠ some 0 → Goes (.graceExpire k) c c) ∧
    (∀ (page1 : Bool) (w : Fin 4) (b : Word), c.wDown = false →
      Goes (.faultAck page1 w b) c (c.ackWrite (if page1 then 1 else 0) w.val b true)) ∧
    (c.wDown = true → (∀ page1 w b, Goes (.faultAck page1 w b) c c) ∧ Goes .ffRearm c c) ∧
    (let d := c.ackWrite (k.val / 128) (k.val % 128 / 32) (bit (k.val % 32)) true;
      (wardenSide k.val = true → c.inFault k.val = true → d = (c.ev (spwOf k.val 0x410) (bit 4)).spwShow) ∧
      (wardenSide k.val = false ∨ c.inFault k.val = false → c.sPend k.val = false → d = c.spwShow) ∧
      (wardenSide k.val = false ∨ c.inFault k.val = false → c.sPend k.val = true → (c.src k.val).grace ≠ some 0 →
        d.sPend k.val = false ∧ d.inFault k.val = c.inFault k.val ∧ (d.src k.val).grace = none ∧
        (c.inFault k.val = false → d.sEsc k.val = false ∧ (d.src k.val).faultN = false))) ∧
    (c.wDown = false → Reaches .ffRearm c fun d => d.spwS.ffTick = none ∧ ∀ i, i < 2 →
      (∀ o ∈ [0x240, 0x244, 0x248, 0x24C, 0x250, 0x260, 0x264, 0x268, 0x26C], d.rd (spw i o) = 0) ∧
      ∀ o, o < 0x1000 → o ∉ [0x240, 0x244, 0x248, 0x24C, 0x250, 0x260, 0x264, 0x268, 0x26C] → d.rd (spw i o) = c.rd (spw i o)) ∧
    (∀ (page1 : Bool) (v : Word), Open c 0 →
      let p := if page1 then 1 else 0
      let a := spw p 0xB14
      let d := Stored e a (v ||| 0x100) 0xFF067F
      Quiet e a (v ||| 0x100) →
        (d.gb a 24 = false → Answers (.faultInject page1 v) c (d.injGo p (d.rd a)) .done) ∧
        (d.gb a 24 = true → Answers (.faultInject page1 v) c (d.ign a 8) .done)) ∧
    (∀ page1 : Bool,
      let p := if page1 then 1 else 0
      (∀ x, c.injOf p = some x → x.left = 0 →
        Goes (.injectionEnd page1) c (((c.setInj p none).sb (spw p 0xB14) 24 false).ev (spw p 0x410) (bit 3))) ∧
      (∀ x, c.injOf p = some x → x.left ≠ 0 → Goes (.injectionEnd page1) c c) ∧ (c.injOf p = none → Goes (.injectionEnd page1) c c))

/-- Losing power leaves the fuses and nothing else, and no byte of the HBM. PWRGOOD starts the tick count; the fuse
sense then ends once, with the supplies in range, shows the fuses, and with PERST_N high starts the device with its
HIF, CTL and RSV islands. DEV_CHIPRST written by the Warden asks for a chip reset, and is refused while its companion
reads 1; with no Warden running it is not written; the first request governs. The reset keeps the fuses, the pins, the tick count and the Spillway's records, shows its cause and
counts it, leaves every other register at its reset value and every byte of the HBM at zero, and ends into the start-
up. (R1, R455, R460, R461, R462, R467, R469, Table 16-2, Table 16-7) -/
def Obligations.PowerUpAndChipResets : Prop :=
  ∀ (c : Core) (m : List Host.Cell),
    GoesMem .powerOnReset c m { fuses := c.fuses, freeCtr := c.freeCtr, pins := { c.pins with pwrgood := false, perst := false } }
      [.clear 0 0x400000000] ∧
    (c.pins.pwrgood = false → Goes .pwrgoodRise c { c with
      pins := { c.pins with pwrgood := true }, tick := 0
      wrdS := { c.wrdS with testLoad := c.pins.testmode && !c.fuses.valid } }) ∧
    (c.pins.pwrgood = true → Goes .pwrgoodRise c c) ∧
    (∀ ok, c.pins.pwrgood = false ∨ c.gb (lev 0x234) 0 = true ∨ c.rd (dev 0x228) ≠ 0 → Goes (.fuseSenseDone ok) c c) ∧
    (∀ ok, c.pins.pwrgood = true → c.gb (lev 0x234) 0 = false → c.levS.chipHold = false → c.rd (dev 0x228) = 0 →
      Reaches (.fuseSenseDone ok) c fun d =>
        d.gb (lev 0x234) 0 = true ∧ d.gb (lev 0x234) 1 = !ok ∧ d.gb (lev 0x200) 2 = true ∧ d.sealed = c.fuses.valid ∧
        (c.pins.perst = false → d.levS.started = c.levS.started) ∧
        (c.pins.perst = true → c.levS.started = false →
          d.levS.started = true ∧ d.islandUp 1 = true ∧ d.islandUp 2 = true ∧ d.islandUp 3 = true)) ∧
    (c.wDown = true → Goes .devChiprst c c) ∧
    (c.wDown = false → c.gb (dev 0xB00) 8 = true → Goes .devChiprst c (c.ign (dev 0xB00) 8)) ∧
    (c.wDown = false → c.gb (dev 0xB00) 8 = false → Goes .devChiprst c
      { c.sb (dev 0xB00) 8 true with levS := { c.levS with chipReq := some (c.levS.chipReq.getD 2) } }) ∧
    (c.levS.chipReq = none → GoesMem .chipResetEntry c m c []) ∧
    (∀ cause, c.levS.chipReq = some cause → ReachesMem .chipResetEntry c m fun d m' =>
      m' = memRun m [.clear 0 0x400000000] ∧ (∀ a, a < 0x400000000 → memRead m' a = 0) ∧
      d.fuses = c.fuses ∧ d.pins = c.pins ∧ d.tick = c.tick ∧ d.cmds = [] ∧ d.objs = [] ∧ d.tbl = [] ∧ d.rsvS.rings = [] ∧
      d.levS.chipHold = true ∧ d.levS.chipReq = none ∧ d.wState = 0 ∧
      d.rd (lev 0x22C) = BitVec.ofNat 32 cause ∧ d.rd (lev 0x50C) = satAdd (c.rd (lev 0x50C)) 1 ∧
      (∀ i, i < 2 → ∀ o ∈ [0x240, 0x244, 0x248, 0x250, 0x260, 0x264, 0x268, 0x26C, 0x270, 0x274], d.rd (spw i o) = c.rd (spw i o)) ∧
      (∀ i k, i < 2 → k < 64 → d.rd (spw i (0xC00 + 4 * k)) = c.rd (spw i (0xC00 + 4 * k))) ∧
      (∀ a, a ∉ chipKept → a ≠ dev 0x224 → a ≠ lev 0x200 → d.rd a = regReset a)) ∧
    (c.levS.chipHold = false → Goes .chipResetEnd c c) ∧
    (c.levS.chipHold = true → Reaches .chipResetEnd c fun d =>
      d.levS.chipHold = false ∧ d.gb (lev 0x234) 0 = true ∧ d.gb (lev 0x234) 1 = false ∧ d.gb (lev 0x200) 2 = true ∧
      d.sealed = c.fuses.valid ∧
      (c.pins.perst = true → c.levS.started = false →
        d.levS.started = true ∧ d.islandUp 1 = true ∧ d.islandUp 2 = true ∧ d.islandUp 3 = true))

/-- A reset bit that the Warden writes asks for its island's reset and is refused while its companion reads 1; with no Warden
running none is written. The reset takes effect
at the next boundary, or at once while D06 is stopped, unless a chip reset is due. A soft reset, an island that goes
off and an island reset keep of each register the bits that their rule names and put the others back at their reset
values, and touch no other page. A block that returns is disabled and, but for the DEV page, stale, and a page whose
soft reset has ended shows it no more. (R37, R443, R459, R463, R464, R467, R499, Table 16-2, Table 16-7) -/
def Obligations.BlocksAndIslandsReset : Prop :=
  ∀ c : Core,
    (∀ x ∈ ([(.devBlkrstHif, dev 0xB04, 1), (.devBlkrstTim, dev 0xB04, 4), (.devBlkrstAux, dev 0xB04, 5),
        (.devBlkrstMat, dev 0xB04, 6)] : List (Instr × Nat × Nat)) ++ (List.finRange 6).map fun b => (.bkRstIsland b, bk b.val 0xB00, 7 + b.val),
      (c.wDown = true → Goes x.1 c c) ∧
      (c.wDown = false → c.gb x.2.1 8 = true → Goes x.1 c (c.ign x.2.1 8)) ∧
      (c.wDown = false → c.gb x.2.1 8 = false → Reaches x.1 c fun d => d.levS.resets = c.levS.resets ++ [(x.2.2, c.frame)] ∧ d.gb x.2.1 8 = true)) ∧
    (∀ i : Fin 13, c.levS.chipReq ≠ none → Goes (.islandReset i) c c) ∧
    (∀ i : Fin 13, (c.levS.resets.find? fun q => q.1 = i.val) = none → Goes (.islandReset i) c c) ∧
    (∀ (i : Fin 13) q, c.levS.chipReq = none → (c.levS.resets.find? fun q => q.1 = i.val) = some q →
      (c.d06 = true → c.frame = q.2 → Goes (.islandReset i) c c) ∧
      (c.d06 = false ∨ c.frame ≠ q.2 → Reaches (.islandReset i) c fun d =>
        d = (c.islandReset i.val).showResets ∧ ∀ r ∈ d.levS.resets, r.1 ≠ i.val)) ∧
    (∀ (s : Nat) (k : PageKind) (f : Nat → Row → Word), pageKind s = some k →
      (∀ o, o < 0x1000 →
        let keep := f o ((findRow k o).getD { off := 0 })
        (c.mapPage s f).rd (pg s + o) = (c.rd (pg s + o) &&& keep) ||| (regReset (pg s + o) &&& ~~~keep)) ∧
      (∀ a, a < pg s ∨ pg s + 0x1000 ≤ a → (c.mapPage s f).rd a = c.rd a)) ∧
    (∀ (s o : Nat) (r : Row), 0x40 ≤ o →
      let kept := (r.cf ||| r.ct ||| r.gd) &&& ~~~r.cmd
      softKeep s o r &&& kept = kept ∧ softKeep s o r &&& r.hd &&& ~~~r.cmd = r.hd &&& ~~~r.cmd ∧
      offKeep o r &&& (r.cf ||| r.ct ||| r.gd) = r.cf ||| r.ct ||| r.gd ∧ islandKeep o r = r.gd ||| r.hd ||| r.ro) ∧
    (∀ s : PageSlot, c.gb (pg s.val + 4) 8 = false → Goes (.blockReturn s) c c ∧ Goes (.softRstDone s) c c) ∧
    (∀ s : PageSlot, c.gb (pg s.val + 4) 8 = true → Goes (.blockReturn s) c (c.blockReturn s.val)) ∧
    (∀ (s : Nat) (k : PageKind), pageKind s = some k → (c.blockReturn s).en s = false ∧ (c.blockReturn s).gb (pg s + 4) 8 = false ∧
      (k ≠ .dev → (c.blockReturn s).stale s = true))

/-- L1 is entered on a trained link once its conditions have held for its idle time and no doorbell, trap of the tick or bank
wake cause stands, and not otherwise, and left on demand, and PSTATE follows the power
state. An island goes off once its conditions have held for its delay, and comes on where it is wanted. A bank with a
wake cause wakes once the Warden has run, and its cause is recorded before; up, it shows itself and its supply with
its island on; awake and without a cause it sleeps, and its lanes idle. A reference PLL that loses lock is shown, counted and
reported. A supply trip and its clearing show in DEV_SUPPLY; a temperature is shown, raises the peak, and is hot above
115 °C until below 110 °C. (R25, R31, R32, R86, R458, R459, R475, R476, R504, Table 1-8, Table 16-6) -/
def Obligations.PowerStatesIslandsAndBanks : Prop :=
  ∀ c : Core,
    (∀ b : Core, (b.showPstate).gf (lev 0x200) 0 2 = b.pstate) ∧
    (c.levS.inL1 = false → c.gb (hif 0x200) 0 = true → c.ringWaits = false → c.wrdS.trapAt ≠ some c.tick →
      (∀ b, b < 6 → c.bankCause b = false) → max 1 (c.gf (lev 0x40) 16 16) * 16 ≤ c.levS.l1Run → c.l1Block &&& 0xBF = 0 →
      let d := { c with levS := { c.levS with inL1 := true } }.cn (lev 0x504) 1
      Goes .l1Entry c (d.sb (lev 0x200) 6 (d.gb (lev 0x200) 5)).showPstate) ∧
    (c.levS.inL1 = true ∨ c.gb (hif 0x200) 0 = false ∨ c.ringWaits = true ∨ c.wrdS.trapAt = some c.tick ∨
      (∃ b, b < 6 ∧ c.bankCause b = true) ∨ c.levS.l1Run < max 1 (c.gf (lev 0x40) 16 16) * 16 ∨ c.l1Block &&& 0xBF ≠ 0 →
      Goes .l1Entry c c) ∧
    (c.levS.inL1 = true →
      Goes .l1Exit c ({ c with levS := { c.levS with inL1 := false, l1Run := 0 } }.sb (lev 0x200) 6 false).showPstate) ∧
    (c.levS.inL1 = false → Goes .l1Exit c c) ∧
    (∀ i : Fin 13,
      let run : Nat := Sparse.get (fun _ => 0) c.levS.offRun i.val
      (c.mayOff i.val = true → c.gf (lev (0xB80 + 4 * i.val)) 8 8 * 16 ≤ run → Goes (.islandOff i) c (c.powerOff i.val)) ∧
      (c.mayOff i.val = false ∨ run < c.gf (lev (0xB80 + 4 * i.val)) 8 8 * 16 → Goes (.islandOff i) c c) ∧
      (c.islandWanted i.val = false → Goes (.islandOn i) c c) ∧
      (c.islandWanted i.val = true → c.blocked = [] → Reaches (.islandOn i) c fun d => d.islandUp i.val = true ∧ d.linkOut = [])) ∧
    (∀ b : Bank,
      (c.bankCause b.val = false → Goes (.bankWake b) c c) ∧
      (c.bankCause b.val = true → c.gb (lev 0x200) (8 + b.val) = false → c.wrdS.ran = false → c.gb (lev 0x230) b.val = false →
        Goes (.bankWake b) c ((c.sb (lev 0x230) b.val true).ev (lev 0x400) (bit 2))) ∧
      (c.bankCause b.val = true → c.gb (lev 0x200) (8 + b.val) = false → c.wrdS.ran = true → Reaches (.bankWake b) c fun d =>
        d.gb (lev 0x200) (8 + b.val) = true ∧ d.gb (lev 0x230) b.val = false ∧ d.gf (lev 0x200) 0 2 = 3 ∧ d.levS.inL1 = false ∧
        b.val ∉ d.levS.slept) ∧
      (c.gb (lev 0x200) (8 + b.val) = true → b.val ∉ c.levS.slept → c.gb (bk b.val 0x200) 0 = false → c.blocked = [] →
        Reaches (.bankUp b) c fun d => d.islandUp (7 + b.val) = true ∧ d.gb (bk b.val 0x200) 0 = true ∧ d.gb (bk b.val 0x200) 4 = true) ∧
      (c.gb (lev 0x200) (8 + b.val) = true → c.gb (bk b.val 0x200) 0 = true → c.bankCause b.val = false → b.val ∉ c.levS.slept →
        Reaches (.bankSleep b) c fun d =>
        d.gb (bk b.val 0x200) 0 = false ∧ d.gf (bk b.val 0x200) 1 3 = 0 ∧ d.rd (bk b.val 0x210) = 0 ∧
        (∀ k, k < 16 → (d.port (16 * b.val + k)).txRate = 0) ∧
        (c.islandUp (7 + b.val) = true → d.levS.slept = c.levS.slept ++ [b.val]) ∧
        (c.islandUp (7 + b.val) = false → d.gb (lev 0x200) (8 + b.val) = false)) ∧
      (c.bankCause b.val = true ∨ c.gb (bk b.val 0x200) 0 = false → Goes (.bankSleep b) c c) ∧
      ∀ k : Fin 3,
        (c.gb (bk b.val 0x210) k.val = true → Goes (.bankPllUnlock b k) c
          ((((c.sb (bk b.val 0x200) (1 + k.val) false).ev (bk b.val 0x400) (bit 0)).cn (bk b.val (0x500 + 4 * k.val)) 1).report
            (96 + b.val))) ∧
        (c.gb (bk b.val 0x210) k.val = false → Goes (.bankPllUnlock b k) c c)) ∧
    (∀ k : Fin 8, c.pins.pwrgood = true →
      (c.gb (dev 0x228) k.val = false → Goes (.supplyTrip k) c ((c.sb (dev 0x228) k.val true).ev (dev 0x400) (bit 1)) ∧ Goes (.supplyClear k) c c) ∧
      (c.gb (dev 0x228) k.val = true → Goes (.supplyClear k) c ((c.sb (dev 0x228) k.val false).ev (dev 0x400) (bit 1)) ∧ Goes (.supplyTrip k) c c)) ∧
    (∀ t : Int, -128 ≤ t → t < 128 → Reaches (.tempTrip t) c fun d =>
      d.rd (dev 0x220) = (BitVec.ofInt 8 t).setWidth 32 ∧
      ((d.rd (dev 0x224)).extractLsb' 0 8).toInt = max ((c.rd (dev 0x224)).extractLsb' 0 8).toInt t ∧
      (115 < t → d.levS.hot = true) ∧ (t < 110 → d.levS.hot = false) ∧ (110 ≤ t → t ≤ 115 → d.levS.hot = c.levS.hot))

/-- A boundary of the running system clock raises the frame number by one; with the clock stopped there is none. A
Levee tick raises the tick count by one while PWRGOOD is high, and does nothing else while a chip reset holds the
device; without PWRGOOD nothing happens. STALE of an enabled page ends once its first full period has run, and not
before. (R4, R5, R28, R455, R461, R464) -/
def Obligations.BoundariesAndTicksAdvanceTheCounts : Prop :=
  ∀ (c : Core) (m : List Host.Cell),
    (∀ fi, c.d06 = true → ReachesMem (.frameBoundary fi) c m fun d m' => d.frame = c.frame + 1 ∧ (Memory.wf m → Memory.wf m')) ∧
    (∀ fi, c.d06 = false → GoesMem (.frameBoundary fi) c m c []) ∧
    (∀ ti, c.pins.pwrgood = false → GoesMem (.leveeTick ti) c m c []) ∧
    (∀ ti, c.pins.pwrgood = true → c.levS.chipHold = true → GoesMem (.leveeTick ti) c m { c with tick := c.tick + 1 } []) ∧
    (∀ ti, c.pins.pwrgood = true → ReachesMem (.leveeTick ti) c m fun d m' => d.tick = c.tick + 1 ∧ (Memory.wf m → Memory.wf m')) ∧
    (∀ s : PageSlot, c.stale s.val = true → c.en s.val = true → c.periodRun s.val = true → Goes (.staleClear s) c
      ({ c with levS := { c.levS with periods := Sparse.drop s.val c.levS.periods } }.sb (pg s.val + 8) 1 false)) ∧
    (∀ s : PageSlot, c.en s.val = false ∨ c.periodRun s.val = false → Goes (.staleClear s) c c)
end

