-- ==== Sys2Proof/Laws/Sparse.lean ====
section
/-! SUPPORT. Laws of sparse maps: a read after a write, and the canonical form kept. -/

namespace Sys2Proof.Machine

theorem Sparse.get_drop {α : Type} (d : Nat → α) (m : SMap α) (k k' : Nat) :
    Sparse.get d (Sparse.drop k m) k' = if k' = k then d k' else Sparse.get d m k' := by
  induction m with
  | nil => simp [Sparse.get, Sparse.drop]
  | cons q m ih =>
    obtain ⟨j, v⟩ := q
    by_cases h : k = j
    · subst h
      simp only [Sparse.drop, ↓reduceIte, ih, Sparse.get]
      by_cases h' : k' = k <;> simp [h']
    · simp only [Sparse.drop, h, ↓reduceIte, Sparse.get, ih]
      by_cases h' : k' = j
      · have : ¬ j = k := fun e => h e.symm
        simp [h', this]
      · simp [h']

theorem Sparse.get_ins {α : Type} (d : Nat → α) (m : SMap α) (k k' : Nat) (v : α) (hm : ∀ q ∈ m, q.1 ≠ k) :
    Sparse.get d (Sparse.ins k v m) k' = if k' = k then v else Sparse.get d m k' := by
  induction m with
  | nil => simp [Sparse.get, Sparse.ins]
  | cons q m ih =>
    obtain ⟨j, w⟩ := q
    have hj : j ≠ k := hm (j, w) (by simp)
    have ih := ih fun q hq => hm q (by simp [hq])
    by_cases h : k < j
    · simp only [Sparse.ins, h, ↓reduceIte, Sparse.get]
    · simp only [Sparse.ins, h, ↓reduceIte, Sparse.get, ih]
      by_cases h' : k' = j
      · subst h'; simp [hj]
      · simp [h']

theorem Sparse.drop_ne {α : Type} (m : SMap α) (k : Nat) : ∀ q ∈ Sparse.drop k m, q.1 ≠ k := by
  induction m with
  | nil => simp [Sparse.drop]
  | cons q m ih =>
    obtain ⟨j, w⟩ := q
    by_cases h : k = j
    · subst h
      simp only [Sparse.drop, ↓reduceIte]
      exact ih
    · simp only [Sparse.drop, h, ↓reduceIte, List.mem_cons, forall_eq_or_imp]
      exact ⟨fun e => h e.symm, ih⟩

/-- A read after a write, of the same key or of another. -/
theorem Sparse.get_put {α : Type} [DecidableEq α] (d : Nat → α) (m : SMap α) (k k' : Nat) (v : α) :
    Sparse.get d (Sparse.put d m k v) k' = if k' = k then v else Sparse.get d m k' := by
  unfold Sparse.put
  split
  · next h => rw [Sparse.get_drop]; by_cases h' : k' = k <;> simp [h', h]
  · rw [Sparse.get_ins _ _ _ _ _ (Sparse.drop_ne m k), Sparse.get_drop]
    by_cases h' : k' = k <;> simp [h']

/-- The canonical form survives a lower bound. -/
theorem Sparse.wfFrom_mono {α : Type} [DecidableEq α] (d : Nat → α) (m : SMap α) (lo lo' : Nat) (h : lo' ≤ lo)
    (w : Sparse.wfFrom d lo m = true) : Sparse.wfFrom d lo' m = true := by
  cases m with
  | nil => rfl
  | cons q m =>
    obtain ⟨j, v⟩ := q
    simp only [Sparse.wfFrom, Bool.and_eq_true, decide_eq_true_eq] at w ⊢
    exact ⟨⟨by omega, w.1.2⟩, w.2⟩

theorem Sparse.wfFrom_drop {α : Type} [DecidableEq α] (d : Nat → α) (m : SMap α) (lo k : Nat)
    (w : Sparse.wfFrom d lo m = true) : Sparse.wfFrom d lo (Sparse.drop k m) = true := by
  induction m generalizing lo with
  | nil => rfl
  | cons q m ih =>
    obtain ⟨j, v⟩ := q
    simp only [Sparse.wfFrom, Bool.and_eq_true, decide_eq_true_eq] at w
    by_cases h : k = j
    · simp only [Sparse.drop, h, ↓reduceIte]
      exact h ▸ Sparse.wfFrom_mono d _ (j + 1) lo (by omega) (h ▸ ih (j + 1) w.2)
    · simp only [Sparse.drop, h, ↓reduceIte, Sparse.wfFrom, Bool.and_eq_true, decide_eq_true_eq]
      exact ⟨w.1, ih (j + 1) w.2⟩

theorem Sparse.wfFrom_ins {α : Type} [DecidableEq α] (d : Nat → α) (m : SMap α) (lo k : Nat) (v : α) (hl : lo ≤ k)
    (hv : v ≠ d k) (hm : ∀ q ∈ m, q.1 ≠ k) (w : Sparse.wfFrom d lo m = true) :
    Sparse.wfFrom d lo (Sparse.ins k v m) = true := by
  induction m generalizing lo with
  | nil => simp [Sparse.ins, Sparse.wfFrom, hl, hv]
  | cons q m ih =>
    obtain ⟨j, u⟩ := q
    have hj : j ≠ k := hm (j, u) (by simp)
    simp only [Sparse.wfFrom, Bool.and_eq_true, decide_eq_true_eq] at w
    by_cases h : k < j
    · simp only [Sparse.ins, h, ↓reduceIte, Sparse.wfFrom, Bool.and_eq_true, decide_eq_true_eq]
      exact ⟨⟨hl, hv⟩, ⟨by omega, w.1.2⟩, w.2⟩
    · simp only [Sparse.ins, h, ↓reduceIte, Sparse.wfFrom, Bool.and_eq_true, decide_eq_true_eq]
      exact ⟨w.1, ih (j + 1) (by omega) (fun q hq => hm q (by simp [hq])) w.2⟩

/-- A write keeps the canonical form. -/
theorem Sparse.wf_put {α : Type} [DecidableEq α] (d : Nat → α) (m : SMap α) (k : Nat) (v : α)
    (w : Sparse.wf d m = true) : Sparse.wf d (Sparse.put d m k v) = true := by
  unfold Sparse.wf Sparse.put at *
  split
  · exact Sparse.wfFrom_drop d m 0 k w
  · next h => exact Sparse.wfFrom_ins d _ 0 k v (by omega) h (Sparse.drop_ne m k) (Sparse.wfFrom_drop d m 0 k w)

theorem Sparse.wfFrom_clear {α : Type} [DecidableEq α] (d : Nat → α) (m : SMap α) (lo a b : Nat)
    (w : Sparse.wfFrom d lo m = true) : Sparse.wfFrom d lo (Sparse.clear a b m) = true := by
  induction m generalizing lo with
  | nil => rfl
  | cons q m ih =>
    obtain ⟨j, v⟩ := q
    simp only [Sparse.wfFrom, Bool.and_eq_true, decide_eq_true_eq] at w
    by_cases h : a ≤ j ∧ j < b
    · simp only [Sparse.clear, h, and_self, ↓reduceIte]
      exact Sparse.wfFrom_mono d _ (j + 1) lo (by omega) (ih (j + 1) w.2)
    · simp only [Sparse.clear, h, ↓reduceIte, Sparse.wfFrom, Bool.and_eq_true, decide_eq_true_eq]
      exact ⟨w.1, ih (j + 1) w.2⟩

/-- A cleared range reads as unlisted; every other key as before. -/
theorem Sparse.get_clear {α : Type} (d : Nat → α) (m : SMap α) (a b k : Nat) :
    Sparse.get d (Sparse.clear a b m) k = if a ≤ k ∧ k < b then d k else Sparse.get d m k := by
  induction m with
  | nil => simp [Sparse.get, Sparse.clear]
  | cons q m ih =>
    obtain ⟨j, v⟩ := q
    by_cases h : a ≤ j ∧ j < b
    · simp only [Sparse.clear, h, and_self, ↓reduceIte, ih, Sparse.get]
      by_cases h' : k = j
      · subst h'; simp [h]
      · simp [h']
    · simp only [Sparse.clear, h, ↓reduceIte, Sparse.get, ih]
      by_cases h' : k = j
      · subst h'; simp [h]
      · simp [h']

end Sys2Proof.Machine
end

