-- ==== Sys2Proof/Laws/State.lean ====
section
/-! SUPPORT. What each primitive update leaves alone: one lemma per field of the block. -/

namespace Sys2Proof.Machine

variable (c : Core)

/-! `wr` changes regs. -/

@[simp] theorem Core.wr_parMis (a : Nat) (v : Word) : (c.wr a v).parMis = c.parMis := rfl
@[simp] theorem Core.wr_ct1 (a : Nat) (v : Word) : (c.wr a v).ct1 = c.ct1 := rfl
@[simp] theorem Core.wr_ct2 (a : Nat) (v : Word) : (c.wr a v).ct2 = c.ct2 := rfl
@[simp] theorem Core.wr_tbl (a : Nat) (v : Word) : (c.wr a v).tbl = c.tbl := rfl
@[simp] theorem Core.wr_cfOld (a : Nat) (v : Word) : (c.wr a v).cfOld = c.cfOld := rfl
@[simp] theorem Core.wr_tcA (a : Nat) (v : Word) : (c.wr a v).tcA = c.tcA := rfl
@[simp] theorem Core.wr_tcB (a : Nat) (v : Word) : (c.wr a v).tcB = c.tcB := rfl
@[simp] theorem Core.wr_ports (a : Nat) (v : Word) : (c.wr a v).ports = c.ports := rfl
@[simp] theorem Core.wr_objs (a : Nat) (v : Word) : (c.wr a v).objs = c.objs := rfl
@[simp] theorem Core.wr_groups (a : Nat) (v : Word) : (c.wr a v).groups = c.groups := rfl
@[simp] theorem Core.wr_slots (a : Nat) (v : Word) : (c.wr a v).slots = c.slots := rfl
@[simp] theorem Core.wr_prbsS (a : Nat) (v : Word) : (c.wr a v).prbsS = c.prbsS := rfl
@[simp] theorem Core.wr_d06 (a : Nat) (v : Word) : (c.wr a v).d06 = c.d06 := rfl
@[simp] theorem Core.wr_frame (a : Nat) (v : Word) : (c.wr a v).frame = c.frame := rfl
@[simp] theorem Core.wr_tick (a : Nat) (v : Word) : (c.wr a v).tick = c.tick := rfl
@[simp] theorem Core.wr_freeCtr (a : Nat) (v : Word) : (c.wr a v).freeCtr = c.freeCtr := rfl
@[simp] theorem Core.wr_pmSec (a : Nat) (v : Word) : (c.wr a v).pmSec = c.pmSec := rfl
@[simp] theorem Core.wr_harvest (a : Nat) (v : Word) : (c.wr a v).harvest = c.harvest := rfl
@[simp] theorem Core.wr_pmSuspect (a : Nat) (v : Word) : (c.wr a v).pmSuspect = c.pmSuspect := rfl
@[simp] theorem Core.wr_lateCount (a : Nat) (v : Word) : (c.wr a v).lateCount = c.lateCount := rfl
@[simp] theorem Core.wr_ceSec (a : Nat) (v : Word) : (c.wr a v).ceSec = c.ceSec := rfl
@[simp] theorem Core.wr_lateSec (a : Nat) (v : Word) : (c.wr a v).lateSec = c.lateSec := rfl
@[simp] theorem Core.wr_ceDone (a : Nat) (v : Word) : (c.wr a v).ceDone = c.ceDone := rfl
@[simp] theorem Core.wr_lateDone (a : Nat) (v : Word) : (c.wr a v).lateDone = c.lateDone := rfl
@[simp] theorem Core.wr_weirS (a : Nat) (v : Word) : (c.wr a v).weirS = c.weirS := rfl
@[simp] theorem Core.wr_cmds (a : Nat) (v : Word) : (c.wr a v).cmds = c.cmds := rfl
@[simp] theorem Core.wr_cpls (a : Nat) (v : Word) : (c.wr a v).cpls = c.cpls := rfl
@[simp] theorem Core.wr_cmdNo (a : Nat) (v : Word) : (c.wr a v).cmdNo = c.cmdNo := rfl
@[simp] theorem Core.wr_rsvS (a : Nat) (v : Word) : (c.wr a v).rsvS = c.rsvS := rfl
@[simp] theorem Core.wr_sluS (a : Nat) (v : Word) : (c.wr a v).sluS = c.sluS := rfl
@[simp] theorem Core.wr_mspRx (a : Nat) (v : Word) : (c.wr a v).mspRx = c.mspRx := rfl
@[simp] theorem Core.wr_spare (a : Nat) (v : Word) : (c.wr a v).spare = c.spare := rfl
@[simp] theorem Core.wr_timS (a : Nat) (v : Word) : (c.wr a v).timS = c.timS := rfl
@[simp] theorem Core.wr_cuS (a : Nat) (v : Word) : (c.wr a v).cuS = c.cuS := rfl
@[simp] theorem Core.wr_pins (a : Nat) (v : Word) : (c.wr a v).pins = c.pins := rfl
@[simp] theorem Core.wr_fuses (a : Nat) (v : Word) : (c.wr a v).fuses = c.fuses := rfl
@[simp] theorem Core.wr_wrdS (a : Nat) (v : Word) : (c.wr a v).wrdS = c.wrdS := rfl
@[simp] theorem Core.wr_hifS (a : Nat) (v : Word) : (c.wr a v).hifS = c.hifS := rfl
@[simp] theorem Core.wr_spwS (a : Nat) (v : Word) : (c.wr a v).spwS = c.spwS := rfl
@[simp] theorem Core.wr_levS (a : Nat) (v : Word) : (c.wr a v).levS = c.levS := rfl
@[simp] theorem Core.wr_snpS (a : Nat) (v : Word) : (c.wr a v).snpS = c.snpS := rfl
@[simp] theorem Core.wr_scans (a : Nat) (v : Word) : (c.wr a v).scans = c.scans := rfl
@[simp] theorem Core.wr_grd (a : Nat) (v : Word) : (c.wr a v).grd = c.grd := rfl
@[simp] theorem Core.wr_grdVal (a : Nat) (v : Word) : (c.wr a v).grdVal = c.grdVal := rfl
@[simp] theorem Core.wr_reports (a : Nat) (v : Word) : (c.wr a v).reports = c.reports := rfl
@[simp] theorem Core.wr_linkOut (a : Nat) (v : Word) : (c.wr a v).linkOut = c.linkOut := rfl
@[simp] theorem Core.wr_blocked (a : Nat) (v : Word) : (c.wr a v).blocked = c.blocked := rfl

/-! `sf` changes regs. -/

@[simp] theorem Core.sf_parMis (a lo n v : Nat) : (c.sf a lo n v).parMis = c.parMis := rfl
@[simp] theorem Core.sf_ct1 (a lo n v : Nat) : (c.sf a lo n v).ct1 = c.ct1 := rfl
@[simp] theorem Core.sf_ct2 (a lo n v : Nat) : (c.sf a lo n v).ct2 = c.ct2 := rfl
@[simp] theorem Core.sf_tbl (a lo n v : Nat) : (c.sf a lo n v).tbl = c.tbl := rfl
@[simp] theorem Core.sf_cfOld (a lo n v : Nat) : (c.sf a lo n v).cfOld = c.cfOld := rfl
@[simp] theorem Core.sf_tcA (a lo n v : Nat) : (c.sf a lo n v).tcA = c.tcA := rfl
@[simp] theorem Core.sf_tcB (a lo n v : Nat) : (c.sf a lo n v).tcB = c.tcB := rfl
@[simp] theorem Core.sf_ports (a lo n v : Nat) : (c.sf a lo n v).ports = c.ports := rfl
@[simp] theorem Core.sf_objs (a lo n v : Nat) : (c.sf a lo n v).objs = c.objs := rfl
@[simp] theorem Core.sf_groups (a lo n v : Nat) : (c.sf a lo n v).groups = c.groups := rfl
@[simp] theorem Core.sf_slots (a lo n v : Nat) : (c.sf a lo n v).slots = c.slots := rfl
@[simp] theorem Core.sf_prbsS (a lo n v : Nat) : (c.sf a lo n v).prbsS = c.prbsS := rfl
@[simp] theorem Core.sf_d06 (a lo n v : Nat) : (c.sf a lo n v).d06 = c.d06 := rfl
@[simp] theorem Core.sf_frame (a lo n v : Nat) : (c.sf a lo n v).frame = c.frame := rfl
@[simp] theorem Core.sf_tick (a lo n v : Nat) : (c.sf a lo n v).tick = c.tick := rfl
@[simp] theorem Core.sf_freeCtr (a lo n v : Nat) : (c.sf a lo n v).freeCtr = c.freeCtr := rfl
@[simp] theorem Core.sf_pmSec (a lo n v : Nat) : (c.sf a lo n v).pmSec = c.pmSec := rfl
@[simp] theorem Core.sf_harvest (a lo n v : Nat) : (c.sf a lo n v).harvest = c.harvest := rfl
@[simp] theorem Core.sf_pmSuspect (a lo n v : Nat) : (c.sf a lo n v).pmSuspect = c.pmSuspect := rfl
@[simp] theorem Core.sf_lateCount (a lo n v : Nat) : (c.sf a lo n v).lateCount = c.lateCount := rfl
@[simp] theorem Core.sf_ceSec (a lo n v : Nat) : (c.sf a lo n v).ceSec = c.ceSec := rfl
@[simp] theorem Core.sf_lateSec (a lo n v : Nat) : (c.sf a lo n v).lateSec = c.lateSec := rfl
@[simp] theorem Core.sf_ceDone (a lo n v : Nat) : (c.sf a lo n v).ceDone = c.ceDone := rfl
@[simp] theorem Core.sf_lateDone (a lo n v : Nat) : (c.sf a lo n v).lateDone = c.lateDone := rfl
@[simp] theorem Core.sf_weirS (a lo n v : Nat) : (c.sf a lo n v).weirS = c.weirS := rfl
@[simp] theorem Core.sf_cmds (a lo n v : Nat) : (c.sf a lo n v).cmds = c.cmds := rfl
@[simp] theorem Core.sf_cpls (a lo n v : Nat) : (c.sf a lo n v).cpls = c.cpls := rfl
@[simp] theorem Core.sf_cmdNo (a lo n v : Nat) : (c.sf a lo n v).cmdNo = c.cmdNo := rfl
@[simp] theorem Core.sf_rsvS (a lo n v : Nat) : (c.sf a lo n v).rsvS = c.rsvS := rfl
@[simp] theorem Core.sf_sluS (a lo n v : Nat) : (c.sf a lo n v).sluS = c.sluS := rfl
@[simp] theorem Core.sf_mspRx (a lo n v : Nat) : (c.sf a lo n v).mspRx = c.mspRx := rfl
@[simp] theorem Core.sf_spare (a lo n v : Nat) : (c.sf a lo n v).spare = c.spare := rfl
@[simp] theorem Core.sf_timS (a lo n v : Nat) : (c.sf a lo n v).timS = c.timS := rfl
@[simp] theorem Core.sf_cuS (a lo n v : Nat) : (c.sf a lo n v).cuS = c.cuS := rfl
@[simp] theorem Core.sf_pins (a lo n v : Nat) : (c.sf a lo n v).pins = c.pins := rfl
@[simp] theorem Core.sf_fuses (a lo n v : Nat) : (c.sf a lo n v).fuses = c.fuses := rfl
@[simp] theorem Core.sf_wrdS (a lo n v : Nat) : (c.sf a lo n v).wrdS = c.wrdS := rfl
@[simp] theorem Core.sf_hifS (a lo n v : Nat) : (c.sf a lo n v).hifS = c.hifS := rfl
@[simp] theorem Core.sf_spwS (a lo n v : Nat) : (c.sf a lo n v).spwS = c.spwS := rfl
@[simp] theorem Core.sf_levS (a lo n v : Nat) : (c.sf a lo n v).levS = c.levS := rfl
@[simp] theorem Core.sf_snpS (a lo n v : Nat) : (c.sf a lo n v).snpS = c.snpS := rfl
@[simp] theorem Core.sf_scans (a lo n v : Nat) : (c.sf a lo n v).scans = c.scans := rfl
@[simp] theorem Core.sf_grd (a lo n v : Nat) : (c.sf a lo n v).grd = c.grd := rfl
@[simp] theorem Core.sf_grdVal (a lo n v : Nat) : (c.sf a lo n v).grdVal = c.grdVal := rfl
@[simp] theorem Core.sf_reports (a lo n v : Nat) : (c.sf a lo n v).reports = c.reports := rfl
@[simp] theorem Core.sf_linkOut (a lo n v : Nat) : (c.sf a lo n v).linkOut = c.linkOut := rfl
@[simp] theorem Core.sf_blocked (a lo n v : Nat) : (c.sf a lo n v).blocked = c.blocked := rfl

/-! `sb` changes regs. -/

@[simp] theorem Core.sb_parMis (a b : Nat) (v : Bool) : (c.sb a b v).parMis = c.parMis := rfl
@[simp] theorem Core.sb_ct1 (a b : Nat) (v : Bool) : (c.sb a b v).ct1 = c.ct1 := rfl
@[simp] theorem Core.sb_ct2 (a b : Nat) (v : Bool) : (c.sb a b v).ct2 = c.ct2 := rfl
@[simp] theorem Core.sb_tbl (a b : Nat) (v : Bool) : (c.sb a b v).tbl = c.tbl := rfl
@[simp] theorem Core.sb_cfOld (a b : Nat) (v : Bool) : (c.sb a b v).cfOld = c.cfOld := rfl
@[simp] theorem Core.sb_tcA (a b : Nat) (v : Bool) : (c.sb a b v).tcA = c.tcA := rfl
@[simp] theorem Core.sb_tcB (a b : Nat) (v : Bool) : (c.sb a b v).tcB = c.tcB := rfl
@[simp] theorem Core.sb_ports (a b : Nat) (v : Bool) : (c.sb a b v).ports = c.ports := rfl
@[simp] theorem Core.sb_objs (a b : Nat) (v : Bool) : (c.sb a b v).objs = c.objs := rfl
@[simp] theorem Core.sb_groups (a b : Nat) (v : Bool) : (c.sb a b v).groups = c.groups := rfl
@[simp] theorem Core.sb_slots (a b : Nat) (v : Bool) : (c.sb a b v).slots = c.slots := rfl
@[simp] theorem Core.sb_prbsS (a b : Nat) (v : Bool) : (c.sb a b v).prbsS = c.prbsS := rfl
@[simp] theorem Core.sb_d06 (a b : Nat) (v : Bool) : (c.sb a b v).d06 = c.d06 := rfl
@[simp] theorem Core.sb_frame (a b : Nat) (v : Bool) : (c.sb a b v).frame = c.frame := rfl
@[simp] theorem Core.sb_tick (a b : Nat) (v : Bool) : (c.sb a b v).tick = c.tick := rfl
@[simp] theorem Core.sb_freeCtr (a b : Nat) (v : Bool) : (c.sb a b v).freeCtr = c.freeCtr := rfl
@[simp] theorem Core.sb_pmSec (a b : Nat) (v : Bool) : (c.sb a b v).pmSec = c.pmSec := rfl
@[simp] theorem Core.sb_harvest (a b : Nat) (v : Bool) : (c.sb a b v).harvest = c.harvest := rfl
@[simp] theorem Core.sb_pmSuspect (a b : Nat) (v : Bool) : (c.sb a b v).pmSuspect = c.pmSuspect := rfl
@[simp] theorem Core.sb_lateCount (a b : Nat) (v : Bool) : (c.sb a b v).lateCount = c.lateCount := rfl
@[simp] theorem Core.sb_ceSec (a b : Nat) (v : Bool) : (c.sb a b v).ceSec = c.ceSec := rfl
@[simp] theorem Core.sb_lateSec (a b : Nat) (v : Bool) : (c.sb a b v).lateSec = c.lateSec := rfl
@[simp] theorem Core.sb_ceDone (a b : Nat) (v : Bool) : (c.sb a b v).ceDone = c.ceDone := rfl
@[simp] theorem Core.sb_lateDone (a b : Nat) (v : Bool) : (c.sb a b v).lateDone = c.lateDone := rfl
@[simp] theorem Core.sb_weirS (a b : Nat) (v : Bool) : (c.sb a b v).weirS = c.weirS := rfl
@[simp] theorem Core.sb_cmds (a b : Nat) (v : Bool) : (c.sb a b v).cmds = c.cmds := rfl
@[simp] theorem Core.sb_cpls (a b : Nat) (v : Bool) : (c.sb a b v).cpls = c.cpls := rfl
@[simp] theorem Core.sb_cmdNo (a b : Nat) (v : Bool) : (c.sb a b v).cmdNo = c.cmdNo := rfl
@[simp] theorem Core.sb_rsvS (a b : Nat) (v : Bool) : (c.sb a b v).rsvS = c.rsvS := rfl
@[simp] theorem Core.sb_sluS (a b : Nat) (v : Bool) : (c.sb a b v).sluS = c.sluS := rfl
@[simp] theorem Core.sb_mspRx (a b : Nat) (v : Bool) : (c.sb a b v).mspRx = c.mspRx := rfl
@[simp] theorem Core.sb_spare (a b : Nat) (v : Bool) : (c.sb a b v).spare = c.spare := rfl
@[simp] theorem Core.sb_timS (a b : Nat) (v : Bool) : (c.sb a b v).timS = c.timS := rfl
@[simp] theorem Core.sb_cuS (a b : Nat) (v : Bool) : (c.sb a b v).cuS = c.cuS := rfl
@[simp] theorem Core.sb_pins (a b : Nat) (v : Bool) : (c.sb a b v).pins = c.pins := rfl
@[simp] theorem Core.sb_fuses (a b : Nat) (v : Bool) : (c.sb a b v).fuses = c.fuses := rfl
@[simp] theorem Core.sb_wrdS (a b : Nat) (v : Bool) : (c.sb a b v).wrdS = c.wrdS := rfl
@[simp] theorem Core.sb_hifS (a b : Nat) (v : Bool) : (c.sb a b v).hifS = c.hifS := rfl
@[simp] theorem Core.sb_spwS (a b : Nat) (v : Bool) : (c.sb a b v).spwS = c.spwS := rfl
@[simp] theorem Core.sb_levS (a b : Nat) (v : Bool) : (c.sb a b v).levS = c.levS := rfl
@[simp] theorem Core.sb_snpS (a b : Nat) (v : Bool) : (c.sb a b v).snpS = c.snpS := rfl
@[simp] theorem Core.sb_scans (a b : Nat) (v : Bool) : (c.sb a b v).scans = c.scans := rfl
@[simp] theorem Core.sb_grd (a b : Nat) (v : Bool) : (c.sb a b v).grd = c.grd := rfl
@[simp] theorem Core.sb_grdVal (a b : Nat) (v : Bool) : (c.sb a b v).grdVal = c.grdVal := rfl
@[simp] theorem Core.sb_reports (a b : Nat) (v : Bool) : (c.sb a b v).reports = c.reports := rfl
@[simp] theorem Core.sb_linkOut (a b : Nat) (v : Bool) : (c.sb a b v).linkOut = c.linkOut := rfl
@[simp] theorem Core.sb_blocked (a b : Nat) (v : Bool) : (c.sb a b v).blocked = c.blocked := rfl

/-! `ev` changes regs. -/

@[simp] theorem Core.ev_parMis (a : Nat) (m : Word) : (c.ev a m).parMis = c.parMis := rfl
@[simp] theorem Core.ev_ct1 (a : Nat) (m : Word) : (c.ev a m).ct1 = c.ct1 := rfl
@[simp] theorem Core.ev_ct2 (a : Nat) (m : Word) : (c.ev a m).ct2 = c.ct2 := rfl
@[simp] theorem Core.ev_tbl (a : Nat) (m : Word) : (c.ev a m).tbl = c.tbl := rfl
@[simp] theorem Core.ev_cfOld (a : Nat) (m : Word) : (c.ev a m).cfOld = c.cfOld := rfl
@[simp] theorem Core.ev_tcA (a : Nat) (m : Word) : (c.ev a m).tcA = c.tcA := rfl
@[simp] theorem Core.ev_tcB (a : Nat) (m : Word) : (c.ev a m).tcB = c.tcB := rfl
@[simp] theorem Core.ev_ports (a : Nat) (m : Word) : (c.ev a m).ports = c.ports := rfl
@[simp] theorem Core.ev_objs (a : Nat) (m : Word) : (c.ev a m).objs = c.objs := rfl
@[simp] theorem Core.ev_groups (a : Nat) (m : Word) : (c.ev a m).groups = c.groups := rfl
@[simp] theorem Core.ev_slots (a : Nat) (m : Word) : (c.ev a m).slots = c.slots := rfl
@[simp] theorem Core.ev_prbsS (a : Nat) (m : Word) : (c.ev a m).prbsS = c.prbsS := rfl
@[simp] theorem Core.ev_d06 (a : Nat) (m : Word) : (c.ev a m).d06 = c.d06 := rfl
@[simp] theorem Core.ev_frame (a : Nat) (m : Word) : (c.ev a m).frame = c.frame := rfl
@[simp] theorem Core.ev_tick (a : Nat) (m : Word) : (c.ev a m).tick = c.tick := rfl
@[simp] theorem Core.ev_freeCtr (a : Nat) (m : Word) : (c.ev a m).freeCtr = c.freeCtr := rfl
@[simp] theorem Core.ev_pmSec (a : Nat) (m : Word) : (c.ev a m).pmSec = c.pmSec := rfl
@[simp] theorem Core.ev_harvest (a : Nat) (m : Word) : (c.ev a m).harvest = c.harvest := rfl
@[simp] theorem Core.ev_pmSuspect (a : Nat) (m : Word) : (c.ev a m).pmSuspect = c.pmSuspect := rfl
@[simp] theorem Core.ev_lateCount (a : Nat) (m : Word) : (c.ev a m).lateCount = c.lateCount := rfl
@[simp] theorem Core.ev_ceSec (a : Nat) (m : Word) : (c.ev a m).ceSec = c.ceSec := rfl
@[simp] theorem Core.ev_lateSec (a : Nat) (m : Word) : (c.ev a m).lateSec = c.lateSec := rfl
@[simp] theorem Core.ev_ceDone (a : Nat) (m : Word) : (c.ev a m).ceDone = c.ceDone := rfl
@[simp] theorem Core.ev_lateDone (a : Nat) (m : Word) : (c.ev a m).lateDone = c.lateDone := rfl
@[simp] theorem Core.ev_weirS (a : Nat) (m : Word) : (c.ev a m).weirS = c.weirS := rfl
@[simp] theorem Core.ev_cmds (a : Nat) (m : Word) : (c.ev a m).cmds = c.cmds := rfl
@[simp] theorem Core.ev_cpls (a : Nat) (m : Word) : (c.ev a m).cpls = c.cpls := rfl
@[simp] theorem Core.ev_cmdNo (a : Nat) (m : Word) : (c.ev a m).cmdNo = c.cmdNo := rfl
@[simp] theorem Core.ev_rsvS (a : Nat) (m : Word) : (c.ev a m).rsvS = c.rsvS := rfl
@[simp] theorem Core.ev_sluS (a : Nat) (m : Word) : (c.ev a m).sluS = c.sluS := rfl
@[simp] theorem Core.ev_mspRx (a : Nat) (m : Word) : (c.ev a m).mspRx = c.mspRx := rfl
@[simp] theorem Core.ev_spare (a : Nat) (m : Word) : (c.ev a m).spare = c.spare := rfl
@[simp] theorem Core.ev_timS (a : Nat) (m : Word) : (c.ev a m).timS = c.timS := rfl
@[simp] theorem Core.ev_cuS (a : Nat) (m : Word) : (c.ev a m).cuS = c.cuS := rfl
@[simp] theorem Core.ev_pins (a : Nat) (m : Word) : (c.ev a m).pins = c.pins := rfl
@[simp] theorem Core.ev_fuses (a : Nat) (m : Word) : (c.ev a m).fuses = c.fuses := rfl
@[simp] theorem Core.ev_wrdS (a : Nat) (m : Word) : (c.ev a m).wrdS = c.wrdS := rfl
@[simp] theorem Core.ev_hifS (a : Nat) (m : Word) : (c.ev a m).hifS = c.hifS := rfl
@[simp] theorem Core.ev_spwS (a : Nat) (m : Word) : (c.ev a m).spwS = c.spwS := rfl
@[simp] theorem Core.ev_levS (a : Nat) (m : Word) : (c.ev a m).levS = c.levS := rfl
@[simp] theorem Core.ev_snpS (a : Nat) (m : Word) : (c.ev a m).snpS = c.snpS := rfl
@[simp] theorem Core.ev_scans (a : Nat) (m : Word) : (c.ev a m).scans = c.scans := rfl
@[simp] theorem Core.ev_grd (a : Nat) (m : Word) : (c.ev a m).grd = c.grd := rfl
@[simp] theorem Core.ev_grdVal (a : Nat) (m : Word) : (c.ev a m).grdVal = c.grdVal := rfl
@[simp] theorem Core.ev_reports (a : Nat) (m : Word) : (c.ev a m).reports = c.reports := rfl
@[simp] theorem Core.ev_linkOut (a : Nat) (m : Word) : (c.ev a m).linkOut = c.linkOut := rfl
@[simp] theorem Core.ev_blocked (a : Nat) (m : Word) : (c.ev a m).blocked = c.blocked := rfl

/-! `clearRegs` changes regs. -/

@[simp] theorem Core.clearRegs_parMis (lo hi : Nat) : (c.clearRegs lo hi).parMis = c.parMis := rfl
@[simp] theorem Core.clearRegs_ct1 (lo hi : Nat) : (c.clearRegs lo hi).ct1 = c.ct1 := rfl
@[simp] theorem Core.clearRegs_ct2 (lo hi : Nat) : (c.clearRegs lo hi).ct2 = c.ct2 := rfl
@[simp] theorem Core.clearRegs_tbl (lo hi : Nat) : (c.clearRegs lo hi).tbl = c.tbl := rfl
@[simp] theorem Core.clearRegs_cfOld (lo hi : Nat) : (c.clearRegs lo hi).cfOld = c.cfOld := rfl
@[simp] theorem Core.clearRegs_tcA (lo hi : Nat) : (c.clearRegs lo hi).tcA = c.tcA := rfl
@[simp] theorem Core.clearRegs_tcB (lo hi : Nat) : (c.clearRegs lo hi).tcB = c.tcB := rfl
@[simp] theorem Core.clearRegs_ports (lo hi : Nat) : (c.clearRegs lo hi).ports = c.ports := rfl
@[simp] theorem Core.clearRegs_objs (lo hi : Nat) : (c.clearRegs lo hi).objs = c.objs := rfl
@[simp] theorem Core.clearRegs_groups (lo hi : Nat) : (c.clearRegs lo hi).groups = c.groups := rfl
@[simp] theorem Core.clearRegs_slots (lo hi : Nat) : (c.clearRegs lo hi).slots = c.slots := rfl
@[simp] theorem Core.clearRegs_prbsS (lo hi : Nat) : (c.clearRegs lo hi).prbsS = c.prbsS := rfl
@[simp] theorem Core.clearRegs_d06 (lo hi : Nat) : (c.clearRegs lo hi).d06 = c.d06 := rfl
@[simp] theorem Core.clearRegs_frame (lo hi : Nat) : (c.clearRegs lo hi).frame = c.frame := rfl
@[simp] theorem Core.clearRegs_tick (lo hi : Nat) : (c.clearRegs lo hi).tick = c.tick := rfl
@[simp] theorem Core.clearRegs_freeCtr (lo hi : Nat) : (c.clearRegs lo hi).freeCtr = c.freeCtr := rfl
@[simp] theorem Core.clearRegs_pmSec (lo hi : Nat) : (c.clearRegs lo hi).pmSec = c.pmSec := rfl
@[simp] theorem Core.clearRegs_harvest (lo hi : Nat) : (c.clearRegs lo hi).harvest = c.harvest := rfl
@[simp] theorem Core.clearRegs_pmSuspect (lo hi : Nat) : (c.clearRegs lo hi).pmSuspect = c.pmSuspect := rfl
@[simp] theorem Core.clearRegs_lateCount (lo hi : Nat) : (c.clearRegs lo hi).lateCount = c.lateCount := rfl
@[simp] theorem Core.clearRegs_ceSec (lo hi : Nat) : (c.clearRegs lo hi).ceSec = c.ceSec := rfl
@[simp] theorem Core.clearRegs_lateSec (lo hi : Nat) : (c.clearRegs lo hi).lateSec = c.lateSec := rfl
@[simp] theorem Core.clearRegs_ceDone (lo hi : Nat) : (c.clearRegs lo hi).ceDone = c.ceDone := rfl
@[simp] theorem Core.clearRegs_lateDone (lo hi : Nat) : (c.clearRegs lo hi).lateDone = c.lateDone := rfl
@[simp] theorem Core.clearRegs_weirS (lo hi : Nat) : (c.clearRegs lo hi).weirS = c.weirS := rfl
@[simp] theorem Core.clearRegs_cmds (lo hi : Nat) : (c.clearRegs lo hi).cmds = c.cmds := rfl
@[simp] theorem Core.clearRegs_cpls (lo hi : Nat) : (c.clearRegs lo hi).cpls = c.cpls := rfl
@[simp] theorem Core.clearRegs_cmdNo (lo hi : Nat) : (c.clearRegs lo hi).cmdNo = c.cmdNo := rfl
@[simp] theorem Core.clearRegs_rsvS (lo hi : Nat) : (c.clearRegs lo hi).rsvS = c.rsvS := rfl
@[simp] theorem Core.clearRegs_sluS (lo hi : Nat) : (c.clearRegs lo hi).sluS = c.sluS := rfl
@[simp] theorem Core.clearRegs_mspRx (lo hi : Nat) : (c.clearRegs lo hi).mspRx = c.mspRx := rfl
@[simp] theorem Core.clearRegs_spare (lo hi : Nat) : (c.clearRegs lo hi).spare = c.spare := rfl
@[simp] theorem Core.clearRegs_timS (lo hi : Nat) : (c.clearRegs lo hi).timS = c.timS := rfl
@[simp] theorem Core.clearRegs_cuS (lo hi : Nat) : (c.clearRegs lo hi).cuS = c.cuS := rfl
@[simp] theorem Core.clearRegs_pins (lo hi : Nat) : (c.clearRegs lo hi).pins = c.pins := rfl
@[simp] theorem Core.clearRegs_fuses (lo hi : Nat) : (c.clearRegs lo hi).fuses = c.fuses := rfl
@[simp] theorem Core.clearRegs_wrdS (lo hi : Nat) : (c.clearRegs lo hi).wrdS = c.wrdS := rfl
@[simp] theorem Core.clearRegs_hifS (lo hi : Nat) : (c.clearRegs lo hi).hifS = c.hifS := rfl
@[simp] theorem Core.clearRegs_spwS (lo hi : Nat) : (c.clearRegs lo hi).spwS = c.spwS := rfl
@[simp] theorem Core.clearRegs_levS (lo hi : Nat) : (c.clearRegs lo hi).levS = c.levS := rfl
@[simp] theorem Core.clearRegs_snpS (lo hi : Nat) : (c.clearRegs lo hi).snpS = c.snpS := rfl
@[simp] theorem Core.clearRegs_scans (lo hi : Nat) : (c.clearRegs lo hi).scans = c.scans := rfl
@[simp] theorem Core.clearRegs_grd (lo hi : Nat) : (c.clearRegs lo hi).grd = c.grd := rfl
@[simp] theorem Core.clearRegs_grdVal (lo hi : Nat) : (c.clearRegs lo hi).grdVal = c.grdVal := rfl
@[simp] theorem Core.clearRegs_reports (lo hi : Nat) : (c.clearRegs lo hi).reports = c.reports := rfl
@[simp] theorem Core.clearRegs_linkOut (lo hi : Nat) : (c.clearRegs lo hi).linkOut = c.linkOut := rfl
@[simp] theorem Core.clearRegs_blocked (lo hi : Nat) : (c.clearRegs lo hi).blocked = c.blocked := rfl

/-! `ign` changes regs. -/

@[simp] theorem Core.ign_parMis (a k : Nat) : (c.ign a k).parMis = c.parMis := rfl
@[simp] theorem Core.ign_ct1 (a k : Nat) : (c.ign a k).ct1 = c.ct1 := rfl
@[simp] theorem Core.ign_ct2 (a k : Nat) : (c.ign a k).ct2 = c.ct2 := rfl
@[simp] theorem Core.ign_tbl (a k : Nat) : (c.ign a k).tbl = c.tbl := rfl
@[simp] theorem Core.ign_cfOld (a k : Nat) : (c.ign a k).cfOld = c.cfOld := rfl
@[simp] theorem Core.ign_tcA (a k : Nat) : (c.ign a k).tcA = c.tcA := rfl
@[simp] theorem Core.ign_tcB (a k : Nat) : (c.ign a k).tcB = c.tcB := rfl
@[simp] theorem Core.ign_ports (a k : Nat) : (c.ign a k).ports = c.ports := rfl
@[simp] theorem Core.ign_objs (a k : Nat) : (c.ign a k).objs = c.objs := rfl
@[simp] theorem Core.ign_groups (a k : Nat) : (c.ign a k).groups = c.groups := rfl
@[simp] theorem Core.ign_slots (a k : Nat) : (c.ign a k).slots = c.slots := rfl
@[simp] theorem Core.ign_prbsS (a k : Nat) : (c.ign a k).prbsS = c.prbsS := rfl
@[simp] theorem Core.ign_d06 (a k : Nat) : (c.ign a k).d06 = c.d06 := rfl
@[simp] theorem Core.ign_frame (a k : Nat) : (c.ign a k).frame = c.frame := rfl
@[simp] theorem Core.ign_tick (a k : Nat) : (c.ign a k).tick = c.tick := rfl
@[simp] theorem Core.ign_freeCtr (a k : Nat) : (c.ign a k).freeCtr = c.freeCtr := rfl
@[simp] theorem Core.ign_pmSec (a k : Nat) : (c.ign a k).pmSec = c.pmSec := rfl
@[simp] theorem Core.ign_harvest (a k : Nat) : (c.ign a k).harvest = c.harvest := rfl
@[simp] theorem Core.ign_pmSuspect (a k : Nat) : (c.ign a k).pmSuspect = c.pmSuspect := rfl
@[simp] theorem Core.ign_lateCount (a k : Nat) : (c.ign a k).lateCount = c.lateCount := rfl
@[simp] theorem Core.ign_ceSec (a k : Nat) : (c.ign a k).ceSec = c.ceSec := rfl
@[simp] theorem Core.ign_lateSec (a k : Nat) : (c.ign a k).lateSec = c.lateSec := rfl
@[simp] theorem Core.ign_ceDone (a k : Nat) : (c.ign a k).ceDone = c.ceDone := rfl
@[simp] theorem Core.ign_lateDone (a k : Nat) : (c.ign a k).lateDone = c.lateDone := rfl
@[simp] theorem Core.ign_weirS (a k : Nat) : (c.ign a k).weirS = c.weirS := rfl
@[simp] theorem Core.ign_cmds (a k : Nat) : (c.ign a k).cmds = c.cmds := rfl
@[simp] theorem Core.ign_cpls (a k : Nat) : (c.ign a k).cpls = c.cpls := rfl
@[simp] theorem Core.ign_cmdNo (a k : Nat) : (c.ign a k).cmdNo = c.cmdNo := rfl
@[simp] theorem Core.ign_rsvS (a k : Nat) : (c.ign a k).rsvS = c.rsvS := rfl
@[simp] theorem Core.ign_sluS (a k : Nat) : (c.ign a k).sluS = c.sluS := rfl
@[simp] theorem Core.ign_mspRx (a k : Nat) : (c.ign a k).mspRx = c.mspRx := rfl
@[simp] theorem Core.ign_spare (a k : Nat) : (c.ign a k).spare = c.spare := rfl
@[simp] theorem Core.ign_timS (a k : Nat) : (c.ign a k).timS = c.timS := rfl
@[simp] theorem Core.ign_cuS (a k : Nat) : (c.ign a k).cuS = c.cuS := rfl
@[simp] theorem Core.ign_pins (a k : Nat) : (c.ign a k).pins = c.pins := rfl
@[simp] theorem Core.ign_fuses (a k : Nat) : (c.ign a k).fuses = c.fuses := rfl
@[simp] theorem Core.ign_wrdS (a k : Nat) : (c.ign a k).wrdS = c.wrdS := rfl
@[simp] theorem Core.ign_hifS (a k : Nat) : (c.ign a k).hifS = c.hifS := rfl
@[simp] theorem Core.ign_spwS (a k : Nat) : (c.ign a k).spwS = c.spwS := rfl
@[simp] theorem Core.ign_levS (a k : Nat) : (c.ign a k).levS = c.levS := rfl
@[simp] theorem Core.ign_snpS (a k : Nat) : (c.ign a k).snpS = c.snpS := rfl
@[simp] theorem Core.ign_scans (a k : Nat) : (c.ign a k).scans = c.scans := rfl
@[simp] theorem Core.ign_grd (a k : Nat) : (c.ign a k).grd = c.grd := rfl
@[simp] theorem Core.ign_grdVal (a k : Nat) : (c.ign a k).grdVal = c.grdVal := rfl
@[simp] theorem Core.ign_reports (a k : Nat) : (c.ign a k).reports = c.reports := rfl
@[simp] theorem Core.ign_linkOut (a k : Nat) : (c.ign a k).linkOut = c.linkOut := rfl
@[simp] theorem Core.ign_blocked (a k : Nat) : (c.ign a k).blocked = c.blocked := rfl

/-! `setStale` changes regs and levS. -/

@[simp] theorem Core.setStale_parMis (p : Nat) : (c.setStale p).parMis = c.parMis := rfl
@[simp] theorem Core.setStale_ct1 (p : Nat) : (c.setStale p).ct1 = c.ct1 := rfl
@[simp] theorem Core.setStale_ct2 (p : Nat) : (c.setStale p).ct2 = c.ct2 := rfl
@[simp] theorem Core.setStale_tbl (p : Nat) : (c.setStale p).tbl = c.tbl := rfl
@[simp] theorem Core.setStale_cfOld (p : Nat) : (c.setStale p).cfOld = c.cfOld := rfl
@[simp] theorem Core.setStale_tcA (p : Nat) : (c.setStale p).tcA = c.tcA := rfl
@[simp] theorem Core.setStale_tcB (p : Nat) : (c.setStale p).tcB = c.tcB := rfl
@[simp] theorem Core.setStale_ports (p : Nat) : (c.setStale p).ports = c.ports := rfl
@[simp] theorem Core.setStale_objs (p : Nat) : (c.setStale p).objs = c.objs := rfl
@[simp] theorem Core.setStale_groups (p : Nat) : (c.setStale p).groups = c.groups := rfl
@[simp] theorem Core.setStale_slots (p : Nat) : (c.setStale p).slots = c.slots := rfl
@[simp] theorem Core.setStale_prbsS (p : Nat) : (c.setStale p).prbsS = c.prbsS := rfl
@[simp] theorem Core.setStale_d06 (p : Nat) : (c.setStale p).d06 = c.d06 := rfl
@[simp] theorem Core.setStale_frame (p : Nat) : (c.setStale p).frame = c.frame := rfl
@[simp] theorem Core.setStale_tick (p : Nat) : (c.setStale p).tick = c.tick := rfl
@[simp] theorem Core.setStale_freeCtr (p : Nat) : (c.setStale p).freeCtr = c.freeCtr := rfl
@[simp] theorem Core.setStale_pmSec (p : Nat) : (c.setStale p).pmSec = c.pmSec := rfl
@[simp] theorem Core.setStale_harvest (p : Nat) : (c.setStale p).harvest = c.harvest := rfl
@[simp] theorem Core.setStale_pmSuspect (p : Nat) : (c.setStale p).pmSuspect = c.pmSuspect := rfl
@[simp] theorem Core.setStale_lateCount (p : Nat) : (c.setStale p).lateCount = c.lateCount := rfl
@[simp] theorem Core.setStale_ceSec (p : Nat) : (c.setStale p).ceSec = c.ceSec := rfl
@[simp] theorem Core.setStale_lateSec (p : Nat) : (c.setStale p).lateSec = c.lateSec := rfl
@[simp] theorem Core.setStale_ceDone (p : Nat) : (c.setStale p).ceDone = c.ceDone := rfl
@[simp] theorem Core.setStale_lateDone (p : Nat) : (c.setStale p).lateDone = c.lateDone := rfl
@[simp] theorem Core.setStale_weirS (p : Nat) : (c.setStale p).weirS = c.weirS := rfl
@[simp] theorem Core.setStale_cmds (p : Nat) : (c.setStale p).cmds = c.cmds := rfl
@[simp] theorem Core.setStale_cpls (p : Nat) : (c.setStale p).cpls = c.cpls := rfl
@[simp] theorem Core.setStale_cmdNo (p : Nat) : (c.setStale p).cmdNo = c.cmdNo := rfl
@[simp] theorem Core.setStale_rsvS (p : Nat) : (c.setStale p).rsvS = c.rsvS := rfl
@[simp] theorem Core.setStale_sluS (p : Nat) : (c.setStale p).sluS = c.sluS := rfl
@[simp] theorem Core.setStale_mspRx (p : Nat) : (c.setStale p).mspRx = c.mspRx := rfl
@[simp] theorem Core.setStale_spare (p : Nat) : (c.setStale p).spare = c.spare := rfl
@[simp] theorem Core.setStale_timS (p : Nat) : (c.setStale p).timS = c.timS := rfl
@[simp] theorem Core.setStale_cuS (p : Nat) : (c.setStale p).cuS = c.cuS := rfl
@[simp] theorem Core.setStale_pins (p : Nat) : (c.setStale p).pins = c.pins := rfl
@[simp] theorem Core.setStale_fuses (p : Nat) : (c.setStale p).fuses = c.fuses := rfl
@[simp] theorem Core.setStale_wrdS (p : Nat) : (c.setStale p).wrdS = c.wrdS := rfl
@[simp] theorem Core.setStale_hifS (p : Nat) : (c.setStale p).hifS = c.hifS := rfl
@[simp] theorem Core.setStale_spwS (p : Nat) : (c.setStale p).spwS = c.spwS := rfl
@[simp] theorem Core.setStale_snpS (p : Nat) : (c.setStale p).snpS = c.snpS := rfl
@[simp] theorem Core.setStale_scans (p : Nat) : (c.setStale p).scans = c.scans := rfl
@[simp] theorem Core.setStale_grd (p : Nat) : (c.setStale p).grd = c.grd := rfl
@[simp] theorem Core.setStale_grdVal (p : Nat) : (c.setStale p).grdVal = c.grdVal := rfl
@[simp] theorem Core.setStale_reports (p : Nat) : (c.setStale p).reports = c.reports := rfl
@[simp] theorem Core.setStale_linkOut (p : Nat) : (c.setStale p).linkOut = c.linkOut := rfl
@[simp] theorem Core.setStale_blocked (p : Nat) : (c.setStale p).blocked = c.blocked := rfl

/-! `fresh` changes freeCtr. -/

@[simp] theorem Core.fresh_regs : (c.fresh).regs = c.regs := rfl
@[simp] theorem Core.fresh_parMis : (c.fresh).parMis = c.parMis := rfl
@[simp] theorem Core.fresh_ct1 : (c.fresh).ct1 = c.ct1 := rfl
@[simp] theorem Core.fresh_ct2 : (c.fresh).ct2 = c.ct2 := rfl
@[simp] theorem Core.fresh_tbl : (c.fresh).tbl = c.tbl := rfl
@[simp] theorem Core.fresh_cfOld : (c.fresh).cfOld = c.cfOld := rfl
@[simp] theorem Core.fresh_tcA : (c.fresh).tcA = c.tcA := rfl
@[simp] theorem Core.fresh_tcB : (c.fresh).tcB = c.tcB := rfl
@[simp] theorem Core.fresh_ports : (c.fresh).ports = c.ports := rfl
@[simp] theorem Core.fresh_objs : (c.fresh).objs = c.objs := rfl
@[simp] theorem Core.fresh_groups : (c.fresh).groups = c.groups := rfl
@[simp] theorem Core.fresh_slots : (c.fresh).slots = c.slots := rfl
@[simp] theorem Core.fresh_prbsS : (c.fresh).prbsS = c.prbsS := rfl
@[simp] theorem Core.fresh_d06 : (c.fresh).d06 = c.d06 := rfl
@[simp] theorem Core.fresh_frame : (c.fresh).frame = c.frame := rfl
@[simp] theorem Core.fresh_tick : (c.fresh).tick = c.tick := rfl
@[simp] theorem Core.fresh_pmSec : (c.fresh).pmSec = c.pmSec := rfl
@[simp] theorem Core.fresh_harvest : (c.fresh).harvest = c.harvest := rfl
@[simp] theorem Core.fresh_pmSuspect : (c.fresh).pmSuspect = c.pmSuspect := rfl
@[simp] theorem Core.fresh_lateCount : (c.fresh).lateCount = c.lateCount := rfl
@[simp] theorem Core.fresh_ceSec : (c.fresh).ceSec = c.ceSec := rfl
@[simp] theorem Core.fresh_lateSec : (c.fresh).lateSec = c.lateSec := rfl
@[simp] theorem Core.fresh_ceDone : (c.fresh).ceDone = c.ceDone := rfl
@[simp] theorem Core.fresh_lateDone : (c.fresh).lateDone = c.lateDone := rfl
@[simp] theorem Core.fresh_weirS : (c.fresh).weirS = c.weirS := rfl
@[simp] theorem Core.fresh_cmds : (c.fresh).cmds = c.cmds := rfl
@[simp] theorem Core.fresh_cpls : (c.fresh).cpls = c.cpls := rfl
@[simp] theorem Core.fresh_cmdNo : (c.fresh).cmdNo = c.cmdNo := rfl
@[simp] theorem Core.fresh_rsvS : (c.fresh).rsvS = c.rsvS := rfl
@[simp] theorem Core.fresh_sluS : (c.fresh).sluS = c.sluS := rfl
@[simp] theorem Core.fresh_mspRx : (c.fresh).mspRx = c.mspRx := rfl
@[simp] theorem Core.fresh_spare : (c.fresh).spare = c.spare := rfl
@[simp] theorem Core.fresh_timS : (c.fresh).timS = c.timS := rfl
@[simp] theorem Core.fresh_cuS : (c.fresh).cuS = c.cuS := rfl
@[simp] theorem Core.fresh_pins : (c.fresh).pins = c.pins := rfl
@[simp] theorem Core.fresh_fuses : (c.fresh).fuses = c.fuses := rfl
@[simp] theorem Core.fresh_wrdS : (c.fresh).wrdS = c.wrdS := rfl
@[simp] theorem Core.fresh_hifS : (c.fresh).hifS = c.hifS := rfl
@[simp] theorem Core.fresh_spwS : (c.fresh).spwS = c.spwS := rfl
@[simp] theorem Core.fresh_levS : (c.fresh).levS = c.levS := rfl
@[simp] theorem Core.fresh_snpS : (c.fresh).snpS = c.snpS := rfl
@[simp] theorem Core.fresh_scans : (c.fresh).scans = c.scans := rfl
@[simp] theorem Core.fresh_grd : (c.fresh).grd = c.grd := rfl
@[simp] theorem Core.fresh_grdVal : (c.fresh).grdVal = c.grdVal := rfl
@[simp] theorem Core.fresh_reports : (c.fresh).reports = c.reports := rfl
@[simp] theorem Core.fresh_linkOut : (c.fresh).linkOut = c.linkOut := rfl
@[simp] theorem Core.fresh_blocked : (c.fresh).blocked = c.blocked := rfl

/-! `twr` changes tbl. -/

@[simp] theorem Core.twr_regs (k : Nat) (v : Word) : (c.twr k v).regs = c.regs := rfl
@[simp] theorem Core.twr_parMis (k : Nat) (v : Word) : (c.twr k v).parMis = c.parMis := rfl
@[simp] theorem Core.twr_ct1 (k : Nat) (v : Word) : (c.twr k v).ct1 = c.ct1 := rfl
@[simp] theorem Core.twr_ct2 (k : Nat) (v : Word) : (c.twr k v).ct2 = c.ct2 := rfl
@[simp] theorem Core.twr_cfOld (k : Nat) (v : Word) : (c.twr k v).cfOld = c.cfOld := rfl
@[simp] theorem Core.twr_tcA (k : Nat) (v : Word) : (c.twr k v).tcA = c.tcA := rfl
@[simp] theorem Core.twr_tcB (k : Nat) (v : Word) : (c.twr k v).tcB = c.tcB := rfl
@[simp] theorem Core.twr_ports (k : Nat) (v : Word) : (c.twr k v).ports = c.ports := rfl
@[simp] theorem Core.twr_objs (k : Nat) (v : Word) : (c.twr k v).objs = c.objs := rfl
@[simp] theorem Core.twr_groups (k : Nat) (v : Word) : (c.twr k v).groups = c.groups := rfl
@[simp] theorem Core.twr_slots (k : Nat) (v : Word) : (c.twr k v).slots = c.slots := rfl
@[simp] theorem Core.twr_prbsS (k : Nat) (v : Word) : (c.twr k v).prbsS = c.prbsS := rfl
@[simp] theorem Core.twr_d06 (k : Nat) (v : Word) : (c.twr k v).d06 = c.d06 := rfl
@[simp] theorem Core.twr_frame (k : Nat) (v : Word) : (c.twr k v).frame = c.frame := rfl
@[simp] theorem Core.twr_tick (k : Nat) (v : Word) : (c.twr k v).tick = c.tick := rfl
@[simp] theorem Core.twr_freeCtr (k : Nat) (v : Word) : (c.twr k v).freeCtr = c.freeCtr := rfl
@[simp] theorem Core.twr_pmSec (k : Nat) (v : Word) : (c.twr k v).pmSec = c.pmSec := rfl
@[simp] theorem Core.twr_harvest (k : Nat) (v : Word) : (c.twr k v).harvest = c.harvest := rfl
@[simp] theorem Core.twr_pmSuspect (k : Nat) (v : Word) : (c.twr k v).pmSuspect = c.pmSuspect := rfl
@[simp] theorem Core.twr_lateCount (k : Nat) (v : Word) : (c.twr k v).lateCount = c.lateCount := rfl
@[simp] theorem Core.twr_ceSec (k : Nat) (v : Word) : (c.twr k v).ceSec = c.ceSec := rfl
@[simp] theorem Core.twr_lateSec (k : Nat) (v : Word) : (c.twr k v).lateSec = c.lateSec := rfl
@[simp] theorem Core.twr_ceDone (k : Nat) (v : Word) : (c.twr k v).ceDone = c.ceDone := rfl
@[simp] theorem Core.twr_lateDone (k : Nat) (v : Word) : (c.twr k v).lateDone = c.lateDone := rfl
@[simp] theorem Core.twr_weirS (k : Nat) (v : Word) : (c.twr k v).weirS = c.weirS := rfl
@[simp] theorem Core.twr_cmds (k : Nat) (v : Word) : (c.twr k v).cmds = c.cmds := rfl
@[simp] theorem Core.twr_cpls (k : Nat) (v : Word) : (c.twr k v).cpls = c.cpls := rfl
@[simp] theorem Core.twr_cmdNo (k : Nat) (v : Word) : (c.twr k v).cmdNo = c.cmdNo := rfl
@[simp] theorem Core.twr_rsvS (k : Nat) (v : Word) : (c.twr k v).rsvS = c.rsvS := rfl
@[simp] theorem Core.twr_sluS (k : Nat) (v : Word) : (c.twr k v).sluS = c.sluS := rfl
@[simp] theorem Core.twr_mspRx (k : Nat) (v : Word) : (c.twr k v).mspRx = c.mspRx := rfl
@[simp] theorem Core.twr_spare (k : Nat) (v : Word) : (c.twr k v).spare = c.spare := rfl
@[simp] theorem Core.twr_timS (k : Nat) (v : Word) : (c.twr k v).timS = c.timS := rfl
@[simp] theorem Core.twr_cuS (k : Nat) (v : Word) : (c.twr k v).cuS = c.cuS := rfl
@[simp] theorem Core.twr_pins (k : Nat) (v : Word) : (c.twr k v).pins = c.pins := rfl
@[simp] theorem Core.twr_fuses (k : Nat) (v : Word) : (c.twr k v).fuses = c.fuses := rfl
@[simp] theorem Core.twr_wrdS (k : Nat) (v : Word) : (c.twr k v).wrdS = c.wrdS := rfl
@[simp] theorem Core.twr_hifS (k : Nat) (v : Word) : (c.twr k v).hifS = c.hifS := rfl
@[simp] theorem Core.twr_spwS (k : Nat) (v : Word) : (c.twr k v).spwS = c.spwS := rfl
@[simp] theorem Core.twr_levS (k : Nat) (v : Word) : (c.twr k v).levS = c.levS := rfl
@[simp] theorem Core.twr_snpS (k : Nat) (v : Word) : (c.twr k v).snpS = c.snpS := rfl
@[simp] theorem Core.twr_scans (k : Nat) (v : Word) : (c.twr k v).scans = c.scans := rfl
@[simp] theorem Core.twr_grd (k : Nat) (v : Word) : (c.twr k v).grd = c.grd := rfl
@[simp] theorem Core.twr_grdVal (k : Nat) (v : Word) : (c.twr k v).grdVal = c.grdVal := rfl
@[simp] theorem Core.twr_reports (k : Nat) (v : Word) : (c.twr k v).reports = c.reports := rfl
@[simp] theorem Core.twr_linkOut (k : Nat) (v : Word) : (c.twr k v).linkOut = c.linkOut := rfl
@[simp] theorem Core.twr_blocked (k : Nat) (v : Word) : (c.twr k v).blocked = c.blocked := rfl

/-! `tsf` changes tbl. -/

@[simp] theorem Core.tsf_regs (k lo n v : Nat) : (c.tsf k lo n v).regs = c.regs := rfl
@[simp] theorem Core.tsf_parMis (k lo n v : Nat) : (c.tsf k lo n v).parMis = c.parMis := rfl
@[simp] theorem Core.tsf_ct1 (k lo n v : Nat) : (c.tsf k lo n v).ct1 = c.ct1 := rfl
@[simp] theorem Core.tsf_ct2 (k lo n v : Nat) : (c.tsf k lo n v).ct2 = c.ct2 := rfl
@[simp] theorem Core.tsf_cfOld (k lo n v : Nat) : (c.tsf k lo n v).cfOld = c.cfOld := rfl
@[simp] theorem Core.tsf_tcA (k lo n v : Nat) : (c.tsf k lo n v).tcA = c.tcA := rfl
@[simp] theorem Core.tsf_tcB (k lo n v : Nat) : (c.tsf k lo n v).tcB = c.tcB := rfl
@[simp] theorem Core.tsf_ports (k lo n v : Nat) : (c.tsf k lo n v).ports = c.ports := rfl
@[simp] theorem Core.tsf_objs (k lo n v : Nat) : (c.tsf k lo n v).objs = c.objs := rfl
@[simp] theorem Core.tsf_groups (k lo n v : Nat) : (c.tsf k lo n v).groups = c.groups := rfl
@[simp] theorem Core.tsf_slots (k lo n v : Nat) : (c.tsf k lo n v).slots = c.slots := rfl
@[simp] theorem Core.tsf_prbsS (k lo n v : Nat) : (c.tsf k lo n v).prbsS = c.prbsS := rfl
@[simp] theorem Core.tsf_d06 (k lo n v : Nat) : (c.tsf k lo n v).d06 = c.d06 := rfl
@[simp] theorem Core.tsf_frame (k lo n v : Nat) : (c.tsf k lo n v).frame = c.frame := rfl
@[simp] theorem Core.tsf_tick (k lo n v : Nat) : (c.tsf k lo n v).tick = c.tick := rfl
@[simp] theorem Core.tsf_freeCtr (k lo n v : Nat) : (c.tsf k lo n v).freeCtr = c.freeCtr := rfl
@[simp] theorem Core.tsf_pmSec (k lo n v : Nat) : (c.tsf k lo n v).pmSec = c.pmSec := rfl
@[simp] theorem Core.tsf_harvest (k lo n v : Nat) : (c.tsf k lo n v).harvest = c.harvest := rfl
@[simp] theorem Core.tsf_pmSuspect (k lo n v : Nat) : (c.tsf k lo n v).pmSuspect = c.pmSuspect := rfl
@[simp] theorem Core.tsf_lateCount (k lo n v : Nat) : (c.tsf k lo n v).lateCount = c.lateCount := rfl
@[simp] theorem Core.tsf_ceSec (k lo n v : Nat) : (c.tsf k lo n v).ceSec = c.ceSec := rfl
@[simp] theorem Core.tsf_lateSec (k lo n v : Nat) : (c.tsf k lo n v).lateSec = c.lateSec := rfl
@[simp] theorem Core.tsf_ceDone (k lo n v : Nat) : (c.tsf k lo n v).ceDone = c.ceDone := rfl
@[simp] theorem Core.tsf_lateDone (k lo n v : Nat) : (c.tsf k lo n v).lateDone = c.lateDone := rfl
@[simp] theorem Core.tsf_weirS (k lo n v : Nat) : (c.tsf k lo n v).weirS = c.weirS := rfl
@[simp] theorem Core.tsf_cmds (k lo n v : Nat) : (c.tsf k lo n v).cmds = c.cmds := rfl
@[simp] theorem Core.tsf_cpls (k lo n v : Nat) : (c.tsf k lo n v).cpls = c.cpls := rfl
@[simp] theorem Core.tsf_cmdNo (k lo n v : Nat) : (c.tsf k lo n v).cmdNo = c.cmdNo := rfl
@[simp] theorem Core.tsf_rsvS (k lo n v : Nat) : (c.tsf k lo n v).rsvS = c.rsvS := rfl
@[simp] theorem Core.tsf_sluS (k lo n v : Nat) : (c.tsf k lo n v).sluS = c.sluS := rfl
@[simp] theorem Core.tsf_mspRx (k lo n v : Nat) : (c.tsf k lo n v).mspRx = c.mspRx := rfl
@[simp] theorem Core.tsf_spare (k lo n v : Nat) : (c.tsf k lo n v).spare = c.spare := rfl
@[simp] theorem Core.tsf_timS (k lo n v : Nat) : (c.tsf k lo n v).timS = c.timS := rfl
@[simp] theorem Core.tsf_cuS (k lo n v : Nat) : (c.tsf k lo n v).cuS = c.cuS := rfl
@[simp] theorem Core.tsf_pins (k lo n v : Nat) : (c.tsf k lo n v).pins = c.pins := rfl
@[simp] theorem Core.tsf_fuses (k lo n v : Nat) : (c.tsf k lo n v).fuses = c.fuses := rfl
@[simp] theorem Core.tsf_wrdS (k lo n v : Nat) : (c.tsf k lo n v).wrdS = c.wrdS := rfl
@[simp] theorem Core.tsf_hifS (k lo n v : Nat) : (c.tsf k lo n v).hifS = c.hifS := rfl
@[simp] theorem Core.tsf_spwS (k lo n v : Nat) : (c.tsf k lo n v).spwS = c.spwS := rfl
@[simp] theorem Core.tsf_levS (k lo n v : Nat) : (c.tsf k lo n v).levS = c.levS := rfl
@[simp] theorem Core.tsf_snpS (k lo n v : Nat) : (c.tsf k lo n v).snpS = c.snpS := rfl
@[simp] theorem Core.tsf_scans (k lo n v : Nat) : (c.tsf k lo n v).scans = c.scans := rfl
@[simp] theorem Core.tsf_grd (k lo n v : Nat) : (c.tsf k lo n v).grd = c.grd := rfl
@[simp] theorem Core.tsf_grdVal (k lo n v : Nat) : (c.tsf k lo n v).grdVal = c.grdVal := rfl
@[simp] theorem Core.tsf_reports (k lo n v : Nat) : (c.tsf k lo n v).reports = c.reports := rfl
@[simp] theorem Core.tsf_linkOut (k lo n v : Nat) : (c.tsf k lo n v).linkOut = c.linkOut := rfl
@[simp] theorem Core.tsf_blocked (k lo n v : Nat) : (c.tsf k lo n v).blocked = c.blocked := rfl

/-! `setPort` changes ports. -/

@[simp] theorem Core.setPort_regs (p : Nat) (x : Prt) : (c.setPort p x).regs = c.regs := rfl
@[simp] theorem Core.setPort_parMis (p : Nat) (x : Prt) : (c.setPort p x).parMis = c.parMis := rfl
@[simp] theorem Core.setPort_ct1 (p : Nat) (x : Prt) : (c.setPort p x).ct1 = c.ct1 := rfl
@[simp] theorem Core.setPort_ct2 (p : Nat) (x : Prt) : (c.setPort p x).ct2 = c.ct2 := rfl
@[simp] theorem Core.setPort_tbl (p : Nat) (x : Prt) : (c.setPort p x).tbl = c.tbl := rfl
@[simp] theorem Core.setPort_cfOld (p : Nat) (x : Prt) : (c.setPort p x).cfOld = c.cfOld := rfl
@[simp] theorem Core.setPort_tcA (p : Nat) (x : Prt) : (c.setPort p x).tcA = c.tcA := rfl
@[simp] theorem Core.setPort_tcB (p : Nat) (x : Prt) : (c.setPort p x).tcB = c.tcB := rfl
@[simp] theorem Core.setPort_objs (p : Nat) (x : Prt) : (c.setPort p x).objs = c.objs := rfl
@[simp] theorem Core.setPort_groups (p : Nat) (x : Prt) : (c.setPort p x).groups = c.groups := rfl
@[simp] theorem Core.setPort_slots (p : Nat) (x : Prt) : (c.setPort p x).slots = c.slots := rfl
@[simp] theorem Core.setPort_prbsS (p : Nat) (x : Prt) : (c.setPort p x).prbsS = c.prbsS := rfl
@[simp] theorem Core.setPort_d06 (p : Nat) (x : Prt) : (c.setPort p x).d06 = c.d06 := rfl
@[simp] theorem Core.setPort_frame (p : Nat) (x : Prt) : (c.setPort p x).frame = c.frame := rfl
@[simp] theorem Core.setPort_tick (p : Nat) (x : Prt) : (c.setPort p x).tick = c.tick := rfl
@[simp] theorem Core.setPort_freeCtr (p : Nat) (x : Prt) : (c.setPort p x).freeCtr = c.freeCtr := rfl
@[simp] theorem Core.setPort_pmSec (p : Nat) (x : Prt) : (c.setPort p x).pmSec = c.pmSec := rfl
@[simp] theorem Core.setPort_harvest (p : Nat) (x : Prt) : (c.setPort p x).harvest = c.harvest := rfl
@[simp] theorem Core.setPort_pmSuspect (p : Nat) (x : Prt) : (c.setPort p x).pmSuspect = c.pmSuspect := rfl
@[simp] theorem Core.setPort_lateCount (p : Nat) (x : Prt) : (c.setPort p x).lateCount = c.lateCount := rfl
@[simp] theorem Core.setPort_ceSec (p : Nat) (x : Prt) : (c.setPort p x).ceSec = c.ceSec := rfl
@[simp] theorem Core.setPort_lateSec (p : Nat) (x : Prt) : (c.setPort p x).lateSec = c.lateSec := rfl
@[simp] theorem Core.setPort_ceDone (p : Nat) (x : Prt) : (c.setPort p x).ceDone = c.ceDone := rfl
@[simp] theorem Core.setPort_lateDone (p : Nat) (x : Prt) : (c.setPort p x).lateDone = c.lateDone := rfl
@[simp] theorem Core.setPort_weirS (p : Nat) (x : Prt) : (c.setPort p x).weirS = c.weirS := rfl
@[simp] theorem Core.setPort_cmds (p : Nat) (x : Prt) : (c.setPort p x).cmds = c.cmds := rfl
@[simp] theorem Core.setPort_cpls (p : Nat) (x : Prt) : (c.setPort p x).cpls = c.cpls := rfl
@[simp] theorem Core.setPort_cmdNo (p : Nat) (x : Prt) : (c.setPort p x).cmdNo = c.cmdNo := rfl
@[simp] theorem Core.setPort_rsvS (p : Nat) (x : Prt) : (c.setPort p x).rsvS = c.rsvS := rfl
@[simp] theorem Core.setPort_sluS (p : Nat) (x : Prt) : (c.setPort p x).sluS = c.sluS := rfl
@[simp] theorem Core.setPort_mspRx (p : Nat) (x : Prt) : (c.setPort p x).mspRx = c.mspRx := rfl
@[simp] theorem Core.setPort_spare (p : Nat) (x : Prt) : (c.setPort p x).spare = c.spare := rfl
@[simp] theorem Core.setPort_timS (p : Nat) (x : Prt) : (c.setPort p x).timS = c.timS := rfl
@[simp] theorem Core.setPort_cuS (p : Nat) (x : Prt) : (c.setPort p x).cuS = c.cuS := rfl
@[simp] theorem Core.setPort_pins (p : Nat) (x : Prt) : (c.setPort p x).pins = c.pins := rfl
@[simp] theorem Core.setPort_fuses (p : Nat) (x : Prt) : (c.setPort p x).fuses = c.fuses := rfl
@[simp] theorem Core.setPort_wrdS (p : Nat) (x : Prt) : (c.setPort p x).wrdS = c.wrdS := rfl
@[simp] theorem Core.setPort_hifS (p : Nat) (x : Prt) : (c.setPort p x).hifS = c.hifS := rfl
@[simp] theorem Core.setPort_spwS (p : Nat) (x : Prt) : (c.setPort p x).spwS = c.spwS := rfl
@[simp] theorem Core.setPort_levS (p : Nat) (x : Prt) : (c.setPort p x).levS = c.levS := rfl
@[simp] theorem Core.setPort_snpS (p : Nat) (x : Prt) : (c.setPort p x).snpS = c.snpS := rfl
@[simp] theorem Core.setPort_scans (p : Nat) (x : Prt) : (c.setPort p x).scans = c.scans := rfl
@[simp] theorem Core.setPort_grd (p : Nat) (x : Prt) : (c.setPort p x).grd = c.grd := rfl
@[simp] theorem Core.setPort_grdVal (p : Nat) (x : Prt) : (c.setPort p x).grdVal = c.grdVal := rfl
@[simp] theorem Core.setPort_reports (p : Nat) (x : Prt) : (c.setPort p x).reports = c.reports := rfl
@[simp] theorem Core.setPort_linkOut (p : Nat) (x : Prt) : (c.setPort p x).linkOut = c.linkOut := rfl
@[simp] theorem Core.setPort_blocked (p : Nat) (x : Prt) : (c.setPort p x).blocked = c.blocked := rfl

/-! `updPort` changes ports. -/

@[simp] theorem Core.updPort_regs (p : Nat) (f : Prt → Prt) : (c.updPort p f).regs = c.regs := rfl
@[simp] theorem Core.updPort_parMis (p : Nat) (f : Prt → Prt) : (c.updPort p f).parMis = c.parMis := rfl
@[simp] theorem Core.updPort_ct1 (p : Nat) (f : Prt → Prt) : (c.updPort p f).ct1 = c.ct1 := rfl
@[simp] theorem Core.updPort_ct2 (p : Nat) (f : Prt → Prt) : (c.updPort p f).ct2 = c.ct2 := rfl
@[simp] theorem Core.updPort_tbl (p : Nat) (f : Prt → Prt) : (c.updPort p f).tbl = c.tbl := rfl
@[simp] theorem Core.updPort_cfOld (p : Nat) (f : Prt → Prt) : (c.updPort p f).cfOld = c.cfOld := rfl
@[simp] theorem Core.updPort_tcA (p : Nat) (f : Prt → Prt) : (c.updPort p f).tcA = c.tcA := rfl
@[simp] theorem Core.updPort_tcB (p : Nat) (f : Prt → Prt) : (c.updPort p f).tcB = c.tcB := rfl
@[simp] theorem Core.updPort_objs (p : Nat) (f : Prt → Prt) : (c.updPort p f).objs = c.objs := rfl
@[simp] theorem Core.updPort_groups (p : Nat) (f : Prt → Prt) : (c.updPort p f).groups = c.groups := rfl
@[simp] theorem Core.updPort_slots (p : Nat) (f : Prt → Prt) : (c.updPort p f).slots = c.slots := rfl
@[simp] theorem Core.updPort_prbsS (p : Nat) (f : Prt → Prt) : (c.updPort p f).prbsS = c.prbsS := rfl
@[simp] theorem Core.updPort_d06 (p : Nat) (f : Prt → Prt) : (c.updPort p f).d06 = c.d06 := rfl
@[simp] theorem Core.updPort_frame (p : Nat) (f : Prt → Prt) : (c.updPort p f).frame = c.frame := rfl
@[simp] theorem Core.updPort_tick (p : Nat) (f : Prt → Prt) : (c.updPort p f).tick = c.tick := rfl
@[simp] theorem Core.updPort_freeCtr (p : Nat) (f : Prt → Prt) : (c.updPort p f).freeCtr = c.freeCtr := rfl
@[simp] theorem Core.updPort_pmSec (p : Nat) (f : Prt → Prt) : (c.updPort p f).pmSec = c.pmSec := rfl
@[simp] theorem Core.updPort_harvest (p : Nat) (f : Prt → Prt) : (c.updPort p f).harvest = c.harvest := rfl
@[simp] theorem Core.updPort_pmSuspect (p : Nat) (f : Prt → Prt) : (c.updPort p f).pmSuspect = c.pmSuspect := rfl
@[simp] theorem Core.updPort_lateCount (p : Nat) (f : Prt → Prt) : (c.updPort p f).lateCount = c.lateCount := rfl
@[simp] theorem Core.updPort_ceSec (p : Nat) (f : Prt → Prt) : (c.updPort p f).ceSec = c.ceSec := rfl
@[simp] theorem Core.updPort_lateSec (p : Nat) (f : Prt → Prt) : (c.updPort p f).lateSec = c.lateSec := rfl
@[simp] theorem Core.updPort_ceDone (p : Nat) (f : Prt → Prt) : (c.updPort p f).ceDone = c.ceDone := rfl
@[simp] theorem Core.updPort_lateDone (p : Nat) (f : Prt → Prt) : (c.updPort p f).lateDone = c.lateDone := rfl
@[simp] theorem Core.updPort_weirS (p : Nat) (f : Prt → Prt) : (c.updPort p f).weirS = c.weirS := rfl
@[simp] theorem Core.updPort_cmds (p : Nat) (f : Prt → Prt) : (c.updPort p f).cmds = c.cmds := rfl
@[simp] theorem Core.updPort_cpls (p : Nat) (f : Prt → Prt) : (c.updPort p f).cpls = c.cpls := rfl
@[simp] theorem Core.updPort_cmdNo (p : Nat) (f : Prt → Prt) : (c.updPort p f).cmdNo = c.cmdNo := rfl
@[simp] theorem Core.updPort_rsvS (p : Nat) (f : Prt → Prt) : (c.updPort p f).rsvS = c.rsvS := rfl
@[simp] theorem Core.updPort_sluS (p : Nat) (f : Prt → Prt) : (c.updPort p f).sluS = c.sluS := rfl
@[simp] theorem Core.updPort_mspRx (p : Nat) (f : Prt → Prt) : (c.updPort p f).mspRx = c.mspRx := rfl
@[simp] theorem Core.updPort_spare (p : Nat) (f : Prt → Prt) : (c.updPort p f).spare = c.spare := rfl
@[simp] theorem Core.updPort_timS (p : Nat) (f : Prt → Prt) : (c.updPort p f).timS = c.timS := rfl
@[simp] theorem Core.updPort_cuS (p : Nat) (f : Prt → Prt) : (c.updPort p f).cuS = c.cuS := rfl
@[simp] theorem Core.updPort_pins (p : Nat) (f : Prt → Prt) : (c.updPort p f).pins = c.pins := rfl
@[simp] theorem Core.updPort_fuses (p : Nat) (f : Prt → Prt) : (c.updPort p f).fuses = c.fuses := rfl
@[simp] theorem Core.updPort_wrdS (p : Nat) (f : Prt → Prt) : (c.updPort p f).wrdS = c.wrdS := rfl
@[simp] theorem Core.updPort_hifS (p : Nat) (f : Prt → Prt) : (c.updPort p f).hifS = c.hifS := rfl
@[simp] theorem Core.updPort_spwS (p : Nat) (f : Prt → Prt) : (c.updPort p f).spwS = c.spwS := rfl
@[simp] theorem Core.updPort_levS (p : Nat) (f : Prt → Prt) : (c.updPort p f).levS = c.levS := rfl
@[simp] theorem Core.updPort_snpS (p : Nat) (f : Prt → Prt) : (c.updPort p f).snpS = c.snpS := rfl
@[simp] theorem Core.updPort_scans (p : Nat) (f : Prt → Prt) : (c.updPort p f).scans = c.scans := rfl
@[simp] theorem Core.updPort_grd (p : Nat) (f : Prt → Prt) : (c.updPort p f).grd = c.grd := rfl
@[simp] theorem Core.updPort_grdVal (p : Nat) (f : Prt → Prt) : (c.updPort p f).grdVal = c.grdVal := rfl
@[simp] theorem Core.updPort_reports (p : Nat) (f : Prt → Prt) : (c.updPort p f).reports = c.reports := rfl
@[simp] theorem Core.updPort_linkOut (p : Nat) (f : Prt → Prt) : (c.updPort p f).linkOut = c.linkOut := rfl
@[simp] theorem Core.updPort_blocked (p : Nat) (f : Prt → Prt) : (c.updPort p f).blocked = c.blocked := rfl

/-! `setObj` changes objs. -/

@[simp] theorem Core.setObj_regs (k : Nat) (x : Obj) : (c.setObj k x).regs = c.regs := rfl
@[simp] theorem Core.setObj_parMis (k : Nat) (x : Obj) : (c.setObj k x).parMis = c.parMis := rfl
@[simp] theorem Core.setObj_ct1 (k : Nat) (x : Obj) : (c.setObj k x).ct1 = c.ct1 := rfl
@[simp] theorem Core.setObj_ct2 (k : Nat) (x : Obj) : (c.setObj k x).ct2 = c.ct2 := rfl
@[simp] theorem Core.setObj_tbl (k : Nat) (x : Obj) : (c.setObj k x).tbl = c.tbl := rfl
@[simp] theorem Core.setObj_cfOld (k : Nat) (x : Obj) : (c.setObj k x).cfOld = c.cfOld := rfl
@[simp] theorem Core.setObj_tcA (k : Nat) (x : Obj) : (c.setObj k x).tcA = c.tcA := rfl
@[simp] theorem Core.setObj_tcB (k : Nat) (x : Obj) : (c.setObj k x).tcB = c.tcB := rfl
@[simp] theorem Core.setObj_ports (k : Nat) (x : Obj) : (c.setObj k x).ports = c.ports := rfl
@[simp] theorem Core.setObj_groups (k : Nat) (x : Obj) : (c.setObj k x).groups = c.groups := rfl
@[simp] theorem Core.setObj_slots (k : Nat) (x : Obj) : (c.setObj k x).slots = c.slots := rfl
@[simp] theorem Core.setObj_prbsS (k : Nat) (x : Obj) : (c.setObj k x).prbsS = c.prbsS := rfl
@[simp] theorem Core.setObj_d06 (k : Nat) (x : Obj) : (c.setObj k x).d06 = c.d06 := rfl
@[simp] theorem Core.setObj_frame (k : Nat) (x : Obj) : (c.setObj k x).frame = c.frame := rfl
@[simp] theorem Core.setObj_tick (k : Nat) (x : Obj) : (c.setObj k x).tick = c.tick := rfl
@[simp] theorem Core.setObj_freeCtr (k : Nat) (x : Obj) : (c.setObj k x).freeCtr = c.freeCtr := rfl
@[simp] theorem Core.setObj_pmSec (k : Nat) (x : Obj) : (c.setObj k x).pmSec = c.pmSec := rfl
@[simp] theorem Core.setObj_harvest (k : Nat) (x : Obj) : (c.setObj k x).harvest = c.harvest := rfl
@[simp] theorem Core.setObj_pmSuspect (k : Nat) (x : Obj) : (c.setObj k x).pmSuspect = c.pmSuspect := rfl
@[simp] theorem Core.setObj_lateCount (k : Nat) (x : Obj) : (c.setObj k x).lateCount = c.lateCount := rfl
@[simp] theorem Core.setObj_ceSec (k : Nat) (x : Obj) : (c.setObj k x).ceSec = c.ceSec := rfl
@[simp] theorem Core.setObj_lateSec (k : Nat) (x : Obj) : (c.setObj k x).lateSec = c.lateSec := rfl
@[simp] theorem Core.setObj_ceDone (k : Nat) (x : Obj) : (c.setObj k x).ceDone = c.ceDone := rfl
@[simp] theorem Core.setObj_lateDone (k : Nat) (x : Obj) : (c.setObj k x).lateDone = c.lateDone := rfl
@[simp] theorem Core.setObj_weirS (k : Nat) (x : Obj) : (c.setObj k x).weirS = c.weirS := rfl
@[simp] theorem Core.setObj_cmds (k : Nat) (x : Obj) : (c.setObj k x).cmds = c.cmds := rfl
@[simp] theorem Core.setObj_cpls (k : Nat) (x : Obj) : (c.setObj k x).cpls = c.cpls := rfl
@[simp] theorem Core.setObj_cmdNo (k : Nat) (x : Obj) : (c.setObj k x).cmdNo = c.cmdNo := rfl
@[simp] theorem Core.setObj_rsvS (k : Nat) (x : Obj) : (c.setObj k x).rsvS = c.rsvS := rfl
@[simp] theorem Core.setObj_sluS (k : Nat) (x : Obj) : (c.setObj k x).sluS = c.sluS := rfl
@[simp] theorem Core.setObj_mspRx (k : Nat) (x : Obj) : (c.setObj k x).mspRx = c.mspRx := rfl
@[simp] theorem Core.setObj_spare (k : Nat) (x : Obj) : (c.setObj k x).spare = c.spare := rfl
@[simp] theorem Core.setObj_timS (k : Nat) (x : Obj) : (c.setObj k x).timS = c.timS := rfl
@[simp] theorem Core.setObj_cuS (k : Nat) (x : Obj) : (c.setObj k x).cuS = c.cuS := rfl
@[simp] theorem Core.setObj_pins (k : Nat) (x : Obj) : (c.setObj k x).pins = c.pins := rfl
@[simp] theorem Core.setObj_fuses (k : Nat) (x : Obj) : (c.setObj k x).fuses = c.fuses := rfl
@[simp] theorem Core.setObj_wrdS (k : Nat) (x : Obj) : (c.setObj k x).wrdS = c.wrdS := rfl
@[simp] theorem Core.setObj_hifS (k : Nat) (x : Obj) : (c.setObj k x).hifS = c.hifS := rfl
@[simp] theorem Core.setObj_spwS (k : Nat) (x : Obj) : (c.setObj k x).spwS = c.spwS := rfl
@[simp] theorem Core.setObj_levS (k : Nat) (x : Obj) : (c.setObj k x).levS = c.levS := rfl
@[simp] theorem Core.setObj_snpS (k : Nat) (x : Obj) : (c.setObj k x).snpS = c.snpS := rfl
@[simp] theorem Core.setObj_scans (k : Nat) (x : Obj) : (c.setObj k x).scans = c.scans := rfl
@[simp] theorem Core.setObj_grd (k : Nat) (x : Obj) : (c.setObj k x).grd = c.grd := rfl
@[simp] theorem Core.setObj_grdVal (k : Nat) (x : Obj) : (c.setObj k x).grdVal = c.grdVal := rfl
@[simp] theorem Core.setObj_reports (k : Nat) (x : Obj) : (c.setObj k x).reports = c.reports := rfl
@[simp] theorem Core.setObj_linkOut (k : Nat) (x : Obj) : (c.setObj k x).linkOut = c.linkOut := rfl
@[simp] theorem Core.setObj_blocked (k : Nat) (x : Obj) : (c.setObj k x).blocked = c.blocked := rfl

/-! `updObj` changes objs. -/

@[simp] theorem Core.updObj_regs (k : Nat) (f : Obj → Obj) : (c.updObj k f).regs = c.regs := rfl
@[simp] theorem Core.updObj_parMis (k : Nat) (f : Obj → Obj) : (c.updObj k f).parMis = c.parMis := rfl
@[simp] theorem Core.updObj_ct1 (k : Nat) (f : Obj → Obj) : (c.updObj k f).ct1 = c.ct1 := rfl
@[simp] theorem Core.updObj_ct2 (k : Nat) (f : Obj → Obj) : (c.updObj k f).ct2 = c.ct2 := rfl
@[simp] theorem Core.updObj_tbl (k : Nat) (f : Obj → Obj) : (c.updObj k f).tbl = c.tbl := rfl
@[simp] theorem Core.updObj_cfOld (k : Nat) (f : Obj → Obj) : (c.updObj k f).cfOld = c.cfOld := rfl
@[simp] theorem Core.updObj_tcA (k : Nat) (f : Obj → Obj) : (c.updObj k f).tcA = c.tcA := rfl
@[simp] theorem Core.updObj_tcB (k : Nat) (f : Obj → Obj) : (c.updObj k f).tcB = c.tcB := rfl
@[simp] theorem Core.updObj_ports (k : Nat) (f : Obj → Obj) : (c.updObj k f).ports = c.ports := rfl
@[simp] theorem Core.updObj_groups (k : Nat) (f : Obj → Obj) : (c.updObj k f).groups = c.groups := rfl
@[simp] theorem Core.updObj_slots (k : Nat) (f : Obj → Obj) : (c.updObj k f).slots = c.slots := rfl
@[simp] theorem Core.updObj_prbsS (k : Nat) (f : Obj → Obj) : (c.updObj k f).prbsS = c.prbsS := rfl
@[simp] theorem Core.updObj_d06 (k : Nat) (f : Obj → Obj) : (c.updObj k f).d06 = c.d06 := rfl
@[simp] theorem Core.updObj_frame (k : Nat) (f : Obj → Obj) : (c.updObj k f).frame = c.frame := rfl
@[simp] theorem Core.updObj_tick (k : Nat) (f : Obj → Obj) : (c.updObj k f).tick = c.tick := rfl
@[simp] theorem Core.updObj_freeCtr (k : Nat) (f : Obj → Obj) : (c.updObj k f).freeCtr = c.freeCtr := rfl
@[simp] theorem Core.updObj_pmSec (k : Nat) (f : Obj → Obj) : (c.updObj k f).pmSec = c.pmSec := rfl
@[simp] theorem Core.updObj_harvest (k : Nat) (f : Obj → Obj) : (c.updObj k f).harvest = c.harvest := rfl
@[simp] theorem Core.updObj_pmSuspect (k : Nat) (f : Obj → Obj) : (c.updObj k f).pmSuspect = c.pmSuspect := rfl
@[simp] theorem Core.updObj_lateCount (k : Nat) (f : Obj → Obj) : (c.updObj k f).lateCount = c.lateCount := rfl
@[simp] theorem Core.updObj_ceSec (k : Nat) (f : Obj → Obj) : (c.updObj k f).ceSec = c.ceSec := rfl
@[simp] theorem Core.updObj_lateSec (k : Nat) (f : Obj → Obj) : (c.updObj k f).lateSec = c.lateSec := rfl
@[simp] theorem Core.updObj_ceDone (k : Nat) (f : Obj → Obj) : (c.updObj k f).ceDone = c.ceDone := rfl
@[simp] theorem Core.updObj_lateDone (k : Nat) (f : Obj → Obj) : (c.updObj k f).lateDone = c.lateDone := rfl
@[simp] theorem Core.updObj_weirS (k : Nat) (f : Obj → Obj) : (c.updObj k f).weirS = c.weirS := rfl
@[simp] theorem Core.updObj_cmds (k : Nat) (f : Obj → Obj) : (c.updObj k f).cmds = c.cmds := rfl
@[simp] theorem Core.updObj_cpls (k : Nat) (f : Obj → Obj) : (c.updObj k f).cpls = c.cpls := rfl
@[simp] theorem Core.updObj_cmdNo (k : Nat) (f : Obj → Obj) : (c.updObj k f).cmdNo = c.cmdNo := rfl
@[simp] theorem Core.updObj_rsvS (k : Nat) (f : Obj → Obj) : (c.updObj k f).rsvS = c.rsvS := rfl
@[simp] theorem Core.updObj_sluS (k : Nat) (f : Obj → Obj) : (c.updObj k f).sluS = c.sluS := rfl
@[simp] theorem Core.updObj_mspRx (k : Nat) (f : Obj → Obj) : (c.updObj k f).mspRx = c.mspRx := rfl
@[simp] theorem Core.updObj_spare (k : Nat) (f : Obj → Obj) : (c.updObj k f).spare = c.spare := rfl
@[simp] theorem Core.updObj_timS (k : Nat) (f : Obj → Obj) : (c.updObj k f).timS = c.timS := rfl
@[simp] theorem Core.updObj_cuS (k : Nat) (f : Obj → Obj) : (c.updObj k f).cuS = c.cuS := rfl
@[simp] theorem Core.updObj_pins (k : Nat) (f : Obj → Obj) : (c.updObj k f).pins = c.pins := rfl
@[simp] theorem Core.updObj_fuses (k : Nat) (f : Obj → Obj) : (c.updObj k f).fuses = c.fuses := rfl
@[simp] theorem Core.updObj_wrdS (k : Nat) (f : Obj → Obj) : (c.updObj k f).wrdS = c.wrdS := rfl
@[simp] theorem Core.updObj_hifS (k : Nat) (f : Obj → Obj) : (c.updObj k f).hifS = c.hifS := rfl
@[simp] theorem Core.updObj_spwS (k : Nat) (f : Obj → Obj) : (c.updObj k f).spwS = c.spwS := rfl
@[simp] theorem Core.updObj_levS (k : Nat) (f : Obj → Obj) : (c.updObj k f).levS = c.levS := rfl
@[simp] theorem Core.updObj_snpS (k : Nat) (f : Obj → Obj) : (c.updObj k f).snpS = c.snpS := rfl
@[simp] theorem Core.updObj_scans (k : Nat) (f : Obj → Obj) : (c.updObj k f).scans = c.scans := rfl
@[simp] theorem Core.updObj_grd (k : Nat) (f : Obj → Obj) : (c.updObj k f).grd = c.grd := rfl
@[simp] theorem Core.updObj_grdVal (k : Nat) (f : Obj → Obj) : (c.updObj k f).grdVal = c.grdVal := rfl
@[simp] theorem Core.updObj_reports (k : Nat) (f : Obj → Obj) : (c.updObj k f).reports = c.reports := rfl
@[simp] theorem Core.updObj_linkOut (k : Nat) (f : Obj → Obj) : (c.updObj k f).linkOut = c.linkOut := rfl
@[simp] theorem Core.updObj_blocked (k : Nat) (f : Obj → Obj) : (c.updObj k f).blocked = c.blocked := rfl

/-! `setGroup` changes groups. -/

@[simp] theorem Core.setGroup_regs (g : Nat) (x : Grp) : (c.setGroup g x).regs = c.regs := rfl
@[simp] theorem Core.setGroup_parMis (g : Nat) (x : Grp) : (c.setGroup g x).parMis = c.parMis := rfl
@[simp] theorem Core.setGroup_ct1 (g : Nat) (x : Grp) : (c.setGroup g x).ct1 = c.ct1 := rfl
@[simp] theorem Core.setGroup_ct2 (g : Nat) (x : Grp) : (c.setGroup g x).ct2 = c.ct2 := rfl
@[simp] theorem Core.setGroup_tbl (g : Nat) (x : Grp) : (c.setGroup g x).tbl = c.tbl := rfl
@[simp] theorem Core.setGroup_cfOld (g : Nat) (x : Grp) : (c.setGroup g x).cfOld = c.cfOld := rfl
@[simp] theorem Core.setGroup_tcA (g : Nat) (x : Grp) : (c.setGroup g x).tcA = c.tcA := rfl
@[simp] theorem Core.setGroup_tcB (g : Nat) (x : Grp) : (c.setGroup g x).tcB = c.tcB := rfl
@[simp] theorem Core.setGroup_ports (g : Nat) (x : Grp) : (c.setGroup g x).ports = c.ports := rfl
@[simp] theorem Core.setGroup_objs (g : Nat) (x : Grp) : (c.setGroup g x).objs = c.objs := rfl
@[simp] theorem Core.setGroup_slots (g : Nat) (x : Grp) : (c.setGroup g x).slots = c.slots := rfl
@[simp] theorem Core.setGroup_prbsS (g : Nat) (x : Grp) : (c.setGroup g x).prbsS = c.prbsS := rfl
@[simp] theorem Core.setGroup_d06 (g : Nat) (x : Grp) : (c.setGroup g x).d06 = c.d06 := rfl
@[simp] theorem Core.setGroup_frame (g : Nat) (x : Grp) : (c.setGroup g x).frame = c.frame := rfl
@[simp] theorem Core.setGroup_tick (g : Nat) (x : Grp) : (c.setGroup g x).tick = c.tick := rfl
@[simp] theorem Core.setGroup_freeCtr (g : Nat) (x : Grp) : (c.setGroup g x).freeCtr = c.freeCtr := rfl
@[simp] theorem Core.setGroup_pmSec (g : Nat) (x : Grp) : (c.setGroup g x).pmSec = c.pmSec := rfl
@[simp] theorem Core.setGroup_harvest (g : Nat) (x : Grp) : (c.setGroup g x).harvest = c.harvest := rfl
@[simp] theorem Core.setGroup_pmSuspect (g : Nat) (x : Grp) : (c.setGroup g x).pmSuspect = c.pmSuspect := rfl
@[simp] theorem Core.setGroup_lateCount (g : Nat) (x : Grp) : (c.setGroup g x).lateCount = c.lateCount := rfl
@[simp] theorem Core.setGroup_ceSec (g : Nat) (x : Grp) : (c.setGroup g x).ceSec = c.ceSec := rfl
@[simp] theorem Core.setGroup_lateSec (g : Nat) (x : Grp) : (c.setGroup g x).lateSec = c.lateSec := rfl
@[simp] theorem Core.setGroup_ceDone (g : Nat) (x : Grp) : (c.setGroup g x).ceDone = c.ceDone := rfl
@[simp] theorem Core.setGroup_lateDone (g : Nat) (x : Grp) : (c.setGroup g x).lateDone = c.lateDone := rfl
@[simp] theorem Core.setGroup_weirS (g : Nat) (x : Grp) : (c.setGroup g x).weirS = c.weirS := rfl
@[simp] theorem Core.setGroup_cmds (g : Nat) (x : Grp) : (c.setGroup g x).cmds = c.cmds := rfl
@[simp] theorem Core.setGroup_cpls (g : Nat) (x : Grp) : (c.setGroup g x).cpls = c.cpls := rfl
@[simp] theorem Core.setGroup_cmdNo (g : Nat) (x : Grp) : (c.setGroup g x).cmdNo = c.cmdNo := rfl
@[simp] theorem Core.setGroup_rsvS (g : Nat) (x : Grp) : (c.setGroup g x).rsvS = c.rsvS := rfl
@[simp] theorem Core.setGroup_sluS (g : Nat) (x : Grp) : (c.setGroup g x).sluS = c.sluS := rfl
@[simp] theorem Core.setGroup_mspRx (g : Nat) (x : Grp) : (c.setGroup g x).mspRx = c.mspRx := rfl
@[simp] theorem Core.setGroup_spare (g : Nat) (x : Grp) : (c.setGroup g x).spare = c.spare := rfl
@[simp] theorem Core.setGroup_timS (g : Nat) (x : Grp) : (c.setGroup g x).timS = c.timS := rfl
@[simp] theorem Core.setGroup_cuS (g : Nat) (x : Grp) : (c.setGroup g x).cuS = c.cuS := rfl
@[simp] theorem Core.setGroup_pins (g : Nat) (x : Grp) : (c.setGroup g x).pins = c.pins := rfl
@[simp] theorem Core.setGroup_fuses (g : Nat) (x : Grp) : (c.setGroup g x).fuses = c.fuses := rfl
@[simp] theorem Core.setGroup_wrdS (g : Nat) (x : Grp) : (c.setGroup g x).wrdS = c.wrdS := rfl
@[simp] theorem Core.setGroup_hifS (g : Nat) (x : Grp) : (c.setGroup g x).hifS = c.hifS := rfl
@[simp] theorem Core.setGroup_spwS (g : Nat) (x : Grp) : (c.setGroup g x).spwS = c.spwS := rfl
@[simp] theorem Core.setGroup_levS (g : Nat) (x : Grp) : (c.setGroup g x).levS = c.levS := rfl
@[simp] theorem Core.setGroup_snpS (g : Nat) (x : Grp) : (c.setGroup g x).snpS = c.snpS := rfl
@[simp] theorem Core.setGroup_scans (g : Nat) (x : Grp) : (c.setGroup g x).scans = c.scans := rfl
@[simp] theorem Core.setGroup_grd (g : Nat) (x : Grp) : (c.setGroup g x).grd = c.grd := rfl
@[simp] theorem Core.setGroup_grdVal (g : Nat) (x : Grp) : (c.setGroup g x).grdVal = c.grdVal := rfl
@[simp] theorem Core.setGroup_reports (g : Nat) (x : Grp) : (c.setGroup g x).reports = c.reports := rfl
@[simp] theorem Core.setGroup_linkOut (g : Nat) (x : Grp) : (c.setGroup g x).linkOut = c.linkOut := rfl
@[simp] theorem Core.setGroup_blocked (g : Nat) (x : Grp) : (c.setGroup g x).blocked = c.blocked := rfl

/-! `setSlot` changes slots. -/

@[simp] theorem Core.setSlot_regs (g k : Nat) (x : Slot) : (c.setSlot g k x).regs = c.regs := rfl
@[simp] theorem Core.setSlot_parMis (g k : Nat) (x : Slot) : (c.setSlot g k x).parMis = c.parMis := rfl
@[simp] theorem Core.setSlot_ct1 (g k : Nat) (x : Slot) : (c.setSlot g k x).ct1 = c.ct1 := rfl
@[simp] theorem Core.setSlot_ct2 (g k : Nat) (x : Slot) : (c.setSlot g k x).ct2 = c.ct2 := rfl
@[simp] theorem Core.setSlot_tbl (g k : Nat) (x : Slot) : (c.setSlot g k x).tbl = c.tbl := rfl
@[simp] theorem Core.setSlot_cfOld (g k : Nat) (x : Slot) : (c.setSlot g k x).cfOld = c.cfOld := rfl
@[simp] theorem Core.setSlot_tcA (g k : Nat) (x : Slot) : (c.setSlot g k x).tcA = c.tcA := rfl
@[simp] theorem Core.setSlot_tcB (g k : Nat) (x : Slot) : (c.setSlot g k x).tcB = c.tcB := rfl
@[simp] theorem Core.setSlot_ports (g k : Nat) (x : Slot) : (c.setSlot g k x).ports = c.ports := rfl
@[simp] theorem Core.setSlot_objs (g k : Nat) (x : Slot) : (c.setSlot g k x).objs = c.objs := rfl
@[simp] theorem Core.setSlot_groups (g k : Nat) (x : Slot) : (c.setSlot g k x).groups = c.groups := rfl
@[simp] theorem Core.setSlot_prbsS (g k : Nat) (x : Slot) : (c.setSlot g k x).prbsS = c.prbsS := rfl
@[simp] theorem Core.setSlot_d06 (g k : Nat) (x : Slot) : (c.setSlot g k x).d06 = c.d06 := rfl
@[simp] theorem Core.setSlot_frame (g k : Nat) (x : Slot) : (c.setSlot g k x).frame = c.frame := rfl
@[simp] theorem Core.setSlot_tick (g k : Nat) (x : Slot) : (c.setSlot g k x).tick = c.tick := rfl
@[simp] theorem Core.setSlot_freeCtr (g k : Nat) (x : Slot) : (c.setSlot g k x).freeCtr = c.freeCtr := rfl
@[simp] theorem Core.setSlot_pmSec (g k : Nat) (x : Slot) : (c.setSlot g k x).pmSec = c.pmSec := rfl
@[simp] theorem Core.setSlot_harvest (g k : Nat) (x : Slot) : (c.setSlot g k x).harvest = c.harvest := rfl
@[simp] theorem Core.setSlot_pmSuspect (g k : Nat) (x : Slot) : (c.setSlot g k x).pmSuspect = c.pmSuspect := rfl
@[simp] theorem Core.setSlot_lateCount (g k : Nat) (x : Slot) : (c.setSlot g k x).lateCount = c.lateCount := rfl
@[simp] theorem Core.setSlot_ceSec (g k : Nat) (x : Slot) : (c.setSlot g k x).ceSec = c.ceSec := rfl
@[simp] theorem Core.setSlot_lateSec (g k : Nat) (x : Slot) : (c.setSlot g k x).lateSec = c.lateSec := rfl
@[simp] theorem Core.setSlot_ceDone (g k : Nat) (x : Slot) : (c.setSlot g k x).ceDone = c.ceDone := rfl
@[simp] theorem Core.setSlot_lateDone (g k : Nat) (x : Slot) : (c.setSlot g k x).lateDone = c.lateDone := rfl
@[simp] theorem Core.setSlot_weirS (g k : Nat) (x : Slot) : (c.setSlot g k x).weirS = c.weirS := rfl
@[simp] theorem Core.setSlot_cmds (g k : Nat) (x : Slot) : (c.setSlot g k x).cmds = c.cmds := rfl
@[simp] theorem Core.setSlot_cpls (g k : Nat) (x : Slot) : (c.setSlot g k x).cpls = c.cpls := rfl
@[simp] theorem Core.setSlot_cmdNo (g k : Nat) (x : Slot) : (c.setSlot g k x).cmdNo = c.cmdNo := rfl
@[simp] theorem Core.setSlot_rsvS (g k : Nat) (x : Slot) : (c.setSlot g k x).rsvS = c.rsvS := rfl
@[simp] theorem Core.setSlot_sluS (g k : Nat) (x : Slot) : (c.setSlot g k x).sluS = c.sluS := rfl
@[simp] theorem Core.setSlot_mspRx (g k : Nat) (x : Slot) : (c.setSlot g k x).mspRx = c.mspRx := rfl
@[simp] theorem Core.setSlot_spare (g k : Nat) (x : Slot) : (c.setSlot g k x).spare = c.spare := rfl
@[simp] theorem Core.setSlot_timS (g k : Nat) (x : Slot) : (c.setSlot g k x).timS = c.timS := rfl
@[simp] theorem Core.setSlot_cuS (g k : Nat) (x : Slot) : (c.setSlot g k x).cuS = c.cuS := rfl
@[simp] theorem Core.setSlot_pins (g k : Nat) (x : Slot) : (c.setSlot g k x).pins = c.pins := rfl
@[simp] theorem Core.setSlot_fuses (g k : Nat) (x : Slot) : (c.setSlot g k x).fuses = c.fuses := rfl
@[simp] theorem Core.setSlot_wrdS (g k : Nat) (x : Slot) : (c.setSlot g k x).wrdS = c.wrdS := rfl
@[simp] theorem Core.setSlot_hifS (g k : Nat) (x : Slot) : (c.setSlot g k x).hifS = c.hifS := rfl
@[simp] theorem Core.setSlot_spwS (g k : Nat) (x : Slot) : (c.setSlot g k x).spwS = c.spwS := rfl
@[simp] theorem Core.setSlot_levS (g k : Nat) (x : Slot) : (c.setSlot g k x).levS = c.levS := rfl
@[simp] theorem Core.setSlot_snpS (g k : Nat) (x : Slot) : (c.setSlot g k x).snpS = c.snpS := rfl
@[simp] theorem Core.setSlot_scans (g k : Nat) (x : Slot) : (c.setSlot g k x).scans = c.scans := rfl
@[simp] theorem Core.setSlot_grd (g k : Nat) (x : Slot) : (c.setSlot g k x).grd = c.grd := rfl
@[simp] theorem Core.setSlot_grdVal (g k : Nat) (x : Slot) : (c.setSlot g k x).grdVal = c.grdVal := rfl
@[simp] theorem Core.setSlot_reports (g k : Nat) (x : Slot) : (c.setSlot g k x).reports = c.reports := rfl
@[simp] theorem Core.setSlot_linkOut (g k : Nat) (x : Slot) : (c.setSlot g k x).linkOut = c.linkOut := rfl
@[simp] theorem Core.setSlot_blocked (g k : Nat) (x : Slot) : (c.setSlot g k x).blocked = c.blocked := rfl

/-! `updSlot` changes slots. -/

@[simp] theorem Core.updSlot_regs (g k : Nat) (f : Slot → Slot) : (c.updSlot g k f).regs = c.regs := rfl
@[simp] theorem Core.updSlot_parMis (g k : Nat) (f : Slot → Slot) : (c.updSlot g k f).parMis = c.parMis := rfl
@[simp] theorem Core.updSlot_ct1 (g k : Nat) (f : Slot → Slot) : (c.updSlot g k f).ct1 = c.ct1 := rfl
@[simp] theorem Core.updSlot_ct2 (g k : Nat) (f : Slot → Slot) : (c.updSlot g k f).ct2 = c.ct2 := rfl
@[simp] theorem Core.updSlot_tbl (g k : Nat) (f : Slot → Slot) : (c.updSlot g k f).tbl = c.tbl := rfl
@[simp] theorem Core.updSlot_cfOld (g k : Nat) (f : Slot → Slot) : (c.updSlot g k f).cfOld = c.cfOld := rfl
@[simp] theorem Core.updSlot_tcA (g k : Nat) (f : Slot → Slot) : (c.updSlot g k f).tcA = c.tcA := rfl
@[simp] theorem Core.updSlot_tcB (g k : Nat) (f : Slot → Slot) : (c.updSlot g k f).tcB = c.tcB := rfl
@[simp] theorem Core.updSlot_ports (g k : Nat) (f : Slot → Slot) : (c.updSlot g k f).ports = c.ports := rfl
@[simp] theorem Core.updSlot_objs (g k : Nat) (f : Slot → Slot) : (c.updSlot g k f).objs = c.objs := rfl
@[simp] theorem Core.updSlot_groups (g k : Nat) (f : Slot → Slot) : (c.updSlot g k f).groups = c.groups := rfl
@[simp] theorem Core.updSlot_prbsS (g k : Nat) (f : Slot → Slot) : (c.updSlot g k f).prbsS = c.prbsS := rfl
@[simp] theorem Core.updSlot_d06 (g k : Nat) (f : Slot → Slot) : (c.updSlot g k f).d06 = c.d06 := rfl
@[simp] theorem Core.updSlot_frame (g k : Nat) (f : Slot → Slot) : (c.updSlot g k f).frame = c.frame := rfl
@[simp] theorem Core.updSlot_tick (g k : Nat) (f : Slot → Slot) : (c.updSlot g k f).tick = c.tick := rfl
@[simp] theorem Core.updSlot_freeCtr (g k : Nat) (f : Slot → Slot) : (c.updSlot g k f).freeCtr = c.freeCtr := rfl
@[simp] theorem Core.updSlot_pmSec (g k : Nat) (f : Slot → Slot) : (c.updSlot g k f).pmSec = c.pmSec := rfl
@[simp] theorem Core.updSlot_harvest (g k : Nat) (f : Slot → Slot) : (c.updSlot g k f).harvest = c.harvest := rfl
@[simp] theorem Core.updSlot_pmSuspect (g k : Nat) (f : Slot → Slot) : (c.updSlot g k f).pmSuspect = c.pmSuspect := rfl
@[simp] theorem Core.updSlot_lateCount (g k : Nat) (f : Slot → Slot) : (c.updSlot g k f).lateCount = c.lateCount := rfl
@[simp] theorem Core.updSlot_ceSec (g k : Nat) (f : Slot → Slot) : (c.updSlot g k f).ceSec = c.ceSec := rfl
@[simp] theorem Core.updSlot_lateSec (g k : Nat) (f : Slot → Slot) : (c.updSlot g k f).lateSec = c.lateSec := rfl
@[simp] theorem Core.updSlot_ceDone (g k : Nat) (f : Slot → Slot) : (c.updSlot g k f).ceDone = c.ceDone := rfl
@[simp] theorem Core.updSlot_lateDone (g k : Nat) (f : Slot → Slot) : (c.updSlot g k f).lateDone = c.lateDone := rfl
@[simp] theorem Core.updSlot_weirS (g k : Nat) (f : Slot → Slot) : (c.updSlot g k f).weirS = c.weirS := rfl
@[simp] theorem Core.updSlot_cmds (g k : Nat) (f : Slot → Slot) : (c.updSlot g k f).cmds = c.cmds := rfl
@[simp] theorem Core.updSlot_cpls (g k : Nat) (f : Slot → Slot) : (c.updSlot g k f).cpls = c.cpls := rfl
@[simp] theorem Core.updSlot_cmdNo (g k : Nat) (f : Slot → Slot) : (c.updSlot g k f).cmdNo = c.cmdNo := rfl
@[simp] theorem Core.updSlot_rsvS (g k : Nat) (f : Slot → Slot) : (c.updSlot g k f).rsvS = c.rsvS := rfl
@[simp] theorem Core.updSlot_sluS (g k : Nat) (f : Slot → Slot) : (c.updSlot g k f).sluS = c.sluS := rfl
@[simp] theorem Core.updSlot_mspRx (g k : Nat) (f : Slot → Slot) : (c.updSlot g k f).mspRx = c.mspRx := rfl
@[simp] theorem Core.updSlot_spare (g k : Nat) (f : Slot → Slot) : (c.updSlot g k f).spare = c.spare := rfl
@[simp] theorem Core.updSlot_timS (g k : Nat) (f : Slot → Slot) : (c.updSlot g k f).timS = c.timS := rfl
@[simp] theorem Core.updSlot_cuS (g k : Nat) (f : Slot → Slot) : (c.updSlot g k f).cuS = c.cuS := rfl
@[simp] theorem Core.updSlot_pins (g k : Nat) (f : Slot → Slot) : (c.updSlot g k f).pins = c.pins := rfl
@[simp] theorem Core.updSlot_fuses (g k : Nat) (f : Slot → Slot) : (c.updSlot g k f).fuses = c.fuses := rfl
@[simp] theorem Core.updSlot_wrdS (g k : Nat) (f : Slot → Slot) : (c.updSlot g k f).wrdS = c.wrdS := rfl
@[simp] theorem Core.updSlot_hifS (g k : Nat) (f : Slot → Slot) : (c.updSlot g k f).hifS = c.hifS := rfl
@[simp] theorem Core.updSlot_spwS (g k : Nat) (f : Slot → Slot) : (c.updSlot g k f).spwS = c.spwS := rfl
@[simp] theorem Core.updSlot_levS (g k : Nat) (f : Slot → Slot) : (c.updSlot g k f).levS = c.levS := rfl
@[simp] theorem Core.updSlot_snpS (g k : Nat) (f : Slot → Slot) : (c.updSlot g k f).snpS = c.snpS := rfl
@[simp] theorem Core.updSlot_scans (g k : Nat) (f : Slot → Slot) : (c.updSlot g k f).scans = c.scans := rfl
@[simp] theorem Core.updSlot_grd (g k : Nat) (f : Slot → Slot) : (c.updSlot g k f).grd = c.grd := rfl
@[simp] theorem Core.updSlot_grdVal (g k : Nat) (f : Slot → Slot) : (c.updSlot g k f).grdVal = c.grdVal := rfl
@[simp] theorem Core.updSlot_reports (g k : Nat) (f : Slot → Slot) : (c.updSlot g k f).reports = c.reports := rfl
@[simp] theorem Core.updSlot_linkOut (g k : Nat) (f : Slot → Slot) : (c.updSlot g k f).linkOut = c.linkOut := rfl
@[simp] theorem Core.updSlot_blocked (g k : Nat) (f : Slot → Slot) : (c.updSlot g k f).blocked = c.blocked := rfl

/-! `setPair` changes sluS. -/

@[simp] theorem Core.setPair_regs (n : Nat) (x : Pair) : (c.setPair n x).regs = c.regs := rfl
@[simp] theorem Core.setPair_parMis (n : Nat) (x : Pair) : (c.setPair n x).parMis = c.parMis := rfl
@[simp] theorem Core.setPair_ct1 (n : Nat) (x : Pair) : (c.setPair n x).ct1 = c.ct1 := rfl
@[simp] theorem Core.setPair_ct2 (n : Nat) (x : Pair) : (c.setPair n x).ct2 = c.ct2 := rfl
@[simp] theorem Core.setPair_tbl (n : Nat) (x : Pair) : (c.setPair n x).tbl = c.tbl := rfl
@[simp] theorem Core.setPair_cfOld (n : Nat) (x : Pair) : (c.setPair n x).cfOld = c.cfOld := rfl
@[simp] theorem Core.setPair_tcA (n : Nat) (x : Pair) : (c.setPair n x).tcA = c.tcA := rfl
@[simp] theorem Core.setPair_tcB (n : Nat) (x : Pair) : (c.setPair n x).tcB = c.tcB := rfl
@[simp] theorem Core.setPair_ports (n : Nat) (x : Pair) : (c.setPair n x).ports = c.ports := rfl
@[simp] theorem Core.setPair_objs (n : Nat) (x : Pair) : (c.setPair n x).objs = c.objs := rfl
@[simp] theorem Core.setPair_groups (n : Nat) (x : Pair) : (c.setPair n x).groups = c.groups := rfl
@[simp] theorem Core.setPair_slots (n : Nat) (x : Pair) : (c.setPair n x).slots = c.slots := rfl
@[simp] theorem Core.setPair_prbsS (n : Nat) (x : Pair) : (c.setPair n x).prbsS = c.prbsS := rfl
@[simp] theorem Core.setPair_d06 (n : Nat) (x : Pair) : (c.setPair n x).d06 = c.d06 := rfl
@[simp] theorem Core.setPair_frame (n : Nat) (x : Pair) : (c.setPair n x).frame = c.frame := rfl
@[simp] theorem Core.setPair_tick (n : Nat) (x : Pair) : (c.setPair n x).tick = c.tick := rfl
@[simp] theorem Core.setPair_freeCtr (n : Nat) (x : Pair) : (c.setPair n x).freeCtr = c.freeCtr := rfl
@[simp] theorem Core.setPair_pmSec (n : Nat) (x : Pair) : (c.setPair n x).pmSec = c.pmSec := rfl
@[simp] theorem Core.setPair_harvest (n : Nat) (x : Pair) : (c.setPair n x).harvest = c.harvest := rfl
@[simp] theorem Core.setPair_pmSuspect (n : Nat) (x : Pair) : (c.setPair n x).pmSuspect = c.pmSuspect := rfl
@[simp] theorem Core.setPair_lateCount (n : Nat) (x : Pair) : (c.setPair n x).lateCount = c.lateCount := rfl
@[simp] theorem Core.setPair_ceSec (n : Nat) (x : Pair) : (c.setPair n x).ceSec = c.ceSec := rfl
@[simp] theorem Core.setPair_lateSec (n : Nat) (x : Pair) : (c.setPair n x).lateSec = c.lateSec := rfl
@[simp] theorem Core.setPair_ceDone (n : Nat) (x : Pair) : (c.setPair n x).ceDone = c.ceDone := rfl
@[simp] theorem Core.setPair_lateDone (n : Nat) (x : Pair) : (c.setPair n x).lateDone = c.lateDone := rfl
@[simp] theorem Core.setPair_weirS (n : Nat) (x : Pair) : (c.setPair n x).weirS = c.weirS := rfl
@[simp] theorem Core.setPair_cmds (n : Nat) (x : Pair) : (c.setPair n x).cmds = c.cmds := rfl
@[simp] theorem Core.setPair_cpls (n : Nat) (x : Pair) : (c.setPair n x).cpls = c.cpls := rfl
@[simp] theorem Core.setPair_cmdNo (n : Nat) (x : Pair) : (c.setPair n x).cmdNo = c.cmdNo := rfl
@[simp] theorem Core.setPair_rsvS (n : Nat) (x : Pair) : (c.setPair n x).rsvS = c.rsvS := rfl
@[simp] theorem Core.setPair_mspRx (n : Nat) (x : Pair) : (c.setPair n x).mspRx = c.mspRx := rfl
@[simp] theorem Core.setPair_spare (n : Nat) (x : Pair) : (c.setPair n x).spare = c.spare := rfl
@[simp] theorem Core.setPair_timS (n : Nat) (x : Pair) : (c.setPair n x).timS = c.timS := rfl
@[simp] theorem Core.setPair_cuS (n : Nat) (x : Pair) : (c.setPair n x).cuS = c.cuS := rfl
@[simp] theorem Core.setPair_pins (n : Nat) (x : Pair) : (c.setPair n x).pins = c.pins := rfl
@[simp] theorem Core.setPair_fuses (n : Nat) (x : Pair) : (c.setPair n x).fuses = c.fuses := rfl
@[simp] theorem Core.setPair_wrdS (n : Nat) (x : Pair) : (c.setPair n x).wrdS = c.wrdS := rfl
@[simp] theorem Core.setPair_hifS (n : Nat) (x : Pair) : (c.setPair n x).hifS = c.hifS := rfl
@[simp] theorem Core.setPair_spwS (n : Nat) (x : Pair) : (c.setPair n x).spwS = c.spwS := rfl
@[simp] theorem Core.setPair_levS (n : Nat) (x : Pair) : (c.setPair n x).levS = c.levS := rfl
@[simp] theorem Core.setPair_snpS (n : Nat) (x : Pair) : (c.setPair n x).snpS = c.snpS := rfl
@[simp] theorem Core.setPair_scans (n : Nat) (x : Pair) : (c.setPair n x).scans = c.scans := rfl
@[simp] theorem Core.setPair_grd (n : Nat) (x : Pair) : (c.setPair n x).grd = c.grd := rfl
@[simp] theorem Core.setPair_grdVal (n : Nat) (x : Pair) : (c.setPair n x).grdVal = c.grdVal := rfl
@[simp] theorem Core.setPair_reports (n : Nat) (x : Pair) : (c.setPair n x).reports = c.reports := rfl
@[simp] theorem Core.setPair_linkOut (n : Nat) (x : Pair) : (c.setPair n x).linkOut = c.linkOut := rfl
@[simp] theorem Core.setPair_blocked (n : Nat) (x : Pair) : (c.setPair n x).blocked = c.blocked := rfl

/-! `setMsp` changes sluS. -/

@[simp] theorem Core.setMsp_regs (k : Nat) (x : Msp) : (c.setMsp k x).regs = c.regs := rfl
@[simp] theorem Core.setMsp_parMis (k : Nat) (x : Msp) : (c.setMsp k x).parMis = c.parMis := rfl
@[simp] theorem Core.setMsp_ct1 (k : Nat) (x : Msp) : (c.setMsp k x).ct1 = c.ct1 := rfl
@[simp] theorem Core.setMsp_ct2 (k : Nat) (x : Msp) : (c.setMsp k x).ct2 = c.ct2 := rfl
@[simp] theorem Core.setMsp_tbl (k : Nat) (x : Msp) : (c.setMsp k x).tbl = c.tbl := rfl
@[simp] theorem Core.setMsp_cfOld (k : Nat) (x : Msp) : (c.setMsp k x).cfOld = c.cfOld := rfl
@[simp] theorem Core.setMsp_tcA (k : Nat) (x : Msp) : (c.setMsp k x).tcA = c.tcA := rfl
@[simp] theorem Core.setMsp_tcB (k : Nat) (x : Msp) : (c.setMsp k x).tcB = c.tcB := rfl
@[simp] theorem Core.setMsp_ports (k : Nat) (x : Msp) : (c.setMsp k x).ports = c.ports := rfl
@[simp] theorem Core.setMsp_objs (k : Nat) (x : Msp) : (c.setMsp k x).objs = c.objs := rfl
@[simp] theorem Core.setMsp_groups (k : Nat) (x : Msp) : (c.setMsp k x).groups = c.groups := rfl
@[simp] theorem Core.setMsp_slots (k : Nat) (x : Msp) : (c.setMsp k x).slots = c.slots := rfl
@[simp] theorem Core.setMsp_prbsS (k : Nat) (x : Msp) : (c.setMsp k x).prbsS = c.prbsS := rfl
@[simp] theorem Core.setMsp_d06 (k : Nat) (x : Msp) : (c.setMsp k x).d06 = c.d06 := rfl
@[simp] theorem Core.setMsp_frame (k : Nat) (x : Msp) : (c.setMsp k x).frame = c.frame := rfl
@[simp] theorem Core.setMsp_tick (k : Nat) (x : Msp) : (c.setMsp k x).tick = c.tick := rfl
@[simp] theorem Core.setMsp_freeCtr (k : Nat) (x : Msp) : (c.setMsp k x).freeCtr = c.freeCtr := rfl
@[simp] theorem Core.setMsp_pmSec (k : Nat) (x : Msp) : (c.setMsp k x).pmSec = c.pmSec := rfl
@[simp] theorem Core.setMsp_harvest (k : Nat) (x : Msp) : (c.setMsp k x).harvest = c.harvest := rfl
@[simp] theorem Core.setMsp_pmSuspect (k : Nat) (x : Msp) : (c.setMsp k x).pmSuspect = c.pmSuspect := rfl
@[simp] theorem Core.setMsp_lateCount (k : Nat) (x : Msp) : (c.setMsp k x).lateCount = c.lateCount := rfl
@[simp] theorem Core.setMsp_ceSec (k : Nat) (x : Msp) : (c.setMsp k x).ceSec = c.ceSec := rfl
@[simp] theorem Core.setMsp_lateSec (k : Nat) (x : Msp) : (c.setMsp k x).lateSec = c.lateSec := rfl
@[simp] theorem Core.setMsp_ceDone (k : Nat) (x : Msp) : (c.setMsp k x).ceDone = c.ceDone := rfl
@[simp] theorem Core.setMsp_lateDone (k : Nat) (x : Msp) : (c.setMsp k x).lateDone = c.lateDone := rfl
@[simp] theorem Core.setMsp_weirS (k : Nat) (x : Msp) : (c.setMsp k x).weirS = c.weirS := rfl
@[simp] theorem Core.setMsp_cmds (k : Nat) (x : Msp) : (c.setMsp k x).cmds = c.cmds := rfl
@[simp] theorem Core.setMsp_cpls (k : Nat) (x : Msp) : (c.setMsp k x).cpls = c.cpls := rfl
@[simp] theorem Core.setMsp_cmdNo (k : Nat) (x : Msp) : (c.setMsp k x).cmdNo = c.cmdNo := rfl
@[simp] theorem Core.setMsp_rsvS (k : Nat) (x : Msp) : (c.setMsp k x).rsvS = c.rsvS := rfl
@[simp] theorem Core.setMsp_mspRx (k : Nat) (x : Msp) : (c.setMsp k x).mspRx = c.mspRx := rfl
@[simp] theorem Core.setMsp_spare (k : Nat) (x : Msp) : (c.setMsp k x).spare = c.spare := rfl
@[simp] theorem Core.setMsp_timS (k : Nat) (x : Msp) : (c.setMsp k x).timS = c.timS := rfl
@[simp] theorem Core.setMsp_cuS (k : Nat) (x : Msp) : (c.setMsp k x).cuS = c.cuS := rfl
@[simp] theorem Core.setMsp_pins (k : Nat) (x : Msp) : (c.setMsp k x).pins = c.pins := rfl
@[simp] theorem Core.setMsp_fuses (k : Nat) (x : Msp) : (c.setMsp k x).fuses = c.fuses := rfl
@[simp] theorem Core.setMsp_wrdS (k : Nat) (x : Msp) : (c.setMsp k x).wrdS = c.wrdS := rfl
@[simp] theorem Core.setMsp_hifS (k : Nat) (x : Msp) : (c.setMsp k x).hifS = c.hifS := rfl
@[simp] theorem Core.setMsp_spwS (k : Nat) (x : Msp) : (c.setMsp k x).spwS = c.spwS := rfl
@[simp] theorem Core.setMsp_levS (k : Nat) (x : Msp) : (c.setMsp k x).levS = c.levS := rfl
@[simp] theorem Core.setMsp_snpS (k : Nat) (x : Msp) : (c.setMsp k x).snpS = c.snpS := rfl
@[simp] theorem Core.setMsp_scans (k : Nat) (x : Msp) : (c.setMsp k x).scans = c.scans := rfl
@[simp] theorem Core.setMsp_grd (k : Nat) (x : Msp) : (c.setMsp k x).grd = c.grd := rfl
@[simp] theorem Core.setMsp_grdVal (k : Nat) (x : Msp) : (c.setMsp k x).grdVal = c.grdVal := rfl
@[simp] theorem Core.setMsp_reports (k : Nat) (x : Msp) : (c.setMsp k x).reports = c.reports := rfl
@[simp] theorem Core.setMsp_linkOut (k : Nat) (x : Msp) : (c.setMsp k x).linkOut = c.linkOut := rfl
@[simp] theorem Core.setMsp_blocked (k : Nat) (x : Msp) : (c.setMsp k x).blocked = c.blocked := rfl

/-! `setGauge` changes timS. -/

@[simp] theorem Core.setGauge_regs (g : Nat) (x : Gauge) : (c.setGauge g x).regs = c.regs := rfl
@[simp] theorem Core.setGauge_parMis (g : Nat) (x : Gauge) : (c.setGauge g x).parMis = c.parMis := rfl
@[simp] theorem Core.setGauge_ct1 (g : Nat) (x : Gauge) : (c.setGauge g x).ct1 = c.ct1 := rfl
@[simp] theorem Core.setGauge_ct2 (g : Nat) (x : Gauge) : (c.setGauge g x).ct2 = c.ct2 := rfl
@[simp] theorem Core.setGauge_tbl (g : Nat) (x : Gauge) : (c.setGauge g x).tbl = c.tbl := rfl
@[simp] theorem Core.setGauge_cfOld (g : Nat) (x : Gauge) : (c.setGauge g x).cfOld = c.cfOld := rfl
@[simp] theorem Core.setGauge_tcA (g : Nat) (x : Gauge) : (c.setGauge g x).tcA = c.tcA := rfl
@[simp] theorem Core.setGauge_tcB (g : Nat) (x : Gauge) : (c.setGauge g x).tcB = c.tcB := rfl
@[simp] theorem Core.setGauge_ports (g : Nat) (x : Gauge) : (c.setGauge g x).ports = c.ports := rfl
@[simp] theorem Core.setGauge_objs (g : Nat) (x : Gauge) : (c.setGauge g x).objs = c.objs := rfl
@[simp] theorem Core.setGauge_groups (g : Nat) (x : Gauge) : (c.setGauge g x).groups = c.groups := rfl
@[simp] theorem Core.setGauge_slots (g : Nat) (x : Gauge) : (c.setGauge g x).slots = c.slots := rfl
@[simp] theorem Core.setGauge_prbsS (g : Nat) (x : Gauge) : (c.setGauge g x).prbsS = c.prbsS := rfl
@[simp] theorem Core.setGauge_d06 (g : Nat) (x : Gauge) : (c.setGauge g x).d06 = c.d06 := rfl
@[simp] theorem Core.setGauge_frame (g : Nat) (x : Gauge) : (c.setGauge g x).frame = c.frame := rfl
@[simp] theorem Core.setGauge_tick (g : Nat) (x : Gauge) : (c.setGauge g x).tick = c.tick := rfl
@[simp] theorem Core.setGauge_freeCtr (g : Nat) (x : Gauge) : (c.setGauge g x).freeCtr = c.freeCtr := rfl
@[simp] theorem Core.setGauge_pmSec (g : Nat) (x : Gauge) : (c.setGauge g x).pmSec = c.pmSec := rfl
@[simp] theorem Core.setGauge_harvest (g : Nat) (x : Gauge) : (c.setGauge g x).harvest = c.harvest := rfl
@[simp] theorem Core.setGauge_pmSuspect (g : Nat) (x : Gauge) : (c.setGauge g x).pmSuspect = c.pmSuspect := rfl
@[simp] theorem Core.setGauge_lateCount (g : Nat) (x : Gauge) : (c.setGauge g x).lateCount = c.lateCount := rfl
@[simp] theorem Core.setGauge_ceSec (g : Nat) (x : Gauge) : (c.setGauge g x).ceSec = c.ceSec := rfl
@[simp] theorem Core.setGauge_lateSec (g : Nat) (x : Gauge) : (c.setGauge g x).lateSec = c.lateSec := rfl
@[simp] theorem Core.setGauge_ceDone (g : Nat) (x : Gauge) : (c.setGauge g x).ceDone = c.ceDone := rfl
@[simp] theorem Core.setGauge_lateDone (g : Nat) (x : Gauge) : (c.setGauge g x).lateDone = c.lateDone := rfl
@[simp] theorem Core.setGauge_weirS (g : Nat) (x : Gauge) : (c.setGauge g x).weirS = c.weirS := rfl
@[simp] theorem Core.setGauge_cmds (g : Nat) (x : Gauge) : (c.setGauge g x).cmds = c.cmds := rfl
@[simp] theorem Core.setGauge_cpls (g : Nat) (x : Gauge) : (c.setGauge g x).cpls = c.cpls := rfl
@[simp] theorem Core.setGauge_cmdNo (g : Nat) (x : Gauge) : (c.setGauge g x).cmdNo = c.cmdNo := rfl
@[simp] theorem Core.setGauge_rsvS (g : Nat) (x : Gauge) : (c.setGauge g x).rsvS = c.rsvS := rfl
@[simp] theorem Core.setGauge_sluS (g : Nat) (x : Gauge) : (c.setGauge g x).sluS = c.sluS := rfl
@[simp] theorem Core.setGauge_mspRx (g : Nat) (x : Gauge) : (c.setGauge g x).mspRx = c.mspRx := rfl
@[simp] theorem Core.setGauge_spare (g : Nat) (x : Gauge) : (c.setGauge g x).spare = c.spare := rfl
@[simp] theorem Core.setGauge_cuS (g : Nat) (x : Gauge) : (c.setGauge g x).cuS = c.cuS := rfl
@[simp] theorem Core.setGauge_pins (g : Nat) (x : Gauge) : (c.setGauge g x).pins = c.pins := rfl
@[simp] theorem Core.setGauge_fuses (g : Nat) (x : Gauge) : (c.setGauge g x).fuses = c.fuses := rfl
@[simp] theorem Core.setGauge_wrdS (g : Nat) (x : Gauge) : (c.setGauge g x).wrdS = c.wrdS := rfl
@[simp] theorem Core.setGauge_hifS (g : Nat) (x : Gauge) : (c.setGauge g x).hifS = c.hifS := rfl
@[simp] theorem Core.setGauge_spwS (g : Nat) (x : Gauge) : (c.setGauge g x).spwS = c.spwS := rfl
@[simp] theorem Core.setGauge_levS (g : Nat) (x : Gauge) : (c.setGauge g x).levS = c.levS := rfl
@[simp] theorem Core.setGauge_snpS (g : Nat) (x : Gauge) : (c.setGauge g x).snpS = c.snpS := rfl
@[simp] theorem Core.setGauge_scans (g : Nat) (x : Gauge) : (c.setGauge g x).scans = c.scans := rfl
@[simp] theorem Core.setGauge_grd (g : Nat) (x : Gauge) : (c.setGauge g x).grd = c.grd := rfl
@[simp] theorem Core.setGauge_grdVal (g : Nat) (x : Gauge) : (c.setGauge g x).grdVal = c.grdVal := rfl
@[simp] theorem Core.setGauge_reports (g : Nat) (x : Gauge) : (c.setGauge g x).reports = c.reports := rfl
@[simp] theorem Core.setGauge_linkOut (g : Nat) (x : Gauge) : (c.setGauge g x).linkOut = c.linkOut := rfl
@[simp] theorem Core.setGauge_blocked (g : Nat) (x : Gauge) : (c.setGauge g x).blocked = c.blocked := rfl

/-! `updGauge` changes timS. -/

@[simp] theorem Core.updGauge_regs (g : Nat) (f : Gauge → Gauge) : (c.updGauge g f).regs = c.regs := rfl
@[simp] theorem Core.updGauge_parMis (g : Nat) (f : Gauge → Gauge) : (c.updGauge g f).parMis = c.parMis := rfl
@[simp] theorem Core.updGauge_ct1 (g : Nat) (f : Gauge → Gauge) : (c.updGauge g f).ct1 = c.ct1 := rfl
@[simp] theorem Core.updGauge_ct2 (g : Nat) (f : Gauge → Gauge) : (c.updGauge g f).ct2 = c.ct2 := rfl
@[simp] theorem Core.updGauge_tbl (g : Nat) (f : Gauge → Gauge) : (c.updGauge g f).tbl = c.tbl := rfl
@[simp] theorem Core.updGauge_cfOld (g : Nat) (f : Gauge → Gauge) : (c.updGauge g f).cfOld = c.cfOld := rfl
@[simp] theorem Core.updGauge_tcA (g : Nat) (f : Gauge → Gauge) : (c.updGauge g f).tcA = c.tcA := rfl
@[simp] theorem Core.updGauge_tcB (g : Nat) (f : Gauge → Gauge) : (c.updGauge g f).tcB = c.tcB := rfl
@[simp] theorem Core.updGauge_ports (g : Nat) (f : Gauge → Gauge) : (c.updGauge g f).ports = c.ports := rfl
@[simp] theorem Core.updGauge_objs (g : Nat) (f : Gauge → Gauge) : (c.updGauge g f).objs = c.objs := rfl
@[simp] theorem Core.updGauge_groups (g : Nat) (f : Gauge → Gauge) : (c.updGauge g f).groups = c.groups := rfl
@[simp] theorem Core.updGauge_slots (g : Nat) (f : Gauge → Gauge) : (c.updGauge g f).slots = c.slots := rfl
@[simp] theorem Core.updGauge_prbsS (g : Nat) (f : Gauge → Gauge) : (c.updGauge g f).prbsS = c.prbsS := rfl
@[simp] theorem Core.updGauge_d06 (g : Nat) (f : Gauge → Gauge) : (c.updGauge g f).d06 = c.d06 := rfl
@[simp] theorem Core.updGauge_frame (g : Nat) (f : Gauge → Gauge) : (c.updGauge g f).frame = c.frame := rfl
@[simp] theorem Core.updGauge_tick (g : Nat) (f : Gauge → Gauge) : (c.updGauge g f).tick = c.tick := rfl
@[simp] theorem Core.updGauge_freeCtr (g : Nat) (f : Gauge → Gauge) : (c.updGauge g f).freeCtr = c.freeCtr := rfl
@[simp] theorem Core.updGauge_pmSec (g : Nat) (f : Gauge → Gauge) : (c.updGauge g f).pmSec = c.pmSec := rfl
@[simp] theorem Core.updGauge_harvest (g : Nat) (f : Gauge → Gauge) : (c.updGauge g f).harvest = c.harvest := rfl
@[simp] theorem Core.updGauge_pmSuspect (g : Nat) (f : Gauge → Gauge) : (c.updGauge g f).pmSuspect = c.pmSuspect := rfl
@[simp] theorem Core.updGauge_lateCount (g : Nat) (f : Gauge → Gauge) : (c.updGauge g f).lateCount = c.lateCount := rfl
@[simp] theorem Core.updGauge_ceSec (g : Nat) (f : Gauge → Gauge) : (c.updGauge g f).ceSec = c.ceSec := rfl
@[simp] theorem Core.updGauge_lateSec (g : Nat) (f : Gauge → Gauge) : (c.updGauge g f).lateSec = c.lateSec := rfl
@[simp] theorem Core.updGauge_ceDone (g : Nat) (f : Gauge → Gauge) : (c.updGauge g f).ceDone = c.ceDone := rfl
@[simp] theorem Core.updGauge_lateDone (g : Nat) (f : Gauge → Gauge) : (c.updGauge g f).lateDone = c.lateDone := rfl
@[simp] theorem Core.updGauge_weirS (g : Nat) (f : Gauge → Gauge) : (c.updGauge g f).weirS = c.weirS := rfl
@[simp] theorem Core.updGauge_cmds (g : Nat) (f : Gauge → Gauge) : (c.updGauge g f).cmds = c.cmds := rfl
@[simp] theorem Core.updGauge_cpls (g : Nat) (f : Gauge → Gauge) : (c.updGauge g f).cpls = c.cpls := rfl
@[simp] theorem Core.updGauge_cmdNo (g : Nat) (f : Gauge → Gauge) : (c.updGauge g f).cmdNo = c.cmdNo := rfl
@[simp] theorem Core.updGauge_rsvS (g : Nat) (f : Gauge → Gauge) : (c.updGauge g f).rsvS = c.rsvS := rfl
@[simp] theorem Core.updGauge_sluS (g : Nat) (f : Gauge → Gauge) : (c.updGauge g f).sluS = c.sluS := rfl
@[simp] theorem Core.updGauge_mspRx (g : Nat) (f : Gauge → Gauge) : (c.updGauge g f).mspRx = c.mspRx := rfl
@[simp] theorem Core.updGauge_spare (g : Nat) (f : Gauge → Gauge) : (c.updGauge g f).spare = c.spare := rfl
@[simp] theorem Core.updGauge_cuS (g : Nat) (f : Gauge → Gauge) : (c.updGauge g f).cuS = c.cuS := rfl
@[simp] theorem Core.updGauge_pins (g : Nat) (f : Gauge → Gauge) : (c.updGauge g f).pins = c.pins := rfl
@[simp] theorem Core.updGauge_fuses (g : Nat) (f : Gauge → Gauge) : (c.updGauge g f).fuses = c.fuses := rfl
@[simp] theorem Core.updGauge_wrdS (g : Nat) (f : Gauge → Gauge) : (c.updGauge g f).wrdS = c.wrdS := rfl
@[simp] theorem Core.updGauge_hifS (g : Nat) (f : Gauge → Gauge) : (c.updGauge g f).hifS = c.hifS := rfl
@[simp] theorem Core.updGauge_spwS (g : Nat) (f : Gauge → Gauge) : (c.updGauge g f).spwS = c.spwS := rfl
@[simp] theorem Core.updGauge_levS (g : Nat) (f : Gauge → Gauge) : (c.updGauge g f).levS = c.levS := rfl
@[simp] theorem Core.updGauge_snpS (g : Nat) (f : Gauge → Gauge) : (c.updGauge g f).snpS = c.snpS := rfl
@[simp] theorem Core.updGauge_scans (g : Nat) (f : Gauge → Gauge) : (c.updGauge g f).scans = c.scans := rfl
@[simp] theorem Core.updGauge_grd (g : Nat) (f : Gauge → Gauge) : (c.updGauge g f).grd = c.grd := rfl
@[simp] theorem Core.updGauge_grdVal (g : Nat) (f : Gauge → Gauge) : (c.updGauge g f).grdVal = c.grdVal := rfl
@[simp] theorem Core.updGauge_reports (g : Nat) (f : Gauge → Gauge) : (c.updGauge g f).reports = c.reports := rfl
@[simp] theorem Core.updGauge_linkOut (g : Nat) (f : Gauge → Gauge) : (c.updGauge g f).linkOut = c.linkOut := rfl
@[simp] theorem Core.updGauge_blocked (g : Nat) (f : Gauge → Gauge) : (c.updGauge g f).blocked = c.blocked := rfl

/-! `setSelIn` changes timS. -/

@[simp] theorem Core.setSelIn_regs (n : Nat) (x : SelIn) : (c.setSelIn n x).regs = c.regs := rfl
@[simp] theorem Core.setSelIn_parMis (n : Nat) (x : SelIn) : (c.setSelIn n x).parMis = c.parMis := rfl
@[simp] theorem Core.setSelIn_ct1 (n : Nat) (x : SelIn) : (c.setSelIn n x).ct1 = c.ct1 := rfl
@[simp] theorem Core.setSelIn_ct2 (n : Nat) (x : SelIn) : (c.setSelIn n x).ct2 = c.ct2 := rfl
@[simp] theorem Core.setSelIn_tbl (n : Nat) (x : SelIn) : (c.setSelIn n x).tbl = c.tbl := rfl
@[simp] theorem Core.setSelIn_cfOld (n : Nat) (x : SelIn) : (c.setSelIn n x).cfOld = c.cfOld := rfl
@[simp] theorem Core.setSelIn_tcA (n : Nat) (x : SelIn) : (c.setSelIn n x).tcA = c.tcA := rfl
@[simp] theorem Core.setSelIn_tcB (n : Nat) (x : SelIn) : (c.setSelIn n x).tcB = c.tcB := rfl
@[simp] theorem Core.setSelIn_ports (n : Nat) (x : SelIn) : (c.setSelIn n x).ports = c.ports := rfl
@[simp] theorem Core.setSelIn_objs (n : Nat) (x : SelIn) : (c.setSelIn n x).objs = c.objs := rfl
@[simp] theorem Core.setSelIn_groups (n : Nat) (x : SelIn) : (c.setSelIn n x).groups = c.groups := rfl
@[simp] theorem Core.setSelIn_slots (n : Nat) (x : SelIn) : (c.setSelIn n x).slots = c.slots := rfl
@[simp] theorem Core.setSelIn_prbsS (n : Nat) (x : SelIn) : (c.setSelIn n x).prbsS = c.prbsS := rfl
@[simp] theorem Core.setSelIn_d06 (n : Nat) (x : SelIn) : (c.setSelIn n x).d06 = c.d06 := rfl
@[simp] theorem Core.setSelIn_frame (n : Nat) (x : SelIn) : (c.setSelIn n x).frame = c.frame := rfl
@[simp] theorem Core.setSelIn_tick (n : Nat) (x : SelIn) : (c.setSelIn n x).tick = c.tick := rfl
@[simp] theorem Core.setSelIn_freeCtr (n : Nat) (x : SelIn) : (c.setSelIn n x).freeCtr = c.freeCtr := rfl
@[simp] theorem Core.setSelIn_pmSec (n : Nat) (x : SelIn) : (c.setSelIn n x).pmSec = c.pmSec := rfl
@[simp] theorem Core.setSelIn_harvest (n : Nat) (x : SelIn) : (c.setSelIn n x).harvest = c.harvest := rfl
@[simp] theorem Core.setSelIn_pmSuspect (n : Nat) (x : SelIn) : (c.setSelIn n x).pmSuspect = c.pmSuspect := rfl
@[simp] theorem Core.setSelIn_lateCount (n : Nat) (x : SelIn) : (c.setSelIn n x).lateCount = c.lateCount := rfl
@[simp] theorem Core.setSelIn_ceSec (n : Nat) (x : SelIn) : (c.setSelIn n x).ceSec = c.ceSec := rfl
@[simp] theorem Core.setSelIn_lateSec (n : Nat) (x : SelIn) : (c.setSelIn n x).lateSec = c.lateSec := rfl
@[simp] theorem Core.setSelIn_ceDone (n : Nat) (x : SelIn) : (c.setSelIn n x).ceDone = c.ceDone := rfl
@[simp] theorem Core.setSelIn_lateDone (n : Nat) (x : SelIn) : (c.setSelIn n x).lateDone = c.lateDone := rfl
@[simp] theorem Core.setSelIn_weirS (n : Nat) (x : SelIn) : (c.setSelIn n x).weirS = c.weirS := rfl
@[simp] theorem Core.setSelIn_cmds (n : Nat) (x : SelIn) : (c.setSelIn n x).cmds = c.cmds := rfl
@[simp] theorem Core.setSelIn_cpls (n : Nat) (x : SelIn) : (c.setSelIn n x).cpls = c.cpls := rfl
@[simp] theorem Core.setSelIn_cmdNo (n : Nat) (x : SelIn) : (c.setSelIn n x).cmdNo = c.cmdNo := rfl
@[simp] theorem Core.setSelIn_rsvS (n : Nat) (x : SelIn) : (c.setSelIn n x).rsvS = c.rsvS := rfl
@[simp] theorem Core.setSelIn_sluS (n : Nat) (x : SelIn) : (c.setSelIn n x).sluS = c.sluS := rfl
@[simp] theorem Core.setSelIn_mspRx (n : Nat) (x : SelIn) : (c.setSelIn n x).mspRx = c.mspRx := rfl
@[simp] theorem Core.setSelIn_spare (n : Nat) (x : SelIn) : (c.setSelIn n x).spare = c.spare := rfl
@[simp] theorem Core.setSelIn_cuS (n : Nat) (x : SelIn) : (c.setSelIn n x).cuS = c.cuS := rfl
@[simp] theorem Core.setSelIn_pins (n : Nat) (x : SelIn) : (c.setSelIn n x).pins = c.pins := rfl
@[simp] theorem Core.setSelIn_fuses (n : Nat) (x : SelIn) : (c.setSelIn n x).fuses = c.fuses := rfl
@[simp] theorem Core.setSelIn_wrdS (n : Nat) (x : SelIn) : (c.setSelIn n x).wrdS = c.wrdS := rfl
@[simp] theorem Core.setSelIn_hifS (n : Nat) (x : SelIn) : (c.setSelIn n x).hifS = c.hifS := rfl
@[simp] theorem Core.setSelIn_spwS (n : Nat) (x : SelIn) : (c.setSelIn n x).spwS = c.spwS := rfl
@[simp] theorem Core.setSelIn_levS (n : Nat) (x : SelIn) : (c.setSelIn n x).levS = c.levS := rfl
@[simp] theorem Core.setSelIn_snpS (n : Nat) (x : SelIn) : (c.setSelIn n x).snpS = c.snpS := rfl
@[simp] theorem Core.setSelIn_scans (n : Nat) (x : SelIn) : (c.setSelIn n x).scans = c.scans := rfl
@[simp] theorem Core.setSelIn_grd (n : Nat) (x : SelIn) : (c.setSelIn n x).grd = c.grd := rfl
@[simp] theorem Core.setSelIn_grdVal (n : Nat) (x : SelIn) : (c.setSelIn n x).grdVal = c.grdVal := rfl
@[simp] theorem Core.setSelIn_reports (n : Nat) (x : SelIn) : (c.setSelIn n x).reports = c.reports := rfl
@[simp] theorem Core.setSelIn_linkOut (n : Nat) (x : SelIn) : (c.setSelIn n x).linkOut = c.linkOut := rfl
@[simp] theorem Core.setSelIn_blocked (n : Nat) (x : SelIn) : (c.setSelIn n x).blocked = c.blocked := rfl

/-! `setCuJob` changes cuS. -/

@[simp] theorem Core.setCuJob_regs (u : Nat) (x : CuJob) : (c.setCuJob u x).regs = c.regs := rfl
@[simp] theorem Core.setCuJob_parMis (u : Nat) (x : CuJob) : (c.setCuJob u x).parMis = c.parMis := rfl
@[simp] theorem Core.setCuJob_ct1 (u : Nat) (x : CuJob) : (c.setCuJob u x).ct1 = c.ct1 := rfl
@[simp] theorem Core.setCuJob_ct2 (u : Nat) (x : CuJob) : (c.setCuJob u x).ct2 = c.ct2 := rfl
@[simp] theorem Core.setCuJob_tbl (u : Nat) (x : CuJob) : (c.setCuJob u x).tbl = c.tbl := rfl
@[simp] theorem Core.setCuJob_cfOld (u : Nat) (x : CuJob) : (c.setCuJob u x).cfOld = c.cfOld := rfl
@[simp] theorem Core.setCuJob_tcA (u : Nat) (x : CuJob) : (c.setCuJob u x).tcA = c.tcA := rfl
@[simp] theorem Core.setCuJob_tcB (u : Nat) (x : CuJob) : (c.setCuJob u x).tcB = c.tcB := rfl
@[simp] theorem Core.setCuJob_ports (u : Nat) (x : CuJob) : (c.setCuJob u x).ports = c.ports := rfl
@[simp] theorem Core.setCuJob_objs (u : Nat) (x : CuJob) : (c.setCuJob u x).objs = c.objs := rfl
@[simp] theorem Core.setCuJob_groups (u : Nat) (x : CuJob) : (c.setCuJob u x).groups = c.groups := rfl
@[simp] theorem Core.setCuJob_slots (u : Nat) (x : CuJob) : (c.setCuJob u x).slots = c.slots := rfl
@[simp] theorem Core.setCuJob_prbsS (u : Nat) (x : CuJob) : (c.setCuJob u x).prbsS = c.prbsS := rfl
@[simp] theorem Core.setCuJob_d06 (u : Nat) (x : CuJob) : (c.setCuJob u x).d06 = c.d06 := rfl
@[simp] theorem Core.setCuJob_frame (u : Nat) (x : CuJob) : (c.setCuJob u x).frame = c.frame := rfl
@[simp] theorem Core.setCuJob_tick (u : Nat) (x : CuJob) : (c.setCuJob u x).tick = c.tick := rfl
@[simp] theorem Core.setCuJob_freeCtr (u : Nat) (x : CuJob) : (c.setCuJob u x).freeCtr = c.freeCtr := rfl
@[simp] theorem Core.setCuJob_pmSec (u : Nat) (x : CuJob) : (c.setCuJob u x).pmSec = c.pmSec := rfl
@[simp] theorem Core.setCuJob_harvest (u : Nat) (x : CuJob) : (c.setCuJob u x).harvest = c.harvest := rfl
@[simp] theorem Core.setCuJob_pmSuspect (u : Nat) (x : CuJob) : (c.setCuJob u x).pmSuspect = c.pmSuspect := rfl
@[simp] theorem Core.setCuJob_lateCount (u : Nat) (x : CuJob) : (c.setCuJob u x).lateCount = c.lateCount := rfl
@[simp] theorem Core.setCuJob_ceSec (u : Nat) (x : CuJob) : (c.setCuJob u x).ceSec = c.ceSec := rfl
@[simp] theorem Core.setCuJob_lateSec (u : Nat) (x : CuJob) : (c.setCuJob u x).lateSec = c.lateSec := rfl
@[simp] theorem Core.setCuJob_ceDone (u : Nat) (x : CuJob) : (c.setCuJob u x).ceDone = c.ceDone := rfl
@[simp] theorem Core.setCuJob_lateDone (u : Nat) (x : CuJob) : (c.setCuJob u x).lateDone = c.lateDone := rfl
@[simp] theorem Core.setCuJob_weirS (u : Nat) (x : CuJob) : (c.setCuJob u x).weirS = c.weirS := rfl
@[simp] theorem Core.setCuJob_cmds (u : Nat) (x : CuJob) : (c.setCuJob u x).cmds = c.cmds := rfl
@[simp] theorem Core.setCuJob_cpls (u : Nat) (x : CuJob) : (c.setCuJob u x).cpls = c.cpls := rfl
@[simp] theorem Core.setCuJob_cmdNo (u : Nat) (x : CuJob) : (c.setCuJob u x).cmdNo = c.cmdNo := rfl
@[simp] theorem Core.setCuJob_rsvS (u : Nat) (x : CuJob) : (c.setCuJob u x).rsvS = c.rsvS := rfl
@[simp] theorem Core.setCuJob_sluS (u : Nat) (x : CuJob) : (c.setCuJob u x).sluS = c.sluS := rfl
@[simp] theorem Core.setCuJob_mspRx (u : Nat) (x : CuJob) : (c.setCuJob u x).mspRx = c.mspRx := rfl
@[simp] theorem Core.setCuJob_spare (u : Nat) (x : CuJob) : (c.setCuJob u x).spare = c.spare := rfl
@[simp] theorem Core.setCuJob_timS (u : Nat) (x : CuJob) : (c.setCuJob u x).timS = c.timS := rfl
@[simp] theorem Core.setCuJob_pins (u : Nat) (x : CuJob) : (c.setCuJob u x).pins = c.pins := rfl
@[simp] theorem Core.setCuJob_fuses (u : Nat) (x : CuJob) : (c.setCuJob u x).fuses = c.fuses := rfl
@[simp] theorem Core.setCuJob_wrdS (u : Nat) (x : CuJob) : (c.setCuJob u x).wrdS = c.wrdS := rfl
@[simp] theorem Core.setCuJob_hifS (u : Nat) (x : CuJob) : (c.setCuJob u x).hifS = c.hifS := rfl
@[simp] theorem Core.setCuJob_spwS (u : Nat) (x : CuJob) : (c.setCuJob u x).spwS = c.spwS := rfl
@[simp] theorem Core.setCuJob_levS (u : Nat) (x : CuJob) : (c.setCuJob u x).levS = c.levS := rfl
@[simp] theorem Core.setCuJob_snpS (u : Nat) (x : CuJob) : (c.setCuJob u x).snpS = c.snpS := rfl
@[simp] theorem Core.setCuJob_scans (u : Nat) (x : CuJob) : (c.setCuJob u x).scans = c.scans := rfl
@[simp] theorem Core.setCuJob_grd (u : Nat) (x : CuJob) : (c.setCuJob u x).grd = c.grd := rfl
@[simp] theorem Core.setCuJob_grdVal (u : Nat) (x : CuJob) : (c.setCuJob u x).grdVal = c.grdVal := rfl
@[simp] theorem Core.setCuJob_reports (u : Nat) (x : CuJob) : (c.setCuJob u x).reports = c.reports := rfl
@[simp] theorem Core.setCuJob_linkOut (u : Nat) (x : CuJob) : (c.setCuJob u x).linkOut = c.linkOut := rfl
@[simp] theorem Core.setCuJob_blocked (u : Nat) (x : CuJob) : (c.setCuJob u x).blocked = c.blocked := rfl

/-! `setSrc` changes spwS. -/

@[simp] theorem Core.setSrc_regs (k : Nat) (x : SpwSrc) : (c.setSrc k x).regs = c.regs := rfl
@[simp] theorem Core.setSrc_parMis (k : Nat) (x : SpwSrc) : (c.setSrc k x).parMis = c.parMis := rfl
@[simp] theorem Core.setSrc_ct1 (k : Nat) (x : SpwSrc) : (c.setSrc k x).ct1 = c.ct1 := rfl
@[simp] theorem Core.setSrc_ct2 (k : Nat) (x : SpwSrc) : (c.setSrc k x).ct2 = c.ct2 := rfl
@[simp] theorem Core.setSrc_tbl (k : Nat) (x : SpwSrc) : (c.setSrc k x).tbl = c.tbl := rfl
@[simp] theorem Core.setSrc_cfOld (k : Nat) (x : SpwSrc) : (c.setSrc k x).cfOld = c.cfOld := rfl
@[simp] theorem Core.setSrc_tcA (k : Nat) (x : SpwSrc) : (c.setSrc k x).tcA = c.tcA := rfl
@[simp] theorem Core.setSrc_tcB (k : Nat) (x : SpwSrc) : (c.setSrc k x).tcB = c.tcB := rfl
@[simp] theorem Core.setSrc_ports (k : Nat) (x : SpwSrc) : (c.setSrc k x).ports = c.ports := rfl
@[simp] theorem Core.setSrc_objs (k : Nat) (x : SpwSrc) : (c.setSrc k x).objs = c.objs := rfl
@[simp] theorem Core.setSrc_groups (k : Nat) (x : SpwSrc) : (c.setSrc k x).groups = c.groups := rfl
@[simp] theorem Core.setSrc_slots (k : Nat) (x : SpwSrc) : (c.setSrc k x).slots = c.slots := rfl
@[simp] theorem Core.setSrc_prbsS (k : Nat) (x : SpwSrc) : (c.setSrc k x).prbsS = c.prbsS := rfl
@[simp] theorem Core.setSrc_d06 (k : Nat) (x : SpwSrc) : (c.setSrc k x).d06 = c.d06 := rfl
@[simp] theorem Core.setSrc_frame (k : Nat) (x : SpwSrc) : (c.setSrc k x).frame = c.frame := rfl
@[simp] theorem Core.setSrc_tick (k : Nat) (x : SpwSrc) : (c.setSrc k x).tick = c.tick := rfl
@[simp] theorem Core.setSrc_freeCtr (k : Nat) (x : SpwSrc) : (c.setSrc k x).freeCtr = c.freeCtr := rfl
@[simp] theorem Core.setSrc_pmSec (k : Nat) (x : SpwSrc) : (c.setSrc k x).pmSec = c.pmSec := rfl
@[simp] theorem Core.setSrc_harvest (k : Nat) (x : SpwSrc) : (c.setSrc k x).harvest = c.harvest := rfl
@[simp] theorem Core.setSrc_pmSuspect (k : Nat) (x : SpwSrc) : (c.setSrc k x).pmSuspect = c.pmSuspect := rfl
@[simp] theorem Core.setSrc_lateCount (k : Nat) (x : SpwSrc) : (c.setSrc k x).lateCount = c.lateCount := rfl
@[simp] theorem Core.setSrc_ceSec (k : Nat) (x : SpwSrc) : (c.setSrc k x).ceSec = c.ceSec := rfl
@[simp] theorem Core.setSrc_lateSec (k : Nat) (x : SpwSrc) : (c.setSrc k x).lateSec = c.lateSec := rfl
@[simp] theorem Core.setSrc_ceDone (k : Nat) (x : SpwSrc) : (c.setSrc k x).ceDone = c.ceDone := rfl
@[simp] theorem Core.setSrc_lateDone (k : Nat) (x : SpwSrc) : (c.setSrc k x).lateDone = c.lateDone := rfl
@[simp] theorem Core.setSrc_weirS (k : Nat) (x : SpwSrc) : (c.setSrc k x).weirS = c.weirS := rfl
@[simp] theorem Core.setSrc_cmds (k : Nat) (x : SpwSrc) : (c.setSrc k x).cmds = c.cmds := rfl
@[simp] theorem Core.setSrc_cpls (k : Nat) (x : SpwSrc) : (c.setSrc k x).cpls = c.cpls := rfl
@[simp] theorem Core.setSrc_cmdNo (k : Nat) (x : SpwSrc) : (c.setSrc k x).cmdNo = c.cmdNo := rfl
@[simp] theorem Core.setSrc_rsvS (k : Nat) (x : SpwSrc) : (c.setSrc k x).rsvS = c.rsvS := rfl
@[simp] theorem Core.setSrc_sluS (k : Nat) (x : SpwSrc) : (c.setSrc k x).sluS = c.sluS := rfl
@[simp] theorem Core.setSrc_mspRx (k : Nat) (x : SpwSrc) : (c.setSrc k x).mspRx = c.mspRx := rfl
@[simp] theorem Core.setSrc_spare (k : Nat) (x : SpwSrc) : (c.setSrc k x).spare = c.spare := rfl
@[simp] theorem Core.setSrc_timS (k : Nat) (x : SpwSrc) : (c.setSrc k x).timS = c.timS := rfl
@[simp] theorem Core.setSrc_cuS (k : Nat) (x : SpwSrc) : (c.setSrc k x).cuS = c.cuS := rfl
@[simp] theorem Core.setSrc_pins (k : Nat) (x : SpwSrc) : (c.setSrc k x).pins = c.pins := rfl
@[simp] theorem Core.setSrc_fuses (k : Nat) (x : SpwSrc) : (c.setSrc k x).fuses = c.fuses := rfl
@[simp] theorem Core.setSrc_wrdS (k : Nat) (x : SpwSrc) : (c.setSrc k x).wrdS = c.wrdS := rfl
@[simp] theorem Core.setSrc_hifS (k : Nat) (x : SpwSrc) : (c.setSrc k x).hifS = c.hifS := rfl
@[simp] theorem Core.setSrc_levS (k : Nat) (x : SpwSrc) : (c.setSrc k x).levS = c.levS := rfl
@[simp] theorem Core.setSrc_snpS (k : Nat) (x : SpwSrc) : (c.setSrc k x).snpS = c.snpS := rfl
@[simp] theorem Core.setSrc_scans (k : Nat) (x : SpwSrc) : (c.setSrc k x).scans = c.scans := rfl
@[simp] theorem Core.setSrc_grd (k : Nat) (x : SpwSrc) : (c.setSrc k x).grd = c.grd := rfl
@[simp] theorem Core.setSrc_grdVal (k : Nat) (x : SpwSrc) : (c.setSrc k x).grdVal = c.grdVal := rfl
@[simp] theorem Core.setSrc_reports (k : Nat) (x : SpwSrc) : (c.setSrc k x).reports = c.reports := rfl
@[simp] theorem Core.setSrc_linkOut (k : Nat) (x : SpwSrc) : (c.setSrc k x).linkOut = c.linkOut := rfl
@[simp] theorem Core.setSrc_blocked (k : Nat) (x : SpwSrc) : (c.setSrc k x).blocked = c.blocked := rfl

/-! `putQueue` changes weirS. -/

@[simp] theorem Core.putQueue_regs (q : Nat) (x : Queue) : (c.putQueue q x).regs = c.regs := rfl
@[simp] theorem Core.putQueue_parMis (q : Nat) (x : Queue) : (c.putQueue q x).parMis = c.parMis := rfl
@[simp] theorem Core.putQueue_ct1 (q : Nat) (x : Queue) : (c.putQueue q x).ct1 = c.ct1 := rfl
@[simp] theorem Core.putQueue_ct2 (q : Nat) (x : Queue) : (c.putQueue q x).ct2 = c.ct2 := rfl
@[simp] theorem Core.putQueue_tbl (q : Nat) (x : Queue) : (c.putQueue q x).tbl = c.tbl := rfl
@[simp] theorem Core.putQueue_cfOld (q : Nat) (x : Queue) : (c.putQueue q x).cfOld = c.cfOld := rfl
@[simp] theorem Core.putQueue_tcA (q : Nat) (x : Queue) : (c.putQueue q x).tcA = c.tcA := rfl
@[simp] theorem Core.putQueue_tcB (q : Nat) (x : Queue) : (c.putQueue q x).tcB = c.tcB := rfl
@[simp] theorem Core.putQueue_ports (q : Nat) (x : Queue) : (c.putQueue q x).ports = c.ports := rfl
@[simp] theorem Core.putQueue_objs (q : Nat) (x : Queue) : (c.putQueue q x).objs = c.objs := rfl
@[simp] theorem Core.putQueue_groups (q : Nat) (x : Queue) : (c.putQueue q x).groups = c.groups := rfl
@[simp] theorem Core.putQueue_slots (q : Nat) (x : Queue) : (c.putQueue q x).slots = c.slots := rfl
@[simp] theorem Core.putQueue_prbsS (q : Nat) (x : Queue) : (c.putQueue q x).prbsS = c.prbsS := rfl
@[simp] theorem Core.putQueue_d06 (q : Nat) (x : Queue) : (c.putQueue q x).d06 = c.d06 := rfl
@[simp] theorem Core.putQueue_frame (q : Nat) (x : Queue) : (c.putQueue q x).frame = c.frame := rfl
@[simp] theorem Core.putQueue_tick (q : Nat) (x : Queue) : (c.putQueue q x).tick = c.tick := rfl
@[simp] theorem Core.putQueue_freeCtr (q : Nat) (x : Queue) : (c.putQueue q x).freeCtr = c.freeCtr := rfl
@[simp] theorem Core.putQueue_pmSec (q : Nat) (x : Queue) : (c.putQueue q x).pmSec = c.pmSec := rfl
@[simp] theorem Core.putQueue_harvest (q : Nat) (x : Queue) : (c.putQueue q x).harvest = c.harvest := rfl
@[simp] theorem Core.putQueue_pmSuspect (q : Nat) (x : Queue) : (c.putQueue q x).pmSuspect = c.pmSuspect := rfl
@[simp] theorem Core.putQueue_lateCount (q : Nat) (x : Queue) : (c.putQueue q x).lateCount = c.lateCount := rfl
@[simp] theorem Core.putQueue_ceSec (q : Nat) (x : Queue) : (c.putQueue q x).ceSec = c.ceSec := rfl
@[simp] theorem Core.putQueue_lateSec (q : Nat) (x : Queue) : (c.putQueue q x).lateSec = c.lateSec := rfl
@[simp] theorem Core.putQueue_ceDone (q : Nat) (x : Queue) : (c.putQueue q x).ceDone = c.ceDone := rfl
@[simp] theorem Core.putQueue_lateDone (q : Nat) (x : Queue) : (c.putQueue q x).lateDone = c.lateDone := rfl
@[simp] theorem Core.putQueue_cmds (q : Nat) (x : Queue) : (c.putQueue q x).cmds = c.cmds := rfl
@[simp] theorem Core.putQueue_cpls (q : Nat) (x : Queue) : (c.putQueue q x).cpls = c.cpls := rfl
@[simp] theorem Core.putQueue_cmdNo (q : Nat) (x : Queue) : (c.putQueue q x).cmdNo = c.cmdNo := rfl
@[simp] theorem Core.putQueue_rsvS (q : Nat) (x : Queue) : (c.putQueue q x).rsvS = c.rsvS := rfl
@[simp] theorem Core.putQueue_sluS (q : Nat) (x : Queue) : (c.putQueue q x).sluS = c.sluS := rfl
@[simp] theorem Core.putQueue_mspRx (q : Nat) (x : Queue) : (c.putQueue q x).mspRx = c.mspRx := rfl
@[simp] theorem Core.putQueue_spare (q : Nat) (x : Queue) : (c.putQueue q x).spare = c.spare := rfl
@[simp] theorem Core.putQueue_timS (q : Nat) (x : Queue) : (c.putQueue q x).timS = c.timS := rfl
@[simp] theorem Core.putQueue_cuS (q : Nat) (x : Queue) : (c.putQueue q x).cuS = c.cuS := rfl
@[simp] theorem Core.putQueue_pins (q : Nat) (x : Queue) : (c.putQueue q x).pins = c.pins := rfl
@[simp] theorem Core.putQueue_fuses (q : Nat) (x : Queue) : (c.putQueue q x).fuses = c.fuses := rfl
@[simp] theorem Core.putQueue_wrdS (q : Nat) (x : Queue) : (c.putQueue q x).wrdS = c.wrdS := rfl
@[simp] theorem Core.putQueue_hifS (q : Nat) (x : Queue) : (c.putQueue q x).hifS = c.hifS := rfl
@[simp] theorem Core.putQueue_spwS (q : Nat) (x : Queue) : (c.putQueue q x).spwS = c.spwS := rfl
@[simp] theorem Core.putQueue_levS (q : Nat) (x : Queue) : (c.putQueue q x).levS = c.levS := rfl
@[simp] theorem Core.putQueue_snpS (q : Nat) (x : Queue) : (c.putQueue q x).snpS = c.snpS := rfl
@[simp] theorem Core.putQueue_scans (q : Nat) (x : Queue) : (c.putQueue q x).scans = c.scans := rfl
@[simp] theorem Core.putQueue_grd (q : Nat) (x : Queue) : (c.putQueue q x).grd = c.grd := rfl
@[simp] theorem Core.putQueue_grdVal (q : Nat) (x : Queue) : (c.putQueue q x).grdVal = c.grdVal := rfl
@[simp] theorem Core.putQueue_reports (q : Nat) (x : Queue) : (c.putQueue q x).reports = c.reports := rfl
@[simp] theorem Core.putQueue_linkOut (q : Nat) (x : Queue) : (c.putQueue q x).linkOut = c.linkOut := rfl
@[simp] theorem Core.putQueue_blocked (q : Nat) (x : Queue) : (c.putQueue q x).blocked = c.blocked := rfl

end Sys2Proof.Machine
end

