-- ==== Sys2Proof/Laws/Ops.lean ====
section
/-! SUPPORT. What each shared operation can do, said once: reads after writes, the canonical form of the HBM's bytes, and what
every meaning leaves of the state. -/

namespace Sys2Proof.Machine

/-! ## Fields and bits of words -/

theorem bitOf_eq (w : Word) (b : Nat) : bitOf w b = w.getLsbD b := rfl

/-- A one-bit mask, bit by bit. -/
theorem getLsbD_bit (b k : Nat) : (bit b).getLsbD k = (decide (k < 32) && decide (k = b)) := by
  simp only [bit, BitVec.getLsbD_ofNat, Nat.one_shiftLeft, Nat.testBit_two_pow]
  by_cases h : b = k <;> simp [h, eq_comm]

/-- A field's mask, bit by bit. -/
theorem getLsbD_maskOf (lo n k : Nat) :
    (maskOf lo n).getLsbD k = (decide (k < 32) && decide (lo ≤ k) && decide (k - lo < n)) := by
  simp only [maskOf, BitVec.getLsbD_ofNat, Nat.testBit_shiftLeft, Nat.testBit_two_pow_sub_one, ge_iff_le, Bool.and_assoc]

/-- A field reads as written, in as many bits as it has. -/
theorem fld_setFld (w : Word) (lo n v : Nat) (h : lo + n ≤ 32) : fld (setFld w lo n v) lo n = v % 2 ^ n := by
  apply Nat.eq_of_testBit_eq
  intro i
  have e : (fld (setFld w lo n v) lo n).testBit i = (decide (i < n) && (setFld w lo n v).getLsbD (lo + i)) := by
    simp only [fld, Nat.testBit_mod_two_pow, Nat.testBit_shiftRight, BitVec.getLsbD]
  rw [e, Nat.testBit_mod_two_pow]
  by_cases hi : i < n
  · have h1 : lo + i < 32 := by omega
    simp only [setFld, BitVec.getLsbD_or, BitVec.getLsbD_and, BitVec.getLsbD_not, getLsbD_maskOf, BitVec.getLsbD_ofNat,
      Nat.testBit_shiftLeft, Nat.testBit_mod_two_pow, Nat.add_sub_cancel_left]
    simp [hi, h1]
  · simp [hi]

/-- Every bit outside a written field is kept. -/
theorem setFld_other (w : Word) (lo n v k : Nat) (h : k < lo ∨ lo + n ≤ k) : (setFld w lo n v).getLsbD k = w.getLsbD k := by
  have h1 : (decide (lo ≤ k) && decide (k - lo < n)) = false := by
    rcases h with h | h
    · simp; omega
    · simp; omega
  have h2 : (decide (lo ≤ k) && (decide (k - lo < n) && v.testBit (k - lo))) = false := by
    rw [← Bool.and_assoc, h1, Bool.false_and]
  by_cases hk : k < 32
  · simp only [setFld, BitVec.getLsbD_or, BitVec.getLsbD_and, BitVec.getLsbD_not, getLsbD_maskOf, BitVec.getLsbD_ofNat,
      Nat.testBit_shiftLeft, Nat.testBit_mod_two_pow, ge_iff_le, Bool.and_assoc, h1, h2]
    simp [hk]
  · simp [BitVec.getLsbD_of_ge _ _ (Nat.le_of_not_lt hk)]

/-! ## Registers and tables -/

/-- A register reads as written; every other one as before. -/
theorem Core.rd_wr (c : Core) (a b : Nat) (v : Word) : (c.wr a v).rd b = if b = a then v else c.rd b :=
  Sparse.get_put _ _ _ _ _

theorem Core.rd_sf (c : Core) (a lo n v b : Nat) :
    (c.sf a lo n v).rd b = if b = a then setFld (c.rd a) lo n v else c.rd b := Core.rd_wr _ _ _ _

theorem Core.rd_sb (c : Core) (a k b : Nat) (v : Bool) :
    (c.sb a k v).rd b = if b = a then (if v then c.rd a ||| bit k else c.rd a &&& ~~~(bit k)) else c.rd b :=
  Core.rd_wr _ _ _ _

theorem Core.rd_ev (c : Core) (a b : Nat) (m : Word) : (c.ev a m).rd b = if b = a then c.rd a ||| m else c.rd b :=
  Core.rd_wr _ _ _ _

theorem Core.rd_clearRegs (c : Core) (lo hi b : Nat) :
    (c.clearRegs lo hi).rd b = if lo ≤ b ∧ b < hi then regReset b else c.rd b := Sparse.get_clear _ _ _ _ _

theorem Core.gf_sf (c : Core) (a lo n v : Nat) (h : lo + n ≤ 32) : (c.sf a lo n v).gf a lo n = v % 2 ^ n := by
  simp only [Core.gf, Core.rd_sf, ↓reduceIte]
  exact fld_setFld _ _ _ _ h

theorem Core.gb_sb (c : Core) (a k : Nat) (v : Bool) (h : k < 32) : (c.sb a k v).gb a k = v := by
  cases v <;> simp [Core.gb, Core.rd_sb, bitOf, getLsbD_bit, h]

/-- A bit set as an event reads 1. -/
theorem Core.gb_ev (c : Core) (a k : Nat) (m : Word) (h : m.getLsbD k = true) : (c.ev a m).gb a k = true := by
  simp [Core.gb, Core.rd_ev, bitOf, h]

/-- A counter that counts, outside a page whose state is held as stale. -/
theorem Core.cn_eq (c : Core) (a k : Nat) (h : k ≠ 0) (h1 : c.staleHeld (a / 0x1000) = false) :
    c.cn a k = c.wr a (satAdd (c.rd a) k) := by
  simp [Core.cn, h, h1]

theorem Core.trd_twr (c : Core) (k j : Nat) (v : Word) : (c.twr k v).trd j = if j = k then v else c.trd j :=
  Sparse.get_put _ _ _ _ _

theorem Core.trd_tsf (c : Core) (k lo n v j : Nat) :
    (c.tsf k lo n v).trd j = if j = k then setFld (c.trd k) lo n v else c.trd j := Core.trd_twr _ _ _ _

/-! ## Records of ports, objects and the rest -/

theorem Core.port_setPort (c : Core) (p q : Nat) (x : Prt) : (c.setPort p x).port q = if q = p then x else c.port q :=
  Sparse.get_put _ _ _ _ _
theorem Core.port_updPort (c : Core) (p q : Nat) (f : Prt → Prt) :
    (c.updPort p f).port q = if q = p then f (c.port p) else c.port q := Core.port_setPort _ _ _ _
theorem Core.obj_setObj (c : Core) (k j : Nat) (x : Obj) : (c.setObj k x).obj j = if j = k then x else c.obj j :=
  Sparse.get_put _ _ _ _ _
theorem Core.obj_updObj (c : Core) (k j : Nat) (f : Obj → Obj) :
    (c.updObj k f).obj j = if j = k then f (c.obj k) else c.obj j := Core.obj_setObj _ _ _ _
theorem Core.group_setGroup (c : Core) (g j : Nat) (x : Grp) : (c.setGroup g x).group j = if j = g then x else c.group j :=
  Sparse.get_put _ _ _ _ _
theorem Core.slot_setSlot (c : Core) (g s t : Nat) (x : Slot) (h : s < 256) (ht : t < 256) (g' : Nat) :
    (c.setSlot g s x).slot g' t = if g' = g ∧ t = s then x else c.slot g' t := by
  unfold Core.slot Core.setSlot
  rw [Sparse.get_put]
  by_cases e : g' * 256 + t = g * 256 + s
  · rw [if_pos e, if_pos (by omega)]
  · rw [if_neg e, if_neg (by omega)]
theorem Core.pat_setPat (c : Core) (k j : Nat) (x : Prbs) : (c.setPat k x).pat j = if j = k then x else c.pat j :=
  Sparse.get_put _ _ _ _ _
theorem Core.pair_setPair (c : Core) (n j : Nat) (x : Pair) : (c.setPair n x).pair j = if j = n then x else c.pair j :=
  Sparse.get_put _ _ _ _ _
theorem Core.msp_setMsp (c : Core) (n j : Nat) (x : Msp) : (c.setMsp n x).msp j = if j = n then x else c.msp j :=
  Sparse.get_put _ _ _ _ _
theorem Core.gauge_setGauge (c : Core) (g j : Nat) (x : Gauge) : (c.setGauge g x).gauge j = if j = g then x else c.gauge j :=
  Sparse.get_put _ _ _ _ _
theorem Core.cuJob_setCuJob (c : Core) (u j : Nat) (x : CuJob) : (c.setCuJob u x).cuJob j = if j = u then x else c.cuJob j :=
  Sparse.get_put _ _ _ _ _
theorem Core.src_setSrc (c : Core) (k j : Nat) (x : SpwSrc) : (c.setSrc k x).src j = if j = k then x else c.src j :=
  Sparse.get_put _ _ _ _ _
theorem Core.queue_putQueue (c : Core) (q j : Nat) (x : Queue) : (c.putQueue q x).queue j = if j = q then x else c.queue j :=
  Sparse.get_put _ _ _ _ _

/-! ## The HBM -/

theorem memRead_memPut (m : List Host.Cell) (a b : Nat) (v : Byte) : memRead (memPut m a v) b = if b = a then v else memRead m b :=
  Sparse.get_put _ _ _ _ _

/-- Bytes outside a write are kept. -/
theorem memRead_memWrite_other (bs : List Byte) (m : List Host.Cell) (a b : Nat) (h : b < a ∨ a + bs.length ≤ b) :
    memRead (memWrite m a bs) b = memRead m b := by
  induction bs generalizing m a with
  | nil => rfl
  | cons v bs ih =>
    simp only [List.length_cons] at h
    rw [memWrite, ih _ _ (by omega), memRead_memPut, if_neg (by omega)]

theorem memWrite_wf (bs : List Byte) (m : List Host.Cell) (a : Nat) (w : Memory.wf m) : Memory.wf (memWrite m a bs) := by
  induction bs generalizing m a with
  | nil => exact w
  | cons v bs ih => exact ih _ _ (Sparse.wf_put _ _ _ _ w)

theorem MemOp.run_wf (op : MemOp) (m : List Host.Cell) (w : Memory.wf m) : Memory.wf (op.run m) := by
  cases op with
  | write a bs => exact memWrite_wf bs m a w
  | clear lo hi => exact Sparse.wfFrom_clear _ m 0 lo hi w

/-- Every effect on the HBM keeps its canonical form. -/
theorem memRun_wf (ops : List MemOp) (m : List Host.Cell) (w : Memory.wf m) : Memory.wf (memRun m ops) := by
  induction ops generalizing m with
  | nil => exact w
  | cons op ops ih => exact ih _ (MemOp.run_wf op m w)

/-- The HBM of the reset state is in canonical form. -/
theorem State.reset_hbm_wf : Memory.wf State.reset.hbm := rfl

/-- Only the record of bad cells follows what is written, and nothing does where none is bad. -/
theorem Core.rewrote_eq (c : Core) (ops : List MemOp) (h : c.rsvS.badCells = []) : c.rewrote ops = c := by simp [Core.rewrote, h]
theorem Core.rewrote_nil (c : Core) : c.rewrote [] = c := by
  have e : ((List.range 32).any fun _ => true) = true := by decide
  unfold Core.rewrote
  split
  · rfl
  · simp only [List.any_nil, Bool.not_false, e, List.filter_true]

/-! ## What a meaning leaves of the state -/

theorem State.on_next (s : State) (f : Core → Core) : s.on f = .next { s with core := f s.core } := rfl
theorem State.onMem_next (s : State) (f : Core → List Host.Cell → Core × List MemOp) :
    s.onMem f = .next { s with core := (f s.core s.hbm).1.rewrote (f s.core s.hbm).2, hbm := memRun s.hbm (f s.core s.hbm).2 } := rfl

end Sys2Proof.Machine
end

