-- ==== Sys2Proof/Tests/Slice0.lean ====
section
/-! SUPPORT. Tests: concrete blocks that meet the premises of each statement, terms that WellFormed refuses, and single commands
against the spec's tables and examples. -/

namespace Sys2Proof.Tests

set_option Elab.async false

open Sys2Proof Sys2Proof.Machine Sys2Proof.Safety

/-! ## Blocks to test on -/

/-- A block with some registers written. -/
def blk (l : List (Nat × Word)) : Core := forL l (fun q c => c.wr q.1 q.2) {}
/-- The same with the link up and every island on. -/
def up (l : List (Nat × Word)) : Core := blk ([(hif 0x200, 1), (lev 0x204, 0x1FFF)] ++ l)
/-- The same in sealed mode. -/
def sealedUp (l : List (Nat × Word)) : Core := up ((keyR 0x200, 1) :: l)

/-! ## Premises that can be met, statement by statement -/

theorem wit_UnassignedSlotsAbort : (up []).gb (hif 0x200) 0 = true ∧ (up []).blocked = [] ∧ (up []).snapping = false ∧
    (0x16000#20).toNat / 0x1000 = 0x16 ∧ (0x1FFFC#20).toNat / 0x1000 = 0x1F ∧ aliasReg (0x16000 * 32) / 0x1000 = 0x16 ∧
    aliasReg (0x1FFFC * 32) / 0x1000 = 0x1F := by decide +kernel

theorem wit_AliasWordsNameTheirBits : Open (up []) (islandOf (4 * 0x8010 / 0x1000)) ∧ (pageKind (4 * 0x8010 / 0x1000)).isSome = true ∧
    privileged (4 * 0x8010 / 0x1000) = false := by decide +kernel

theorem wit_HostWritesObeyTheFieldKinds :
    (({} : Core).gb (hif 0x200) 0 = false) ∧
    Open (up []) (islandOf 0x20) ∧ (pageKind 0x20).isSome = true ∧ privileged 0x20 = false ∧
    regRow 0x20 0x1F0 = none ∧
    (∃ r, regRow 0x20 0x200 = some r ∧ r.cf ||| r.ct ||| r.cn ||| r.gd = 0) ∧
    (∃ r, regRow 0x20 0x40 = some r ∧ r.cf ||| r.ct ≠ 0 ∧ (up [(pg 0x20 + 4, 1)]).cfgLocked 0x20 = true) ∧
    (∃ r, regRow 0x20 0x4C = some r ∧ r.cf ≠ 0 ∧ r.ct ||| r.cn ||| r.gd ||| r.cmd ||| r.zero = 0 ∧ (up []).en 0x20 = false) ∧
    pageKind 0x16 = none ∧ privileged 6 = true ∧ isGrd 0x20 0x40 = false ∧ aliasBit (0x2004C * 32) = 0 ∧
    (∃ r, regRow 0x20 0x4C = some r ∧ bitOf r.cf 0 = true ∧
      r.ct ||| r.lv ||| r.ev ||| r.cn ||| r.hd ||| r.gd ||| r.ro ||| r.cmd ||| r.zero = 0) ∧
    (∃ r, regRow 0x20 0x200 = some r ∧ bitOf (r.lv ||| r.ev ||| r.hd ||| r.ro ||| r.cn) 0 = true) :=
  ⟨by decide +kernel, by decide +kernel, by decide +kernel, by decide +kernel, by decide +kernel, ⟨_, rfl, by decide +kernel⟩,
   ⟨_, rfl, by decide +kernel⟩, ⟨_, rfl, by decide +kernel⟩, by decide +kernel, by decide +kernel, by decide +kernel, by decide +kernel,
   ⟨_, rfl, by decide +kernel⟩, ⟨_, rfl, by decide +kernel⟩⟩

theorem wit_HostReadsAnswerWhatRegistersShow : (∀ i ∈ [0, 2, 3, 4, 5, islandOf 0x20], Open (up []) i) ∧
    (0x20800#20).toNat % 8 = 0 ∧ (regRow 0x20 0x400).isSome = true ∧ (pageKind 0x20).isSome = true ∧ privileged 0x20 = false ∧
    (regRow 0x20 0x408).map (fun r => r.ev != 0) = some true ∧ (regRow 0x20 0x200).map (·.ev) = some 0 ∧
    pageKind 0x20 ∉ [some PageKind.lev, some .snp, some .dev, some .rsv, some .ga, some .wq] ∧
    Sparse.get (fun _ => 0) (Arrives (up [])).parMis (0x20040 / 4 * 4) = 0 ∧
    Sparse.get (fun _ => 0) (Arrives { up [] with parMis := [(0x20040, 1)] }).parMis (0x20040 / 4 * 4) ≠ 0 ∧
    (0x240800#24).toNat % 4 = 0 ∧ (pageKind (aliasReg 0x400800 / 0x1000)).isSome = true ∧ privileged (aliasReg 0x400800 / 0x1000) = false ∧
    ((up [(rsv 0xB00, 1)]).apEntry 0).map (·.2.2.2.ev) = some 0 ∧ (up [(rsv 0xB00, 1)]).apEntry 60 = none ∧
    ((up [(rsv 0xB00, 1)]).apEntry 24).map (·.2.2.2.ev) = some 0x7FFF ∧ (0#19).toNat % 64 + 4 * 4 ≤ 64 ∧
    (up [(rsv 0xB00, 7)]).apEntry 0 = some (7, 0, 0, { off := 0, cf := all32 }) := by decide +kernel

theorem wit_PagesEnableResetAndRepair :
    let a := pg 0x20 + 4
    let e := Arrives (sealedUp [(pg 0x20 + 8, 2)])
    let f := Arrives (sealedUp [(pg 0x20 + 8, 0)])
    let g := Arrives (sealedUp [(a, 0x100)])
    Open e 7 ∧ Quiet e a 1 ∧ (Stored e a 1 4).en 0x20 = false ∧ 0x20 ∉ e.scans ∧ e.stale 0x20 = true ∧
    Quiet f a 5 ∧ (Stored f a 5 4).en 0x20 = false ∧ f.stale 0x20 = false ∧ Quiet f a 0 ∧ (Stored f a 0 4).en 0x20 = false ∧
    Quiet f a 2 ∧ (Stored f a 2 4).gb a 8 = false ∧ (Stored f a 2 4).en 0x20 = false ∧
    Quiet g a 2 ∧ (Stored g a 2 4).gb a 8 = true ∧ (Stored g a 2 4).en 0x20 = false := by decide +kernel

theorem wit_PagesEnableResetAndRepair_scan :
    (({} : Core).voteRange (pg 0x20 + 0x40) (pg 0x20 + 0x200)).parBad (pg 0x20 + 0x40) (pg 0x20 + 0x200) = [] ∧
    (({ parMis := [(0x20040, 1)] } : Core).voteRange (pg 0x20 + 0x40) (pg 0x20 + 0x200)).parBad (pg 0x20 + 0x40) (pg 0x20 + 0x200) =
      [0x20040] ∧
    0x20 ∈ ({ scans := [0x20] } : Core).scans ∧ (blk [(pg 0x20 + 4, 0x100)]).gb (pg 0x20 + 4) 8 = true ∧
    (blk []).gb (pg 0x20 + 4) 8 = false ∧ (up []).parMis = [] ∧ (up []).ct1 = [] ∧ (up []).ct2 = [] ∧ (up []).islandUp 7 = true ∧
    (regRow 0x20 0x4C).map (fun r => bitOf r.cf 31) = some true := by decide +kernel

theorem wit_TheGuardedFallbackTakesThreeWrites :
    let at_ (st w v t : Nat) (grdVal : Word) : Core :=
      { up [(0x2003C, BitVec.ofNat 32 st), (0x20030, BitVec.ofNat 32 v), (hif 0x20C, BitVec.ofNat 32 w)] with
        grd := some (0x20, t), grdVal := grdVal }
    Open (up []) 7 ∧ Quiet (Arrives (up [])) 0x20030 0x70 ∧ (up []).grd = none ∧
    (Arrives (at_ 1 4 0x70 0 1)).grdAt 0x20 1 = true ∧ (Arrives (at_ 2 4 0x70 0 1)).grdAt 0x20 2 = true ∧
    (Arrives (at_ 2 4 0x70 0 1)).gf (0x20030) 2 10 * 4 = 0x70 ∧ (regRow 0x20 0x70).map (fun r => r.elig != 0) = some true ∧
    (Arrives (at_ 2 4 0x70 0 1)).gf 0x2003C 0 2 = 2 ∧ (Arrives (at_ 2 4 0x70 0 1)).wState = 4 ∧ (Arrives (at_ 2 2 0x70 0 1)).wState ≠ 4 ∧
    (Arrives (at_ 2 4 0x4C 0 1)).gf (0x20030) 2 10 * 4 = 0x4C ∧ (regRow 0x20 0x4C).map (fun r => r.elig) = some 0 := by decide +kernel

theorem wit_SnapshotsAreRequestedAndTaken :
    let on : Core := { sealedUp [(pg 0xE + 4, 1), (snp 0xB04, 5)] with d06 := true, frame := 4 }
    let asked (r : Nat) (n : Nat) : Core := { on with snpS := { req := some (r, n) } }
    let cap : Capture := { source := 1, merged := 0, stale := [], off := [], cnt := [(0x20500, 7)] }
    let taken : Core := { up [] with snpS := { sel := some cap } }
    Open on 2 ∧ Quiet (Arrives on) (snp 0xB00) 0 ∧ on.snpS.req = none ∧ on.en 0xE = true ∧ on.d06 = true ∧
    on.frame < (on.rd (snp 0xB04)).toNat + (on.rd (snp 0xB08)).toNat * 2 ^ 32 ∧ (up []).en 0xE = false ∧
    ({ on with frame := 5 } : Core).frame = 5 ∧ Quiet (Arrives (up [(snp 0xB00, 0x100)])) (snp 0xB00) 0 ∧
    (Stored (Arrives on) (snp 0xB00) 4 0).gb (snp 0xB00) 9 = false ∧
    (Stored (Arrives (sealedUp [(snp 0xB00, 0x200)])) (snp 0xB00) 4 0).gb (snp 0xB00) 9 = true ∧
    Quiet (Arrives (sealedUp [(snp 0xB00, 0x200)])) (snp 0xB00) 0 ∧
    (Arrives (asked 2 9)).snpS.req = some (2, 9) ∧ (Arrives (asked 2 9)).frame + 1 < 9 ∧
    (Arrives (asked 1 5)).snpS.req = some (1, 5) ∧ 5 = (Arrives (asked 1 5)).frame + 1 ∧
    (up [(0x20500, 7)]).counts 0x20500 = true ∧ taken.snpS.sel = some cap ∧ (cap.cnt.map (·.1)).Nodup ∧
    (∀ r ∈ cap.cnt, r.1 / 0x1000 ∈ pageSlots ∧ 0x500 ≤ r.1 % 0x1000 ∧ r.1 % 0x1000 < 0x800) ∧ (up []).snpS.sel = none ∧
    ({ snpS := { copied := true } } : Core).snpS.copied = true ∧ ({} : Core).snpS.copied = false ∧
    ({ snpS := { copied := true } } : Core).blocked = [] ∧ ({ snpS := { copied := true } } : Core).snpS.req = none ∧
    (asked 1 5).d06 = true ∧ ({ asked 1 5 with d06 := false } : Core).d06 = false := by decide +kernel

/-- BUSY is no bit that a write stores. -/
theorem wit_SnapshotsAreRequestedAndTaken_busy : (∀ v, (Stored (Arrives (sealedUp [])) (snp 0xB00) v 0).gb (snp 0xB00) 8 = false) ∧
    ∀ v, (Stored (Arrives (sealedUp [(snp 0xB00, 0x100)])) (snp 0xB00) v 0).gb (snp 0xB00) 8 = true := by
  have h : (Arrives (sealedUp [])).sealed = true := by decide +kernel
  have h2 : (Arrives (sealedUp [(snp 0xB00, 0x100)])).sealed = true := by decide +kernel
  have k : (Arrives (sealedUp [])).gb (snp 0xB00) 8 = false := by decide +kernel
  have k2 : (Arrives (sealedUp [(snp 0xB00, 0x100)])).gb (snp 0xB00) 8 = true := by decide +kernel
  exact ⟨fun v => by rw [show Stored (Arrives (sealedUp [])) (snp 0xB00) v 0 = Arrives (sealedUp []) by unfold Stored; rw [h]; rfl]; exact k,
    fun v => by
      rw [show Stored (Arrives (sealedUp [(snp 0xB00, 0x100)])) (snp 0xB00) v 0 = Arrives (sealedUp [(snp 0xB00, 0x100)]) by
        unfold Stored; rw [h2]; rfl]
      exact k2⟩

/-- Port 0 with a record and some registers of its page. -/
def port0 (x : Prt) (l : List (Nat × Word)) : Core := (blk (l.map fun q => (pe 0 q.1, q.2))).setPort 0 x
/-- TRIB entry `i` with its descriptor, its object and some registers. -/
def withObj (i : Nat) (w0 : Word) (x : Obj) (l : List (Nat × Word)) : Core := ((blk l).twr (trib i 0) w0).setObj (okey i 0) x

theorem wit_EnergyFollowsItsFilter :
    let e (l : List (Nat × Word)) (x : Prt) : Core := (blk ((pg 0x20 + 4, 1) :: l)).setPort 0 x
    let bank := [(lev 0x204, (0x80 : Word)), (bk 0 0x200, 1)]
    let run : Prt := { live := true, eFilt := 64 }
    ((e [] run).port 0).live = true ∧ 64 ≤ ((e [] run).port 0).eFilt ∧ (e [] run).energy 0 = false ∧ (e [] run).bankOn 0 = false ∧
    (e bank run).energy 0 = false ∧ (e bank run).bankOn 0 = true ∧
    (e [(lev 0x210, 1)] run).energy 0 = true ∧ (e [(lev 0x210, 1)] run).loopInt 0 = false ∧ (e [(lev 0x210, 1)] run).bankOn 0 = false ∧
    (e ((lev 0x210, 1) :: bank) run).energy 0 = true ∧ (e ((lev 0x210, 1) :: bank) run).bankOn 0 = true ∧
    (e [(pe 0 0x40, 4)] run).loopInt 0 = true ∧ ((e [] {}).port 0).live = false ∧ ((e [] { live := true, eFilt := 63 }).port 0).eFilt < 64 := by
  decide +kernel

theorem wit_SensingRunsItsAttempts :
    let c (st : Stage) (l : List (Nat × Word)) : Core := port0 { stage := st, locked := true } l
    let at_ (r : Nat) (w : BitVec 48) : List (Nat × BitVec 48) := [(7, w), (7 + 8 * lineLen r, w), (7 + 2 * (8 * lineLen r), w)]
    ((c (.estimate 8) []).port 0).stage = .estimate 8 ∧
    (∀ r, 1 ≤ r → r ≤ 6 → 50 * (rateKbps r - rateKbps r) ≤ rateKbps r ∧ rateKbps r ≠ 0) ∧
    (∀ r ∈ [3, 5], ((c (.attempt r 160 [2]) []).port 0).stage = .attempt r 160 [2]) ∧ isOtu 3 = false ∧ isOtu 5 = true ∧
    ((c (.attempt 3 160 [2]) [(0x200, 0x20)]).port 0).locked = true ∧ (c (.attempt 3 160 [2]) [(0x200, 0x20)]).gb (pe 0 0x200) 5 = true ∧
    (c .none [(0x44, 0x100)]).gb (pe 0 0x44) 8 = true ∧ (c .none [(0x40, 1)]).gb (pe 0 0x40) 0 = true ∧ (c .none []).gb (pe 0 0x40) 0 = false ∧
    (at_ 3 framePattern).length = 3 ∧ (c .none [(0x44, 0)]).gf (pe 0 0x44) 6 2 ≠ 1 ∧ (c .none [(0x44, 0x40)]).gf (pe 0 0x44) 6 2 = 1 ∧
    (c .none []).gb (pe 0 0x200) 5 = false ∧ ((port0 {} []).port 0).locked = false ∧
    ((c (.attempt 3 160 []) []).port 0).stage = .attempt 3 160 [] ∧ ((c .wait []).port 0).stage = .wait ∧
    2000 ≤ (blk [(pe 0 0x200, 2000 * 65536)]).gf (pe 0 0x200) 16 12 ∧ (blk [(lev 0x210, 1)]).energy 0 = true ∧
    ((c .forced []).port 0).stage = .forced ∧ (blk [(pe 0 0x48, 0x17)]).fmtOk 0 = true := by
  refine ⟨by decide +kernel, ?_, by decide +kernel⟩
  intro r h1 h2
  have : r = 1 ∨ r = 2 ∨ r = 3 ∨ r = 4 ∨ r = 5 ∨ r = 6 := by omega
  rcases this with rfl | rfl | rfl | rfl | rfl | rfl <;> decide

theorem wit_AlignedPortsKeepTheirFormat :
    let c (x : Prt) (l : List (Nat × Word)) : Core := port0 x ([(0x44, 100 * 65536), (0x200, 3), (0x208, 0x145)] ++ l)
    let otu (ss : List (Fin 4)) (lock : Option Nat) : Core := c { clientF := 8, clientSs := ss, cl := { lock := lock } } []
    let lb : Core := blk [(pg 0x20 + 4, 1), (pe 0 0x40, 0xC), (pe 0 0x200, 0x20)]
    (c {} []).gf (pe 0 0x44) 16 8 = 100 ∧ (c {} []).pst 0 = 3 ∧ (c {} [(0x200, 4)]).pst 0 = 4 ∧ (c {} []).forced 0 = false ∧
    8 * 100 ≤ ((c { huntF := 800 } []).port 0).huntF ∧ ((c { huntF := 800 } []).port 0).fr.lock = none ∧
    (c {} [(0x44, 0)]).gf (pe 0 0x44) 16 8 = 0 ∧ ((c { huntF := 799 } []).port 0).huntF < 8 * 100 ∧
    ((c { fr := { lock := some 9 } } []).port 0).fr.lock ≠ none ∧
    (∀ s ∈ [(0 : Fin 4), 2], ((otu (List.replicate 8 s) (some 5)).port 0).clientSs.take 8 = List.replicate 8 s) ∧
    isOtu ((otu [] none).rate 0) = true ∧ (otu [] none).gb (pe 0 0x208) 6 = true ∧ 8 ≤ ((otu [] none).port 0).clientF ∧
    ((otu [] (some 5)).port 0).cl.lock.isSome = true ∧ ((otu [] none).port 0).cl.lock = none ∧
    ((c { clientF := 7 } []).port 0).clientF < 8 ∧ (c {} [(0x208, 0x105)]).gb (pe 0 0x208) 6 = false ∧
    lb.gb (pe 0 0x200) 5 = true ∧ (lb.en 0x20 && lb.gf (pe 0 0x40) 2 2 = 3) = true ∧
    (port0 {} [(0x200, 0x20)]).gb (pe 0 0x200) 5 = true ∧ (blk []).en 0x20 = false ∧ (port0 {} []).gb (pe 0 0x200) 5 = false := by
  decide +kernel

theorem wit_HuntingFindsAPosition :
    let c (x : Prt) : Core := port0 x [(0x200, 3), (0x208, 0x101)]
    let f : Framer := { cyc := 64, ready := some 9, cands := [(9, 2)] }
    let otu (n : Nat) : Core := port0 { fr := { lock := some 0 }, client := List.replicate n false } [(0x200, 5), (0x208, 0x105)]
    ((c { fr := f }).framer 0 false).lock = none ∧ (c { fr := f }).framerOn 0 false = true ∧
    ((c { fr := f }).framer 0 false).cands.any (fun q => q.1 = 7) = false ∧ 7 < (c { fr := f }).frameBits 0 false ∧
    ((c { fr := f }).framer 0 false).excl.contains 7 = false ∧ ((c { fr := f }).framer 0 false).cands.length < 8 ∧ (c { fr := f }).ifN 0 ≠ 1 ∧
    (c {}).bitsAt 0 false { pos := 7, bits := framePattern } = framePattern ∧ (c {}).rxInv 0 = false ∧
    (c {}).bitsAt 0 false { pos := 7, bits := 0 } ≠ framePattern ∧ (port0 {} [(0x40, 1)]).rxInv 0 = true ∧
    ((c { fr := f }).framer 0 false).ready = some 9 ∧ ((c { fr := f }).onPort 0).filter (fun k => isPath (k / 4)) = [] ∧
    64 ≤ ((c { fr := f }).framer 0 false).cyc ∧ ((c {}).framer 0 false).cyc < 64 ∧
    (otu 0).framerOn 0 true = true ∧ ((otu 0).framer 0 true).lock = none ∧ (otu 0).frameBits 0 true ≠ 0 ∧
    (blk []).framerOn 0 false = false ∧ (blk []).framerOn 0 true = false := by decide +kernel

/-- A stream demapped from an OTU1 line that is as long as a carried frame gives one; an empty one gives none. -/
theorem wit_HuntingFindsAPosition_client :
    let otu (n : Nat) : Core := port0 { fr := { lock := some 0 }, client := List.replicate n false } [(0x200, 5), (0x208, 0x105)]
    (otu 0).clientFrame 0 = none ∧ ∃ fr rest, (otu 311040).clientFrame 0 = some (fr, rest) := by
  intro otu
  refine ⟨by decide +kernel, ?_⟩
  have h1 : ((otu 311040).port 0).client = List.replicate 311040 false := rfl
  have h2 : ((otu 311040).port 0).cl.lock = none := rfl
  have h3 : (otu 311040).frameBits 0 true = 311040 := by decide +kernel
  simp only [Core.clientFrame, h1, h2, h3, List.length_replicate]
  exact ⟨_, _, if_pos (by omega)⟩

theorem wit_AlignedFramerLeavesSync :
    let c (n : Nat) : Core := port0 { fr := { lock := some 5, errRun := 8, prob := n } } []
    ((c 0).framer 0 false).lock = some 5 ∧ (c 0).oofN 0 ≤ ((c 0).framer 0 false).errRun ∧ ((c 0).framer 0 false).prob = 0 ∧
    0 < ((c 1).framer 0 false).prob := by decide +kernel

theorem wit_AlignmentDefectsFollowTheirRuns :
    let f : Framer := { outRun := 24, inRun := 24 }
    let c := port0 { fr := f, cl := f, mfas := { oomF := 24, mfF := 24 } } [(0x208, 0x105)]
    let d := port0 { fr := f, cl := f, mfas := { oomF := 24, mfF := 24 }, present := [.lof, .cLof, .otuLom] } []
    let o : Obj := { svc := true, h4 := { oomF := 24, mfF := 24 } }
    let tu (x : Obj) : Core := (withObj 0 3 x []).twr (trib 6144 0) 0x11 |>.setObj (okey 6144 0) { svc := true }
    c.lofSet 0 ≤ (c.framer 0 true).outRun ∧ c.lofClr 0 ≤ (d.framer 0 true).inRun ∧ (c.port 0).present.contains .lof = false ∧
    (d.port 0).present.contains .cLof = true ∧ isOtu (c.rate 0) = true ∧ c.mfLom 0 ≤ (c.port 0).mfas.oomF ∧
    (d.port 0).present.contains .otuLom = true ∧ c.mfLom 0 ≤ (d.port 0).mfas.mfF ∧
    ((tu o).obj 0).svc = true ∧ (tu o).hasH4 0 = true ∧ ((tu o).obj 0).present.contains .tuLom = false ∧
    (tu o).mfLom 0 ≤ ((tu o).obj 0).h4.oomF ∧ (tu o).mfLom 0 ≤ ((tu { o with present := [.tuLom] }).obj 0).h4.mfF ∧ ((tu { o with present := [.tuLom] }).obj 0).present.contains .tuLom = true := by
  decide +kernel

theorem wit_MultiframesAlign :
    let c := port0 { fr := { lock := some 1 }, mfas := { run := 3, last := some 9 } } []
    let d := port0 { mfas := { inMf := true, bad := 7 } } []
    let tu (x : Multi) (st : PtrSt) : Core :=
      (withObj 0 3 { svc := true, itp := st, h4 := x } [])|>.twr (trib 6144 0) 0x11 |>.setObj (okey 6144 0) { svc := true }
    let on := tu { run := 3, last := some 2 } .norm
    let full (n : Nat) := tu { inMf := true, bad := n } .norm
    (c.port 0).fr.lock.isSome = true ∧ (c.port 0).mfas.inMf = false ∧ c.mfIfN 0 ≤ (c.port 0).mfas.run ∧ (c.port 0).mfas.last = some 9 ∧
    (d.port 0).fr.lock = none ∧ (port0 {} []).mfIfN 0 = 2 ∧ ((port0 {} []).port 0).mfas.run < (port0 {} []).mfIfN 0 ∧
    (d.port 0).mfas.inMf = true ∧ d.mfOomN 0 ≤ (d.port 0).mfas.bad ∧ ((port0 {} []).port 0).mfas.bad < d.mfOomN 0 ∧
    (on.obj 0).svc = true ∧ on.hasH4 0 = true ∧ (on.obj 0).itp = .norm ∧ (on.obj 0).h4.inMf = false ∧ on.mfIfN 0 ≤ (on.obj 0).h4.run ∧
    (on.obj 0).h4.last = some 2 ∧ (withObj 0 3 { svc := true } []).hasH4 0 = false ∧ ((tu {} .norm).obj 0).h4.run < (tu {} .norm).mfIfN 0 ∧
    ((full 7).obj 0).h4.inMf = true ∧ (full 7).mfOomN 0 ≤ ((full 7).obj 0).h4.bad ∧ ((full 0).obj 0).h4.bad < (full 0).mfOomN 0 ∧
    ((tu { inMf := true } .lop).obj 0).itp ≠ .norm ∧ ({ last := some 4 } : Multi).last = some 4 := by
  decide +kernel

theorem wit_E1MonitorMoves : ∀ st ∈ [E1St.search, .basic, .noCrc4, .crc4],
    let c (x : E1Rx) : Core := withObj 6144 0x400 { svc := true, itp := .norm, e1 := st, e1rx := x } []
    (c {}).e1On 6144 = true ∧ ((c {}).obj (okey 6144 0)).e1 = st ∧
    (∀ u ∈ [E1St.search, .basic, .noCrc4, .crc4], ((c { st := u }).obj (okey 6144 0)).e1rx.st = u) ∧
    ((c { lostFas := true }).obj (okey 6144 0)).e1rx.lostFas = true ∧ ((c { lostCrc := true }).obj (okey 6144 0)).e1rx.lostCrc = true ∧
    ((c {}).obj (okey 6144 0)).e1rx.lostFas = false ∧ ((c {}).obj (okey 6144 0)).e1rx.lostCrc = false ∧ (blk []).e1On 6144 = false := by
  decide +kernel

/-- A frame without FAS, one with it, and a CRC count at its threshold. -/
theorem wit_E1MonitorMoves_machine :
    let fas : List Bool := [false, false, false, true, true, false, true, true]
    isFas (fas.take 8) = true ∧ isFas ((List.replicate 256 false).take 8) = false ∧
    (let y : E1Rx := { st := .crc4, odd := true, blocks := List.replicate 915 true }
     y.odd = true ∧ y.errs < 3 ∧ y.st = .crc4 ∧ 915 ≤ (y.crcFrame fas).blocks.countP id) := by decide +kernel

theorem wit_TracesAreAccepted :
    let bs : List Byte := List.replicate 62 0x41 ++ [0x0D, 0x0A]
    let tr (n : Nat) : TraceRx := { last := bs, run := n }
    let c (n : Nat) (l : List (Nat × Word)) : Core := port0 { j0 := tr n, sm := tr n } l
    let al := [(0x200, (5 : Word)), (0x208, 0x105)]
    let d (n : Nat) (svc : Bool) : Core := (withObj 0 0x2000 { svc := svc, rx := { trace := tr n } } []).twr (trib 0 1) 384
    max 3 ((c 15 al).gf (pe 0 0x54) 8 4) ≤ ((c 15 al).port 0).j0.run ∧ ((c 15 al).port 0).sm.run = 15 ∧ 5 ≤ (c 15 al).pst 0 ∧
    isOtu ((c 15 al).rate 0) = true ∧ ((c 2 al).port 0).j0.run < max 3 ((c 2 al).gf (pe 0 0x54) 8 4) ∧ ((c 2 al).port 0).sm.run = 2 ∧
    (c 15 []).pst 0 < 5 ∧ isOtu ((c 15 []).rate 0) = false ∧
    (d 15 true).rxBuf { idx := 0, sub := 0 } = some 384 ∧ max 3 ((d 15 true).gf (pe ((d 15 true).portOf 0) 0x54) 8 4) ≤ ((d 15 true).obj 0).rx.trace.run ∧
    ((d 15 true).obj 0).svc = true ∧ ((d 15 false).obj 0).svc = false ∧ ((d 2 true).obj 0).rx.trace.run < 3 ∧
    (withObj 0 0x2000 {} []).rxBuf { idx := 0, sub := 0 } = none ∧ bs.length ≤ 64 := by decide +kernel

theorem wit_OverheadValuesAreAccepted :
    let c := port0 { sRun := 15, kRun := 7 } []
    max 3 (c.gf (pe 0 0x50) 11 4) ≤ (c.port 0).sRun ∧ max 3 (c.gf (pe 0 0x50) 8 3) ≤ (c.port 0).kRun ∧ c.mspOf 0 = none ∧
    ((withObj 0 3 { svc := true, slRun := 5 } []).obj 0).svc = true ∧ 5 ≤ ((withObj 0 3 { svc := true, slRun := 5 } []).obj 0).slRun := by
  decide +kernel

theorem wit_DefectsFollowTheirDetection :
    (port0 { k2Val := 7, k2Run := 3 } []).portDetect 0 .msAis = some true ∧ (port0 { notAisRun := 3 } []).portDetect 0 .msAis = some false ∧
    (withObj 0 3 { svc := true, itp := .ais } []).objDetect { idx := 0, sub := 0 } .auAis = some true ∧
    (withObj 0 3 { svc := true, itp := .norm } []).objDetect { idx := 0, sub := 0 } .auAis = some false ∧
    (let c := port0 { judge := { due := some (1000000, false) } } [(0x6C, 0x101), (0x208, 0x101)]
     (c.port 0).judge.due = some (1000000, false) ∧ c.rd (pe 0 0x6C) = BitVec.ofNat 32 0x101 ∧ fld (BitVec.ofNat 32 0x101) 0 8 ≠ 0 ∧
     excSet (BitVec.ofNat 32 0x101) (rateN (c.rate 0)) ≤ 1000000 ∧ 0 < excSet (BitVec.ofNat 32 0x101) (rateN (c.rate 0)) ∧
     0 < excClr (BitVec.ofNat 32 0x101) (rateN (c.rate 0))) ∧
    (let c := port0 { k2Val := 6, k2Run := 5 } []
     (c.port 0).k2Val = 6 ∧ 5 ≤ (c.port 0).k2Run ∧ (c.port 0).remote = []) ∧
    (let c := withObj 0 3 { rdiRun := 5, rdiVal := true } []
     isPath 0 = true ∧ 5 ≤ (c.obj 0).rdiRun ∧ (c.obj 0).rdiVal = true ∧ (c.obj 0).remote = []) := by decide +kernel

theorem wit_WideDefectsSuppress : [Defect.los, .oof, .lof].Nodup ∧ cutRanks 0 [.lof] [.los, .oof, .lof] = [.lof] := by decide +kernel

theorem wit_PmSecondsAreHarvested :
    let c (f : Nat) : Core := { harvest := some 0, frame := f }
    ({ d06 := true, frame := 8000 } : Core).secondDue = some 0 ∧ ({} : Core).secondDue = none ∧ ({} : Core).harvest = none ∧
    (c 15999).harvest = some 0 ∧ (c 15999).frame < (0 + 2) * 8000 ∧ (c 16000).harvest = some 0 ∧ (0 + 2) * 8000 ≤ (c 16000).frame ∧
    ({} : Core).orReady = false ∧ (blk [(rsv 0x204, 7)]).orReady = true := by decide +kernel

theorem wit_DccFramesCross :
    let body : List Byte := [1, 2]
    let on := [(pg 0x20 + 4, (1 : Word)), (pg 0xC + 4, 1), (pe 0 0x50, 0x30000), (pe 0 0x200, 5)]
    let c (done : List (List Byte × Bool)) (l : List (Nat × Word)) : Core := (blk l).setPort 0 { dccM := { done := done } }
    let good := body ++ (c [] on).fcs 0 body
    let k : Pkt := { id := 1, src := 0, hdr := 0x08000000, bytes := [1, 2], done := true }
    let d : Core := (c [] on).putQueue (c [] on).txq { pkts := [k] }
    let half : Pkt := { id := 3, src := 1, hdr := 0, bytes := [], ended := false }
    ((c [] on).tap 0 true).done = [] ∧ ((c [(good, false)] on).tap 0 true).done = [(good, false)] ∧
    ((c [(good, true)] on).tap 0 true).done = [(good, true)] ∧ ((c [([1, 2, 3], false)] on).tap 0 true).done = [([1, 2, 3], false)] ∧
    (c [] on).dccOn 0 true = true ∧ (c [] on).en 0xC = true ∧ (c [] []).dccOn 0 true = false ∧ (c [(good, false)] []).en 0xC = false ∧
    1 ∈ ({ weirS := { skip := [1] } } : Core).weirS.skip ∧ 1 ∉ (c [] on).weirS.skip ∧
    ((c [] on).dropWaiting 1).openOf 1 = none ∧ (((c [] on).putQueue 2 { pkts := [half] }).dropWaiting 1).openOf 1 = some (2, half) ∧
    2 ≤ body.length ∧ body.length ≤ 4096 ∧ [1, 2, 3] ≠ [1] ++ (c [] on).fcs 0 [1] ∧
    Sparse.get (fun _ => []) (c [] on).weirS.sending 1 = [] ∧ Sparse.get (fun _ => []) ({ weirS := { sending := [(1, [7])] } } : Core).weirS.sending 1 ≠ [] ∧
    bestPkt (((c [] on).queue (c [] on).txq).pkts.filter (toChan · 0 true)) = none ∧
    bestPkt ((d.queue d.txq).pkts.filter (toChan · 0 true)) = some k ∧ d.dccOn 0 true = true ∧ d.en 0xC = true ∧
    Sparse.get (fun _ => []) d.weirS.sending 1 = [] := by decide +kernel

/-- Three octets are no whole frame: two of them would have to be a FCS, and one octet is too few. -/
theorem wit_DccFramesCross_short : ¬∃ body : List Byte, ([1] : List Byte) = body ++ (blk []).fcs 0 body ∧ 2 ≤ body.length ∧ body.length ≤ 4096 := by
  rintro ⟨body, h, h2, _⟩
  have := congrArg List.length h
  simp only [List.length_append, List.length_cons, List.length_nil] at this
  omega

theorem wit_PointersAreInterpreted :
    let c (g : Option PtrSt) := withObj 0 3 { svc := true, itp := .norm, cur := some 100, goto := g } []
    let cl (w : BitVec 16) := ptrClass (ptrMax ((c none).ttype 0)) false (some 100) (decide (((c none).obj 0).since < 3)) false w
    (c none).interprets 0 = true ∧ ((c none).obj 0).itp = .norm ∧ ((c none).obj 0).cur = some 100 ∧
    (c none).gb (pe ((c none).portOf 0) 0x58) 7 = false ∧ (c none).loopInt ((c none).rxPort 0) = false ∧
    ¬(isPath 0 = true ∧ (c none).ttype 0 = 6) ∧ cl 0x6864 = .norm ∧ cl (0x6864 ^^^ 0x2AA) = .inc ∧ cl (0x6864 ^^^ 0x155) = .dec ∧
    ((c none).obj 0).goto = none ∧ (∀ q ∈ [PtrSt.norm, .ais, .lop, .conc], ((c (some q)).obj 0).goto = some q) ∧
    (blk []).interprets 0 = false ∧
    ((List.range 48).all fun j => !mspV ((blk []).msp j).eff || mspW ((blk []).msp j).eff != (blk []).portOf 0) = true := by decide +kernel

/-- In internal loopback the pointer is the one last sent: the same classes on a looped port. -/
theorem wit_PointersAreInterpreted_loop :
    let c := withObj 0 3 { svc := true, itp := .norm, cur := some 100, gOut := 0x6864 } [(pg 0x20 + 4, 1), (pe 0 0x40, 4), (pe 0 0x200, 5)]
    c.interprets 0 = true ∧ c.loopInt (c.rxPort 0) = true ∧ c.gb (pe (c.portOf 0) 0x58) 7 = false := by decide +kernel

theorem wit_PointersAreGenerated :
    let c (h n : Bool) (d : Int) (since : Nat) := withObj 0 3 { svc := true, gHeld := h, gNdf := n, depth := d, gSince := since } [(pe 0 0x208, 0x101)]
    (∀ q ∈ [(true, false, (0 : Int), 0), (false, true, 0, 0), (false, false, 1, 0), (false, false, 3, 9), (false, false, 23, 9),
        (false, false, -3, 9), (false, false, -23, 9), (false, false, 5, 0), (false, false, -5, 0), (false, false, 24, 0), (false, false, -24, 0)],
      isPath 0 = true ∧ ((c q.1 q.2.1 q.2.2.1 q.2.2.2).obj 0).svc = true ∧ (c q.1 q.2.1 q.2.2.1 q.2.2.2).ttype 0 ≠ 6 ∧
      (c q.1 q.2.1 q.2.2.1 q.2.2.2).unused 0 = false ∧ ((c q.1 q.2.1 q.2.2.1 q.2.2.2).obj 0).gHeld = q.1 ∧
      ((c q.1 q.2.1 q.2.2.1 q.2.2.2).obj 0).gNdf = q.2.1 ∧
      ((c q.1 q.2.1 q.2.2.1 q.2.2.2).obj 0).depth + ((c q.1 q.2.1 q.2.2.1 q.2.2.2).obj 0).tx.moved = q.2.2.1 ∧
      ((c q.1 q.2.1 q.2.2.1 q.2.2.2).obj 0).gSince = q.2.2.2) ∧
    genUnit ((c false false 0 0).ttype 0) = 3 ∧ max 4 ((c false false 0 0).gf (pe ((c false false 0 0).portOf 0) 0x58) 8 6) ≤ 9 + 1 ∧
    0 + 1 < max 4 ((c false false 0 0).gf (pe ((c false false 0 0).portOf 0) 0x58) 8 6) ∧ (24 : Int) % 3 = 0 ∧ (-24 : Int) % 3 = 0 := by
  decide +kernel

theorem wit_PrbsPairsRun :
    let c (v : Word) (x : Prbs) : Core := ((({} : Core).twr (prbs 0 4) v).twr (prbs 0 3) 2).setPat 0 x
    bitOf ((c 4 {}).trd (prbs 0 4)) 2 = true ∧ bitOf ((c 4 {}).trd (prbs 0 4)) 0 = false ∧ ((c 4 { inSync := true }).pat 0).inSync = true ∧
    bitOf ((c 0 {}).trd (prbs 0 4)) 2 = false ∧ bitOf ((c 5 {}).trd (prbs 0 4)) 0 = true ∧ ((c 4 {}).pat 0).inSync = false ∧
    ((c 5 { lost := true }).pat 0).lost = true ∧ ((c 5 {}).pat 0).lost = false ∧
    bitOf (({} : Core).trd (prbs 0 3)) 1 = false ∧ bitOf ((c 4 {}).trd (prbs 0 3)) 1 = true ∧
    (∀ code < 8, let x : Prbs := { fill := 64, good := 63 }
      (patTaps code).1 ≤ x.fill ∧ x.inSync = false ∧ ∃ b : Bool, decide ((patNext code x.reg).1 = b) = true) ∧
    (let y : Prbs := { inSync := true, err := 15 }
     y.inSync = true ∧ y.err = 15 ∧ (decide ((patNext 0 y.reg).1 = !(patNext 0 y.reg).1)) = false) ∧ ({ inSync := true } : Prbs).err < 15 := by decide +kernel

/-- Group 0 in effect with two VC-4 members, and one of its slots. -/
def withGroup (w0 : Word) (x : Slot) : Core := (({} : Core).setGroup 0 { eff := [w0, 0, 0, 0x80000], loaRun := 16, rsPend := true, rsCnt := 32 }).setSlot 0 1 x

theorem wit_SinkMembersFollowTheirSlots :
    let c (lc : Bool) (x : Slot) : Core := withGroup (if lc then 0x65 else 0x45) x
    let d (lc : Bool) : List Word := ((c lc {}).group 0).eff
    let k (ok : Bool) : CtrlPkt := { frame := 4, sq := 3, ctrl := 2, crcOk := ok, mst := [], mstAt := 0, rsAck := false }
    let sf : Core := { (withGroup 0x65 {}) with objs := [] }.setObj 4 { svc := true, present := [.auAis], reported := [.auAis] }
    (c true {}).gRuns 0 = true ∧ gSource (d true) = false ∧ 1 < (c true {}).nslot (d true) ∧ gLcas (d true) = true ∧ gLcas (d false) = false ∧
    gRev (d false) = none ∧ gRev (d true) = none ∧ gMode (d false) = true ∧ (c false {}).gRuns 0 = true ∧ gSource (d false) = false ∧
    ((c true {}).slot 0 1).pkt = none ∧ (∀ ok ∈ [true, false], ((c true { pkt := some (k ok) }).slot 0 1).pkt = some (k ok) ∧ (k ok).crcOk = ok) ∧
    fld ((c false {}).trd (grp 0 13)) 27 1 = (if (k true).rsAck then 1 else 0) ∧
    ((c true {}).members (d true))[1]? = some 4 ∧ (c true {}).objSf 4 = false ∧ sf.objSf 4 = true ∧ (sf.members (d true))[1]? = some 4 ∧ sf.gRuns 0 = true ∧
    (c true {}).mfIfN ((c true {}).portOf 1) ≤ ((c true { mf := { run := 9, last := some 7 } }).slot 0 1).mf.run ∧
    ((c true { mf := { run := 9, last := some 7 } }).slot 0 1).mf.last = some 7 ∧ ((c true {}).slot 0 1).mf.inMf = false ∧
    ((c true {}).slot 0 1).mf.run < (c true {}).mfIfN ((c true {}).portOf 1) ∧
    ((c true { mf := { inMf := true, bad := 9 } }).slot 0 1).mf.inMf = true ∧
    (c true {}).mfOomN ((c true {}).portOf 1) ≤ ((c true { mf := { inMf := true, bad := 9 } }).slot 0 1).mf.bad ∧
    ((c true {}).slot 0 1).mf.bad < (c true {}).mfOomN ((c true {}).portOf 1) ∧
    ((c true {}).slot 0 1).lom = false ∧ (c true {}).mfLom ((c true {}).portOf 1) ≤ ((c true { mf := { oomF := 31 } }).slot 0 1).mf.oomF ∧
    ((c true {}).slot 0 1).mf.oomF < (c true {}).mfLom ((c true {}).portOf 1) ∧
    ((c true { lom := true }).slot 0 1).lom = true ∧
    (c true {}).mfLom ((c true {}).portOf 1) ≤ ((c true { lom := true, mf := { mfF := 31 } }).slot 0 1).mf.mfF ∧
    ((c true { lom := true }).slot 0 1).mf.mfF < (c true {}).mfLom ((c true {}).portOf 1) ∧
    ((c true { loa := true, loaRun := 16 }).slot 0 1).loa = true ∧ 16 ≤ ((c true { loa := true, loaRun := 16 }).slot 0 1).loaRun ∧
    ((c true {}).slot 0 1).loa = false ∧ 3 ≤ ((c false { sqRun := 3 }).slot 0 1).sqRun ∧ ((c false {}).slot 0 1).sqRun < 3 ∧
    ((List.range ((c true {}).nslot (d true))).all fun s => (c true { ctrlNow := some 2 }).gSet 0 24 s = (c true { ctrlNow := some 2 }).inSet 0 s) = false ∧
    ((List.range ((c true {}).nslot (d true))).all fun s => (c true {}).gSet 0 24 s = (c true {}).inSet 0 s) = true := by
  decide +kernel

theorem wit_GroupsReportAndRecord :
    let c (x : Slot) (on : Word) : Core := ((withGroup 0x65 x).twr (grp 0 12) 2).twr (grp 0 16) on
    let idle : Core := (withGroup 0x65 {}).setGroup 0 { eff := [0x65, 0, 0, 0x80000] }
    let due : Core := (c {} 0).setGroup 0 { (c {} 0).group 0 with rsCnt := 1024 }
    (c {} 0).gRuns 0 = true ∧ 16 ≤ ((c {} 0).group 0).loaRun ∧ fld ((c {} 0).trd (grp 0 12)) 0 3 = 2 ∧ idle.gRuns 0 = true ∧
    (idle.group 0).loaRun < 16 ∧ fld (idle.trd (grp 0 12)) 0 3 ≠ 2 ∧ gMode ((c {} 0).group 0).eff = true ∧ gSource ((c {} 0).group 0).eff = false ∧
    gLcas ((c {} 0).group 0).eff = true ∧ 1 < (c {} 0).nslot ((c {} 0).group 0).eff ∧
    ((c { failed := true } 2).slot 0 1).failed = true ∧ (c {} 2).gSet 0 16 1 = true ∧ (c {} 0).gSet 0 16 1 = false ∧
    8 * fld ((c {} 0).trc (grp 0 3)) 0 8 ≤ ((c { failed := true } 2).slot 0 1).failRun ∧
    8000 * fld ((c {} 0).trc (grp 0 3)) 8 10 ≤ ((c {} 0).slot 0 1).okRun ∧ ((c {} 0).slot 0 1).failed = false ∧
    (let w := (c { failed := true } 2).twr (grp 0 3) 0x101
     (w.slot 0 1).failRun < 8 * fld (w.trc (grp 0 3)) 0 8 ∧ (w.slot 0 1).okRun < 8000 * fld (w.trc (grp 0 3)) 8 10) ∧
    (due.group 0).rsPend = true ∧ (if gType (due.group 0).eff ≤ 2 then 512 else 1024) ≤ (due.group 0).rsCnt ∧ (idle.group 0).rsPend = false ∧
    (idle.group 0).rsCnt < 512 ∧ (c {} 0).frame % 64 = 0 ∧ ({ c {} 0 with frame := 1 } : Core).frame % 64 ≠ 0 ∧ (c {} 0).orReady = false ∧
    ((c {} 0).wr (rsv 0x204) 7).orReady = true := by decide +kernel

theorem wit_TheStoreComesUpInOrder : ∀ n ∈ [0, 1, 3, 7],
    let c := blk [(lev 0x204, 8), (rsv 0x204, BitVec.ofNat 32 n)]
    c.gb (lev 0x204) 3 = true ∧ c.gb (rsv 0x204) 4 = false ∧ c.gb (rsv 0x204) 3 = false ∧
    (c.gb (rsv 0x204) 0 = decide (1 ≤ n)) ∧ (c.gb (rsv 0x204) 1 = decide (3 ≤ n)) ∧ (c.gb (rsv 0x204) 2 = decide (7 ≤ n)) := by decide +kernel

/-- An island that is off, a failed initialisation, and a store that is up. -/
theorem wit_TheStoreComesUpInOrder_over : (blk []).gb (lev 0x204) 3 = false ∧ (blk [(rsv 0x204, 0x10)]).gb (rsv 0x204) 4 = true ∧
    (blk [(rsv 0x204, 0xF)]).gb (rsv 0x204) 3 = true := by decide +kernel

theorem wit_TheOpenReservoirIsReadAndWritten :
    let c (n : Nat) : Core := blk [(hif 0x200, 3), (hif 0x204, 1), (rsv 0x204, BitVec.ofNat 32 n)]
    let x (a : BitVec 31) (n : Nat) (d : Option (List Byte)) : Bar4 := { addr := a, bytes := n, data := d }
    let p (n : Nat) : Core := blk [(hif 0x200, 1), (rsv 0x204, BitVec.ofNat 32 n)]
    let bad (d : Core) : Core := { d with rsvS := { badCells := [(0x380000000 + 320) / 32] } }
    (c 7).hdmOn = true ∧ (c 7).orReady = true ∧ (c 3).hdmOn = true ∧ (c 3).orReady = false ∧ (blk []).hdmOn = false ∧
    (c 7).orPoison (64 * (5#24).toNat) 64 = false ∧ (bad (c 7)).orPoison (64 * (5#24).toNat) 64 = true ∧ (bad (c 7)).hdmOn = true ∧
    (bad (c 7)).orReady = true ∧ (0x3FFFFF#24).toNat < 0x400000 ∧ 0x800000 ≤ (0x800000#24).toNat ∧ 0x400000 ≤ (0x400000#24).toNat ∧
    (0x7FFFFF#24).toNat < 0x800000 ∧ (blk []).gb (hif 0x200) 0 = false ∧
    (p 0xF).gb (hif 0x200) 0 = true ∧ (p 0xF).gb (hif 0x200) 1 = false ∧ (p 0xF).orReady = true ∧ (p 3).orReady = false ∧
    (x 0x3FFFFFFF 4 none).addr.toNat < 0x40000000 ∧ 0x40000000 ≤ (x 0x40000140 64 none).addr.toNat ∧ (x 0 2 none).bytes < 4 ∧
    (x 0 6 none).bytes % 4 ≠ 0 ∧ (x 0x40000002 4 none).addr.toNat % 4 ≠ 0 ∧ 64 < (x 0x40000004 64 none).addr.toNat % 64 + (x 0x40000004 64 none).bytes ∧
    (x 0x40000140 64 none).addr.toNat % 64 + (x 0x40000140 64 none).bytes ≤ 64 ∧ (p 0xF).orPoison 0x140 64 = false ∧
    (bad (p 0xF)).orPoison 0x140 64 = true ∧ (x 0x50000000 4 none).addr.toNat - 0x40000000 = 0x10000000 ∧
    0x20000000 ≤ (x 0x60000000 4 none).addr.toNat - 0x40000000 := by decide +kernel

theorem wit_HbmErrorsAreRecorded :
    let scrub (n i : Nat) (sr : Word) : Core := blk [(rsv 0x44, BitVec.ofNat 32 n), (rsv 0x204, BitVec.ofNat 32 i), (rsv 0x200, sr)]
    storeCells ≤ (0x1C000000#29).toNat ∧ (0x1BFFFFFF#29).toNat < storeCells ∧ (blk [(rsv 0x40, 0x100)]).gb (rsv 0x40) 8 = true ∧
    (blk [(rsv 0x40, 0)]).gb (rsv 0x40) 8 = false ∧ (scrub 0x10000 8 0).gb (rsv 0x44) 16 = true ∧ (scrub 0x10000 8 0).gb (rsv 0x204) 3 = true ∧
    (scrub 0x10000 8 0).gb (rsv 0x204) 4 = false ∧ (scrub 0x10000 8 0).gb (rsv 0x200) 8 = false ∧ (scrub 0 8 0).gb (rsv 0x44) 16 = false ∧
    (scrub 0 0 0).gb (rsv 0x204) 3 = false ∧ (scrub 0 0x18 0).gb (rsv 0x204) 4 = true ∧ (scrub 0 8 0x100).gb (rsv 0x200) 8 = true ∧
    (94#8).toNat < 95 ∧ 95 ≤ (95#8).toNat ∧ (blk []).gb (rsv 0x258) 8 = false ∧ (blk [(rsv 0x258, 0x100)]).gb (rsv 0x258) 8 = true := by
  decide +kernel

theorem wit_TableParityIsHandledByTable :
    let c (n : Nat) (m : List (Nat × Nat)) : Core := { blk [(rsv 0x200, BitVec.ofNat 32 n)] with rsvS := { mis := m } }
    ({ rsvS := { seen := [(3, 0)] } } : Core).rsvS.seen.contains (3, 0) = true ∧ ({ rsvS := { seen := [(3, 0)] } } : Core).rsvS.blank = [] ∧
    (c 0 []).rsvS.blank = [] ∧ (∀ t : Fin 9, (c 0 []).rsvS.seen.contains (t.val, 0) = false) ∧ (1 : Fin 9) ≠ 0 ∧ (1 : Fin 9).val < 3 ∧
    6 < (7 : Fin 9).val ∧
    (4 : Fin 9).val = 4 - (c 0 []).gf (rsv 0x200) 0 1 ∧ (3 : Fin 9).val = 4 - (c 1 []).gf (rsv 0x200) 0 1 ∧
    (6 : Fin 9).val = 6 - (c 0 []).gf (rsv 0x200) 1 1 ∧ (5 : Fin 9).val = 6 - (c 2 []).gf (rsv 0x200) 1 1 ∧
    (3 : Fin 9).val = 3 + (c 4 []).gf (rsv 0x200) 0 1 ∧ (4 : Fin 9).val = 3 + (c 5 []).gf (rsv 0x200) 0 1 ∧
    (5 : Fin 9).val = 5 + (c 8 []).gf (rsv 0x200) 1 1 ∧ (6 : Fin 9).val = 5 + (c 0xA []).gf (rsv 0x200) 1 1 ∧
    (c 0xC []).gb (rsv 0x200) 2 = true ∧ (c 0xC []).gb (rsv 0x200) 3 = true ∧ (c 0 []).gb (rsv 0x200) 2 = false ∧ (c 0 []).gb (rsv 0x200) 3 = false ∧
    (c 0xC []).rsvS.mis.contains (4, 0) = false ∧ (c 0xC [(4, 0)]).rsvS.mis.contains (4 - (c 0xC []).gf (rsv 0x200) 0 1, 0) = true ∧
    (c 0xC [(6, 0)]).rsvS.mis.contains (6 - (c 0xC []).gf (rsv 0x200) 1 1, 0) = true := by decide +kernel

/-- A block whose inactive XMAP plane sends Path 0 out at Path 64. -/
def mapped (l : List (Nat × Word)) : Core :=
  ((((withObj 0 3 { svc := true } l).twr (trib 64 0) 3).setObj (okey 64 0) { svc := true }).twr (xmap 1 64) 1).twr (xmap 1 0) 0

theorem wit_CommitRequestsAreCheckedAndWithdrawn :
    let st := rsv 0x208
    let run (l : List (Nat × Word)) : Core := blk ([(hif 0x20C, 2)] ++ l)
    let rdy := run [(rsv 0x204, 8)]
    let held (c : Core) (v : Word) (tgt : BitVec 64) : Core :=
      let d := ((c.wr (rsv 0xB10) (v &&& 0x7E)).wr (rsv 0xB14) (BitVec.ofNat 32 tgt.toNat)).wr (rsv 0xB18) (BitVec.ofNat 32 (tgt.toNat / 2 ^ 32))
      { d with rsvS := { d.rsvS with req := some { bits := v, tgt := tgt.toNat } } }.sf st 12 2 (fld v 1 2)
    (blk []).wDown = true ∧ (blk []).wState ≠ 4 ∧ (run [(st, 1)]).wDown = false ∧ (run [(st, 1)]).gb st 0 = true ∧
    (blk [(hif 0x20C, 4)]).wState = 4 ∧ (blk [(hif 0x20C, 4)]).gb st 0 = false ∧ rdy.gb st 0 = false ∧ rdy.wDown = false ∧
    (held (run [(rsv 0xB1C, 1)]) 3 0).gb (rsv 0xB1C) 0 = true ∧ (held rdy 3 0).gb (rsv 0xB1C) 0 = false ∧
    (held rdy 3 0).gb (rsv 0x204) 3 = true ∧ (held rdy 3 0).gb (rsv 0x204) 4 = false ∧ fld 3 1 2 ≠ 0 ∧ fld 1 1 2 = 0 ∧
    (held (mapped [(hif 0x20C, 2)]) 3 0).gb (rsv 0x204) 3 = false ∧ ((held (mapped [(hif 0x20C, 2)]) 3 0).checkMaps 1 false).storage ≠ 0 ∧
    (held (mapped [(hif 0x20C, 2)]) 3 0).gb (rsv 0xB1C) 0 = false ∧
    (blk []).rsvS.req = none ∧ (blk [(st, 4)]).gf st 1 2 ≠ 1 ∧ ((mapped []).checkMaps 1 false).rings ≠ [] ∧
    (let c (bits : Word) (tgt : Nat) (d06 : Bool) : Core :=
      { mapped [(st, 2)] with rsvS := { req := some { bits := bits, tgt := tgt } }, d06 := d06 }
     (c 2 0 true).rsvS.req = some { bits := 2, tgt := 0 } ∧ (c 2 0 true).gf st 1 2 = 1 ∧ ((c 2 0 true).checkMaps 1 false).cause = 0 ∧
     bitOf (2 : Word) 6 = false ∧ bitOf (0x42 : Word) 6 = true ∧ bitOf (2 : Word) 3 = false ∧ bitOf (0xA : Word) 3 = true ∧
     (c 2 0 true).d06 = true ∧ (c 2 0 false).d06 = false ∧ (c 2 0 true).frame + 2 ≤ 5 ∧ 1 < (c 2 0 true).frame + 2 ∧
     (((c 2 0 true).twr (xmap 1 64) 5).checkMaps 1 false).cause ≠ 0) ∧
    (run [(st, 8)]).gb st 3 = true ∧ (run []).gb st 3 = false ∧ ((run [(st, 2)]).sb st 3 true).gf st 1 2 = 1 ∧
    (let d (n : Word) : Core := (run [(st, 4), (rsv 0x210, n)]).sb st 3 true
     (d 2).gf st 1 2 = 2 ∧ (d 2).frame + 1 < (d 2).armedAt ∧ (d 1).armedAt = (d 1).frame + 1 ∧ (d 0).armedAt ≤ (d 0).frame) ∧
    ((run []).sb st 3 true).gf st 1 2 = 0 := by decide +kernel

theorem wit_CommitsFlipTheirPlanes : ∀ bits ∈ [2, 4, 6, 0x12, 0x14],
    let q : Req := { bits := BitVec.ofNat 32 bits, tgt := 5 }
    let c : Core := { blk [(rsv 0x208, 4), (rsv 0x210, 5)] with d06 := true, frame := 5, rsvS := { req := some q } }
    c.commitDue = true ∧ c.rsvS.req = some q ∧ q.cmd = none ∧ q.capsule = none ∧ (blk []).commitDue = false ∧
    ({ rsvS := { copy := 3 } } : Core).rsvS.copy = 3 := by decide +kernel

theorem wit_SelfRefreshComesAndGoes :
    let c (i : Word) : Core := { blk [(rsv 0x40, 0x201), (rsv 0x204, i)] with rsvS := { idle := 1 } }
    (c 8).gb (rsv 0x40) 9 = true ∧ (c 8).rsvS.rings = [] ∧ (c 8).rsvS.req = none ∧ (c 8).gb (rsv 0x200) 8 = false ∧ (c 8).gb (rsv 0x204) 3 = true ∧
    (c 0x10).gb (rsv 0x204) 4 = true ∧ max 1 ((c 8).gf (rsv 0x40) 0 8) ≤ (c 8).rsvS.idle ∧ (blk [(rsv 0x40, 0)]).gb (rsv 0x40) 9 = false ∧
    (blk [(rsv 0x200, 0x100)]).gb (rsv 0x200) 8 = true ∧ (blk []).rsvS.idle < max 1 ((blk []).gf (rsv 0x40) 0 8) ∧
    ({ rsvS := { req := some { bits := 0, tgt := 0 } } } : Core).rsvS.req ≠ none ∧
    ({ rsvS := { rings := [{ key := 0, base := 0, cells := 1, depth := 1, use := 0, readers := 1 }] } } : Core).rsvS.rings ≠ [] ∧
    (let d (sr : Word) (l1 : Bool) : Core := { blk [(rsv 0x200, sr)] with levS := { inL1 := l1 } }
     (d 0 false).levS.inL1 = false ∧ (d 0 true).levS.inL1 = true ∧
     ∀ l1 : Bool, ((d 0x100 l1).leaveL1).gb (rsv 0x200) 8 = true ∧ ((d 0 l1).leaveL1).gb (rsv 0x200) 8 = false) := by decide +kernel

/-- A block with PMAP pair 0 in effect, its selector and some registers. -/
def paired (x : Pair) (l : List (Nat × Word)) : Core := ((blk l).twr (pmap 0 0 0) 0x00010001).setPair 0 x
/-- A block with MSP pair 0 from port 0 to port 1 in effect. -/
def mspd (x : Msp) (l : List (Nat × Word)) : Core := (blk l).setMsp 0 { x with eff := 0x1C080 ||| x.eff }

theorem wit_MarkersAlignTheCopies :
    let bs : List Byte := [1, 2, 3]
    let w : Pair := { align := 1, sigW := [(sigOf bs, 13, 1029)] }
    let mk (f : Nat) (h : Option (Nat × Nat)) : Marker := { sig := crcOnes 32 0x04C11DB7 false bs, pos := 10, frame := f, hit := h }
    let c (x : Pair) : Core := { paired x [] with frame := 2000 }
    (c { align := 1 }).pairValid (c { align := 1 }).mapsNow.p 0 = true ∧ ((c { align := 1 }).pair 0).marking = true ∧ ((c { align := 2 }).pair 0).marking = true ∧ ((c { align := 1 }).pair 0).markP = none ∧
    ((c { align := 1 }).pair 0).markW = none ∧ (c {}).pairsOf (c {}).mapsNow.p = [0] ∧ ((c {}).pair 0).sigW = [] ∧ ((c {}).pair 0).sigP = [] ∧
    ((c w).pair 0).sigW = (sigOf bs, 13, 1029) :: [] ∧ ((c w).pair 0).markW = none ∧ ((c w).pair 0).marking = true ∧
    ((c { w with markP := some (mk 5 none), markW := some (mk 6 none) }).pair 0).sigW = [(sigOf bs, 13, 1029)] ∧ (mk 5 none).sig = sigOf bs ∧
    ((c { align := 1, markP := some (mk 5 none), markW := some (mk 6 none) }).pair 0).markP = some (mk 5 none) ∧
    (mk 5 none).hit = none ∧ (mk 5 none).frame ≤ 1029 ∧ 1029 ≤ (mk 5 none).frame + 1024 ∧
    (mk 5 (some (3, 1))).hit = some (3, 1) ∧ ((c { align := 1, markP := some (mk 5 (some (3, 1))) }).pair 0).align = 1 ∧
    (paired {} [(slu 0x40, 1)]).confN ≤ 0 + 1 ∧ 0 + 1 < (paired {} [(slu 0x40, 2)]).confN ∧ (c {}).pairSkew (c {}).mapsNow.p 0 = 1 ∧
    (mk 5 none).frame + 1024 < (c {}).frame ∧ 0 + 1 < (c {}).loseN ∧ (paired {} [(slu 0x40, 1)]).loseN ≤ 1 + 1 ∧
    ((c { align := 2, markW := some (mk 5 none), missRun := 1 }).pair 0).missRun = 1 ∧
    (mk 5 none).frame ≤ 5 ∧ (c {}).pairSkew (c {}).mapsNow.p 0 < 2 ∧ (1 : Nat) ≤ 1 ∧ ((c { align := 2, markW := some (mk 5 none) }).pair 0).align ≠ 1 := by decide +kernel

theorem wit_SelectorsObeyTheHighestRequest :
    let x (k : Nat) (i : Option Nat) : Pair := { cmd := k, raised := (List.range 4).map fun j => some j = i }
    (∀ k ∈ [1, 2, 3, 4, 5], (x k none).cmd = k ∧ (x k none).raised.getD 0 false = false) ∧
    (∀ i < 4, (x 0 (some i)).cmd = 0 ∧ (x 0 (some i)).raised.getD i false = true ∧
      ∀ j < 4, j ≠ i → (x 0 (some i)).raised.getD j false = false) ∧ (x 0 none).wtr = none ∧
    ({ x 0 none with wtr := some 4 } : Pair).wtr ≠ none := by decide +kernel

theorem wit_SelectorTimersAndCommandsAct :
    let c := paired { cond := [true, false, false, false], runs := [1, 0, 0, 0], wtr := some 0 } []
    let run (b : Word) : Core := blk [(hif 0x20C, 2), (slu 0xB04, b)]
    c.pairValid c.mapsNow.p 0 = true ∧ c.rsvS.held.contains 0 = false ∧ (c.pair 0).cond.getD 0 false = true ∧
    (c.pair 0).holdOf (c.pairCfg 0) 0 < (c.pair 0).runs.getD 0 0 ∧ (c.pair 0).cond.getD 1 false = false ∧ (c.pair 0).wtr = some 0 ∧
    (let d := paired { cond := [true, false, false, false], wtr := some 5 } []
     (d.pair 0).runs.getD 0 0 ≤ (d.pair 0).holdOf (d.pairCfg 0) 0 ∧ (d.pair 0).wtr ≠ some 0 ∧ d.pairValid d.mapsNow.p 0 = true) ∧
    (run 0).wDown = false ∧ (run 0).gb (slu 0xB04) 0 = false ∧ (run 1).wDown = false ∧ (run 1).gb (slu 0xB04) 0 = true ∧
    (blk []).wDown = true := by decide +kernel

theorem wit_MspPairsReportProtocolFailures :
    let c (x : Msp) : Core := mspd x [(pe 1 0x50, 0x300)]
    mspV ((c { noK := 12, chRun := 400 }).msp 0).eff = true ∧ 12 ≤ ((c { noK := 12, chRun := 400 }).msp 0).noK ∧
    400 ≤ ((c { noK := 12, chRun := 400 }).msp 0).chRun ∧ ((c { psbf := true }).msp 0).noK = 0 ∧ ((c { chMm := true }).msp 0).chRun = 0 ∧
    bitOf ((c {}).msp 0).eff 15 = true ∧ ((c {}).msp 0).chMm = false ∧ ((c {}).msp 0).modeMm = false ∧
    (((c { k1 := 0xC1 }).msp 0).localReq true).1 < ((c { k1 := 0xC1 }).msp 0).far ∧
    ((c {}).msp 0).far ≤ (((c {}).msp 0).localReq true).1 ∧
    ((c {}).msp 0).noK < 12 ∧ ((c {}).msp 0).psbf = false ∧ ((c {}).msp 0).chRun < 400 ∧ mspV ((c {}).msp 0).eff = true ∧
    ((c { psbf := true }).msp 0).psbf = true ∧ ((c { chMm := true }).msp 0).chMm = true ∧ (c {}).mspOf 1 = some 0 ∧ max 3 ((c {}).gf (pe 1 0x50) 8 3) ≤ (((c {}).setPort 1 { kRun := 3 }).port 1).kRun := by decide +kernel

theorem wit_TheMateChangesRoles :
    let c (role : Nat) (x : SluSt) : Core :=
      { blk [(hif 0x20C, 2), (slu 0x200, BitVec.ofNat 32 role), (slu 0x44, 0x1032)] with sluS := x }
    let h : Heartbeat := { role := 2, flags := 6, frame := 77, yieldAt := 0, xmapH := 0, pmapH := 0 }
    let bad : Heartbeat := { h with flags := 2 }
    let msg : List Byte := (c 2 {}).heartbeatMsg
    (c 2 {}).gf (slu 0x44) 4 2 ≠ 0 ∧ unle ((msg.drop 60).take 4) = crcOnes 32 0x04C11DB7 false (msg.take 60) ∧
    unle (((msg.set 1 7).drop 60).take 4) ≠ crcOnes 32 0x04C11DB7 false ((msg.set 1 7).take 60) ∧ (blk [(slu 0x44, 2)]).gf (slu 0x44) 4 2 = 0 ∧
    (c 2 { lastHb := some h }).snpS.req = none ∧ (c 2 { lastHb := some h }).gf (rsv 0x208) 1 2 ≠ 2 ∧ 3 ≤ (c 3 { missed := 3 }).sluS.missed ∧ (c 3 {}).role = 3 ∧
    (c 2 {}).role = 2 ∧ (c 3 {}).sluS.missed < 3 ∧
    (c 1 { arb := 16 }).role = 1 ∧ (if (c 1 {}).gf (slu 0x44) 8 13 = 0 then 8000 else (c 1 {}).gf (slu 0x44) 8 13) ≤ (c 1 { arb := 16 }).sluS.arb ∧
    (c 4 { dual := 8 }).role = 4 ∧ (c 4 {}).unit = true ∧ 8 ≤ (c 4 { dual := 8 }).sluS.dual ∧ (blk []).unit = false ∧
    (c 3 {}).wDown = false ∧ (blk []).wDown = true ∧ (c 0x103 {}).wDown = false ∧
    (c 3 {}).gb (slu 0x200) 8 = false ∧ h.role.val = 2 ∧ h.flags.getLsbD 2 = true ∧ h.flags.getLsbD 1 = true ∧ bad.flags.getLsbD 2 = false ∧
    (c 3 { lastHb := some h }).sluS.lastHb = some h ∧ (c 3 { lastHb := some bad }).sluS.lastHb = some bad ∧
    (c 0x103 {}).gb (slu 0x200) 8 = true ∧ (c 3 { yieldAt := some 0 }).sluS.yieldAt = some ((c 3 {}).frame % 2 ^ 32) ∧
    (c 2 { lastHb := some h }).role = 2 ∧ h.yieldAt.toNat = (c 2 {}).frame % 2 ^ 32 ∧ (c 2 { lastHb := some h }).sluS.took = false ∧
    (c 2 { took := true }).sluS.took = true ∧ (c 2 {}).sluS.differ < 8 ∧ (∀ r < 8, 0 < r → (c 0 {}).role ≠ r) := by decide +kernel

theorem wit_MateMessagesAndLanes :
    let c (role : Nat) (l : List (Nat × Word)) : Core := { paired {} ([(slu 0x200, BitVec.ofNat 32 role), (slu 0x44, 8), (lev 0x204, 0x40)] ++ l) with frame := 9 }
    (c 3 []).role = 3 ∧ (c 3 []).gb (slu 0x44) 3 = true ∧ (c 2 []).role = 2 ∧ (c 2 []).pairValid (c 2 []).mapsNow.p 0 = true ∧
    (c 2 []).sluS.mirIn = [] ∧ (c 2 []).gb (lev 0x204) 6 = true ∧ (c 2 []).gb (slu 0x200) 3 = false ∧ (c 0xA []).gb (slu 0x200) 3 = true ∧
    (c 0xA []).gb (slu 0x44) 0 = false ∧ (c 0xA [(slu 0x44, 9)]).gb (slu 0x44) 0 = true ∧ (c 0xA []).gb (slu 0x200) (7 - 3) = false := by
  decide +kernel

theorem wit_GaugesMeasureTheirInputs :
    let c (l : List (Nat × Word)) (x : Gauge) : Core :=
      { up ([(pg 0xA + 4, 1), (gaR 0 0, 1), (gaR 0 4, 96), (gaR 0 0x18, 0x20), (tim 0x48, 4)] ++ l) with
        d06 := true, timS := { gauges := [(0, x)] } }
    let a := gaR 0 0
    let e (l : List (Nat × Word)) := Arrives (c l {})
    (c [] {}).gaugeOn 0 = true ∧ ((c [] {}).gauge 0).reset = false ∧ (c [] {}).gb (gaR 0 0x18) 5 = true ∧ ((c [] {}).gauge 0).ph = none ∧
    ((c [] { ph := some 5 }).gauge 0).ph = some 5 ∧ (7 - ((7 % 4976640 : Nat) : Int)) % 4976640 = 0 ∧ 2 * ((7 : Int) - 5) ≤ 4976640 ∧
    ((c [] { due := true }).gauge 0).due = true ∧ ((c [] { due := true }).gauge 0).swap = none ∧ (c [] {}).selNow = none ∧
    (c [] {}).timS.fade = none ∧ (c [] {}).gb (ga 0 0x40) 0 = false ∧ (c [] {}).gaT 0 + 14 ≤ ((c [(gaR 0 0x1C, 100)] {}).rd (gaR 0 0x1C)).toNat + 1 ∧
    ((c [] {}).rd (gaR 0 0x1C)).toNat + 1 < (c [] {}).gaT 0 + 14 ∧
    (c [] {}).srcUp ((c [] {}).gf (gaR 0 4) 0 8) [4976639, 0] = false ∧
    (let d := c [(gaR 0 4, 100), (tim 0x4C, 7)] {}
     d.gaugeOn 0 = true ∧ d.gb (gaR 0 0x18) 5 = true ∧ d.gf (gaR 0 4) 0 8 = 100 ∧ d.gf (tim 0x4C) 0 24 = 7) ∧ (c [] {}).gf (gaR 0 4) 0 8 ≠ 100 ∧
    (c [] {}).en 0xA = true ∧ (c [(gaR 0 0x18, 0)] {}).gb (gaR 0 0x18) 5 = false ∧ (c [] {}).gf (tim 0x48) 0 2 = 0 ∧
    (c [] {}).srcUp ((c [] {}).gf (gaR 0 4) 0 8) [7, 4976640, 9953287, 19906559] = true ∧
    Open (c [] {}) 4 ∧ Quiet (e []) a (((c [] {}).rd a &&& 9) ||| 2) ∧ (Stored (e []) a (((c [] {}).rd a &&& 9) ||| 2) 9).gb a 8 = false ∧
    Quiet (e [(a, 0x101)]) a (((c [(a, 0x101)] {}).rd a &&& 9) ||| 2) ∧
    (Stored (e [(a, 0x101)]) a (((c [(a, 0x101)] {}).rd a &&& 9) ||| 2) 9).gb a 8 = true ∧
    Quiet (e []) (tim 0xB38) 1 ∧ (Stored (e []) (tim 0xB38) 1 0).gb (tim 0xB38) 1 = false ∧
    (let v : Word := ((c [] {}).rd a &&& 1) ||| 4 ||| 8
     Quiet (e []) a v ∧ (Stored (e []) a v 9).gb a 0 = true ∧ (Stored (e []) a v 9).gb (gaR 0 0x18) 2 = false ∧
     (Stored (e []) a v 9).gb (gaR 0 0x18) 1 ≠ true) ∧
    12 ≤ (e [(ga 0 0xE00, 12)]).gf (ga 0 0xE00) 0 4 ∧ (e [(ga 0 0xE00, 1)]).gf (ga 0 0xE00) 0 4 < 12 ∧
    (e [(ga 0 0xE00, 1)]).gb (gaR 1 0) 0 = false ∧ 12 ≤ (e [(ga 1 0xE00, 15)]).gf (ga 1 0xE00) 0 4 ∧ (e [(ga 1 0xE00, 11)]).gf (ga 1 0xE00) 0 4 < 12 ∧
    (e [(ga 1 0xE00, 11)]).gb (gaR 23 0) 0 = false ∧ (c [] {}).gaugeOn 0 = true ∧ (c [] {}).gaugeOn 1 = false := by decide +kernel

theorem wit_TheLoopLocksAndSelects :
    let c (l : List (Nat × Word)) (x : TimSt) : Core := { up l with timS := x }
    (c [(tim 0x200, 1)] {}).loop = 1 ∧ 16000 ≤ (c [] { lockRun := 16000 }).timS.lockRun ∧ (c [(tim 0x200, 2)] {}).loop = 2 ∧
    (c [(tim 0x200, 4), (tim 0xB00, 0)] {}).loop = 4 ∧ min 18 ((c [(tim 0xB00, 0)] {}).gf (tim 0xB00) 0 5) * 800 ≤ (c [] {}).timS.hold ∧
    (c [(tim 0x200, 4)] {}).selNow = none ∧ (c [(tim 0x200, 4)] {}).selChoice = none ∧
    ((c [] { sis := [(2, { wtr := some 0 })] }).selIn 2).wtr = some 0 ∧ Open (c [] {}) 4 ∧
    (∀ q ∈ [3 + 8 * 2, 5 + 8 * 7, 7 + 8 * 7 + 64, 1], Quiet (Arrives (c [] {})) (tim 0xB30) (BitVec.ofNat 32 q) ∧
      (Stored (Arrives (c [] {})) (tim 0xB30) (BitVec.ofNat 32 q) 0x7E).gb (tim 0xB34) 0 = false ∧
      (Stored (Arrives (c [(tim 0xB34, 1)] {})) (tim 0xB30) (BitVec.ofNat 32 q) 0x7E).gb (tim 0xB34) 0 = true) ∧
    Quiet (Arrives (c [] {})) (tim 4) (((c [] {}).rd (tim 4) &&& 4) ||| 1) ∧ (c [] {}).en 0xD = false ∧
    Quiet (Arrives (c [(tim 4, 1)] {})) (tim 4) ((c [(tim 4, 1)] {}).rd (tim 4) &&& 4) ∧ (c [(tim 4, 1)] {}).en 0xD = true ∧
    (c [] {}).ct1 = [] ∧ (c [] {}).ct2 = [] ∧ (c [] {}).parMis = [] ∧ (c [] {}).timS.lockRun < 16000 ∧ 800 ≤ (c [] { lossRun := 800 }).timS.lossRun ∧
    (c [] {}).timS.lossRun < 800 ∧ (c [] {}).loop ≠ 4 ∧ ((c [] {}).selIn 2).wtr ≠ some 0 := by decide +kernel

/-- A block with the Weir on, its queue `n` selected and holding `x`. -/
def queued (n : Nat) (x : Queue) (l : List (Nat × Word)) : Core :=
  (up ([(lev 0x204, 0x1FFF), (pg 0xC + 4, 1), (wq 0xB00, BitVec.ofNat 32 n)] ++ l)).putQueue n x

theorem wit_QueuesGiveTheirHeads :
    let k : Pkt := { id := 1, src := 0, hdr := 0x08000002, bytes := [1, 2], done := true }
    let c (x : Queue) (l : List (Nat × Word)) : Core := queued 0 x l
    let full : Queue := { pkts := [k], claim := some 1 }
    let e (l : List (Nat × Word)) : Core := Arrives (c full l)
    Open (c full []) 5 ∧ (e []).gf (wq 0xB00) 0 4 = 0 ∧ ((e []).queue 0).head = some k ∧ (e []).en 0xC = true ∧ ((c {} []).queue 0).head = none ∧
    Quiet (e []) (wq 0xB0C) 1 ∧ (Stored (e []) (wq 0xB0C) 1 0xE).gb (wq 0xB0C) 8 = false ∧
    (Stored (e [(wq 0xB0C, 0x100)]) (wq 0xB0C) 1 0xE).gb (wq 0xB0C) 8 = true ∧ ((e []).queue 0).claim = some 1 ∧
    ((c {} []).queue 0).claim = none ∧ Quiet (e []) (wq 0xB00) 3 ∧ (Stored (e []) (wq 0xB00) 3 0xF).gf (wq 0xB00) 0 4 = 3 ∧
    Quiet (e []) (wq 0xB00) 0 ∧ (Stored (e []) (wq 0xB00) 0 0xF).gf (wq 0xB00) 0 4 = 0 ∧
    Quiet (e []) (wq 0xB1C) 16 ∧ (Stored (e []) (wq 0xB1C) 16 0xF).gf (wq 0xB1C) 0 4 = 0 ∧
    (Stored (e []) (wq 0xB1C) 16 0xF).gb (wq 0xB1C) 8 = false ∧ (Stored (e [(wq 0xB1C, 0x100)]) (wq 0xB1C) 16 0xF).gb (wq 0xB1C) 8 = true ∧
    Quiet (e [(wq 0xB1C, 0x100)]) (wq 0xB1C) 16 ∧ (Stored (e [(wq 0xB1C, 0x100)]) (wq 0xB1C) 16 0xF).gf (wq 0xB1C) 0 4 = 0 ∧
    (e []).gf (wq 0xB00) 0 4 ≠ 3 ∧ (c {} []).gb (wq 0xB0C) 8 = false ∧
    (c {} [(wq 0xB0C, 0x100)]).gb (wq 0xB0C) 8 = true ∧
    (let open_ : Queue := { pkts := [{ k with done := false, need := 1 }], blocks := [] }
     open_.pkts.all (·.ended) = true ∧ ((c open_ [(wq 0x200, 1)]).queue 0).pkts = [{ k with done := false, need := 1 }] ∧ (c open_ [(wq 0x200, 1)]).qSize 0 ≤ 0) ∧
    ((c { hiDue := true } []).queue 0).hiDue = true ∧ ((c { hiDue := true } []).queue 0).loDue = false ∧
    ((c {} []).queue 0).hiDue = false := by decide +kernel

theorem wit_HostPacketsAreOpenedFilledAndSent :
    let k : Pkt := { id := 1, src := 289, hdr := 0x08000000, bytes := [1, 2] }
    let c (blocks : Word) (x : Queue) (open_ : Option Nat) (l : List (Nat × Word)) : Core :=
      let d := queued 14 x ([(wq 0xB8, blocks)] ++ l)
      { d with weirS := { d.weirS with host := open_ } }
    let h : Word := 0x00020002
    let e := Arrives (c 0x1000 {} none [])
    let room (d : Core) : Nat := d.qSize d.txq - (d.queue d.txq).blocks.length
    let v (n : Word) : Word := ((c 0x1000 {} none []).rd (wq 0xB14) &&& 0x1C) ||| n
    let busy := Arrives (c 0x1000 {} none [(wq 0xB14, 0x100)])
    let held := Arrives (c 0x1000 { pkts := [k] } (some 1) [])
    Open (c 0x1000 {} none []) 5 ∧ e.weirS.host = none ∧ ((Stored e (wq 0xB10) h all32).sf (wq 0xB18) 0 2 0).en 0xC = true ∧
    ((Stored (Arrives (c 0x1000 {} none [(pg 0xC + 4, 0)])) (wq 0xB10) h all32).sf (wq 0xB18) 0 2 0).en 0xC = false ∧ fld (0 : Word) 16 4 ≠ 2 ∧
    fld h 16 4 = 2 ∧ fld h 20 7 ≤ 95 ∧ 2 ≤ fld h 0 13 ∧ fld h 0 13 ≤ 4096 ∧
    pktBlocks (fld h 0 13) ≤ room ((Stored e (wq 0xB10) h all32).sf (wq 0xB18) 0 2 0) ∧
    room ((Stored (Arrives (c 0 {} none [])) (wq 0xB10) h all32).sf (wq 0xB18) 0 2 0) < pktBlocks (fld h 0 13) ∧
    held.weirS.host = some 1 ∧ (Stored e (wq 0xB14) (v 1) 0x1C).gb (wq 0xB14) 8 = false ∧ (Stored e (wq 0xB14) (v 2) 0x1C).gb (wq 0xB14) 8 = false ∧
    (Stored busy (wq 0xB14) (v 1) 0x1C).gb (wq 0xB14) 8 = true ∧ (Stored busy (wq 0xB14) (v 2) 0x1C).gb (wq 0xB14) 8 = true ∧
    (∀ n ∈ [1, 2], ∀ d ∈ [e, busy, held], Quiet d (wq 0xB14) (v (BitVec.ofNat 32 n))) ∧
    (Stored held (wq 0xB14) (v 1) 0x1C).gb (wq 0xB14) 8 = false ∧ (Stored held (wq 0xB14) (v 2) 0x1C).gb (wq 0xB14) 8 = false := by
  decide +kernel

theorem wit_ACheckedStreamMatches : ∀ k ∈ [0x100, 0x300],
    let j : Word := BitVec.ofNat 32 k
    let q : Profile := { width := 16, poly := 0x1021, init := 0xFFFF, xorout := 0, refin := false, refout := false }
    1 ≤ q.width ∧ q.width ≤ 64 ∧ q.poly < 2 ^ q.width ∧ q.init < 2 ^ q.width ∧ q.xorout < 2 ^ q.width ∧ bitOf j 8 = true ∧
    (bitOf j 9 = true ↔ k = 0x300) ∧ 7 ≠ (cuCompute q (j &&& ~~~(bit 8)) 0 q.init []).2.1 := by decide +kernel

theorem wit_CheckUnitsRunTheirJobs :
    let a := cuR 0 0
    let c (l : List (Nat × Word)) : Core := up ([(pg 9 + 4, 1), (cuR 0 4, 0), (cuP 0x58, 16)] ++ l)
    let e (l : List (Nat × Word)) := Arrives (c l)
    let d (l : List (Nat × Word)) (k : Word) : Core :=
      (Stored (e l) a k 0x30).sf a 4 2 (fld ((Stored (e l) a k 0x30).rd a &&& 0x30 ||| k) 4 2)
    let opened := [(a, (0x200 : Word))]
    Open (c []) 5 ∧ (e []).cuCmd 0 = false ∧ (∀ k ∈ [1, 4, 8], Quiet (e []) a (((c []).rd a &&& 0x30) ||| BitVec.ofNat 32 k)) ∧
    (d [] 1).cuOpen 0 = false ∧ (e []).en 9 = true ∧ (d opened 1).cuOpen 0 = true ∧ (d opened 4).gb a 8 = false ∧ (d [] 4).gb a 8 = false ∧
    (d opened 4).cuOpen 0 = true ∧ (d opened 8).cuOpen 0 = true ∧ (d [] 4).cuOpen 0 = false ∧ (d [] 8).cuOpen 0 = false ∧
    (d opened 8).gb a 10 = false ∧ (d [] 8).gb a 10 = false ∧ (d [(a, 0x400)] 8).gb a 10 = true ∧ Quiet (e [(a, 0x400)]) a 8 ∧
    (∀ k ∈ [1, 4, 8], Quiet (e opened) a (((c opened).rd a &&& 0x30) ||| BitVec.ofNat 32 k)) ∧ (e opened).cuCmd 0 = false ∧
    (e opened).cuOpen 0 = true ∧ (e opened).gb a 8 = false ∧ (e []).cuOpen 0 = false ∧ (c []).cuOpen 0 = false ∧ (c [(a, 0x300)]).en 9 = true ∧
    ((c [(a, 0x300)]).cuJob 0).cmd = none ∧
    (∀ t < 4,
      let w : Word := BitVec.ofNat 32 (2 + t * 16)
      let f := (Stored (e opened) a w 0x30).sf a 4 2 (fld ((Stored (e opened) a w 0x30).rd a &&& 0x30 ||| 2) 4 2)
      Quiet (e opened) a w ∧ f.cuOpen 0 = true ∧ f.gb a 8 = false ∧ fld ((Stored (e opened) a w 0x30).rd a &&& 0x30 ||| 2) 4 2 = t) ∧
    (e opened).gf (cuP 0xB00) 0 5 = 0 ∧ (c [(a, 0x300)]).cuOpen 0 = true ∧ ((c opened).cuJob 0).cmd = none ∧ (c [(a, 0x300)]).gb a 8 = true ∧
    (c []).gb (cuR 0 4) 8 = false ∧
    (let p : Core := { c opened with cuS := [(0, { cmd := some (7, 0, 64) })], rsvS := { badCells := [0x380000000 / 32] } }
     (p.cuJob 0).cmd = some (7, 0, 64) ∧ p.orPoison 0 64 = true ∧ p.cuOpen 0 = true ∧ p.en 9 = true) ∧
    (let q := (c []).profile (fld ((c []).rd (cuR 0 4)) 0 4)
     1 ≤ q.width ∧ q.width ≤ 64 ∧ fld ((c []).rd (cuR 0 4)) 4 2 ≠ 3 ∧ bitOf ((c []).rd (cuR 0 4)) 10 = false) ∧
    9 < fld ((c [(cuR 0 4, 10)]).rd (cuR 0 4)) 0 4 := by decide +kernel

theorem wit_TheLinkComesAndGoes :
    let on : Pins := { pwrgood := true, perst := true }
    let c (p : Pins) (l : List (Nat × Word)) : Core := { blk ((lev 0x204, 0x1FFF) :: l) with pins := p, levS := { started := true } }
    let due : Core := { c on [(hif 0x200, 1), (pg 4 + 4, 1), (hif 0xC3C, 0), (hif 0x48, 5)] with hifS := { due := [3] } }
    (c on []).pins.perst = true ∧ (c { on with perst := false } []).levS.started = true ∧ (c on []).islandUp 1 = true ∧
    (c { on with perst := false } []).pins.perst = false ∧ (c { on with perst := false } []).pins.pwrgood = true ∧ (c on [(hif 0x200, 1)]).gb (hif 0x200) 1 = false ∧
    ({ c on [(hif 0x200, 1)] with hifS := { doe := true } } : Core).hifS.doe = true ∧ (c on [(hif 0x200, 1)]).gb (hif 0x200) 0 = true ∧
    (c on []).maxSpeed = 5 ∧ (c on [(hif 0x40, 4)]).gb (hif 0x40) 2 = true ∧ (c on []).gb (hif 0x200) 0 = false ∧
    (c on [(hif 0x200, 1 + 2 + 5 * 4 + 8 * 32)]).rd (hif 0x200) = BitVec.ofNat 32 (1 + 2 + 5 * 4 + 8 * 32) ∧
    (c on [(hif 0x200, 3)]).gb (hif 0x200) 0 = true ∧ (c on [(hif 0x200, 3)]).gb (hif 0x200) 1 = true ∧
    (c on [(hif 0x200, 1)]).hifS.doe = false ∧ (c on [(hif 0x20C, 2)]).wState = 2 ∧
    due.msi.hifS.due.contains 3 = true ∧ due.en 4 = true ∧ due.gb (hif 0x200) 0 = true ∧ due.vecMasked 3 = false ∧ due.msi.gapOver 3 = true ∧
    due.gf (hif 0x48) 0 16 ≠ 0 ∧ due.msi.en 4 = true ∧ due.msi.gb (hif 0x200) 0 = true ∧ due.msi.vecMasked 3 = false ∧
    (c on [(hif 0xC3C, 1)]).vecMasked 3 = true ∧ Open (up []) 1 := by decide +kernel

theorem wit_TheCommandRingsMove :
    let c (l : List (Nat × Word)) : Core := up ([(pg 4 + 4, 1), (hif 0x20C, 2), (rsv 0x204, 0xF)] ++ l)
    let bs : List Byte := List.replicate 64 0
    let q : Cpl := { id := 1, tag := 0, status := 0, op := 0, slot := 0, dup := false, frame := 0, result := List.replicate 16 0 }
    let k : Cmd := { id := 1, tag := 5, slot := 0, op := 0, bytes := bs, dl := 0 }
    Open (c []) 1 ∧ Quiet (Arrives (c [])) (hif 0xB00) 4 ∧
    ((Stored (Arrives (c [])) (hif 0xB00) 4 0x7FF).gf (hif 0xB00) 0 11 + 2048 - (Stored (Arrives (c [])) (hif 0xB00) 4 0x7FF).gf (hif 0x214) 0 11)
      % 2048 = 4 ∧ (Arrives (c [])).wState ≠ 3 ∧ (Arrives (c [(hif 0x20C, 3)])).wState = 3 ∧
    ((Stored (Arrives (c [])) (hif 0xB00) 1025 0x7FF).gf (hif 0xB00) 0 11 + 2048 - (Stored (Arrives (c [])) (hif 0xB00) 1025 0x7FF).gf (hif 0x214) 0 11)
      % 2048 = 1025 ∧ Quiet (Arrives (c [])) (hif 0xB00) 1025 ∧
    (let d := Stored (Arrives (c [(hif 0x218, 3)])) (hif 0xB04) 3 0x7FF
     Quiet (Arrives (c [(hif 0x218, 3)])) (hif 0xB04) 3 ∧ (d.gf (hif 0xB04) 0 11 + 2048 - 0) % 2048 ≤ (d.gf (hif 0x218) 0 11 + 2048 - 0) % 2048) ∧
    (let d := Stored (Arrives (c [])) (hif 0xB04) 3 0x7FF
     (d.gf (hif 0x218) 0 11 + 2048 - 0) % 2048 < (d.gf (hif 0xB04) 0 11 + 2048 - 0) % 2048) ∧
    (c [(hif 0xB00, 1)]).en 4 = true ∧ (c [(hif 0xB00, 1)]).gb (hif 0x210) 11 = false ∧
    (c [(hif 0xB00, 1)]).gf (hif 0x214) 0 11 ≠ (c [(hif 0xB00, 1)]).gf (hif 0xB00) 0 11 ∧ (c []).cmds.length < 1024 ∧
    (c []).gb (hif 0x200) 0 = true ∧ bs.length = 64 ∧ (c []).wState = 2 ∧ unle ((bs.drop 0).take 1) ≤ 0xB ∧
    ({ c [] with cpls := [q] } : Core).cpls = [q] ∧ ({ c [] with cpls := [q] } : Core).cplUsed < 1024 ∧ (c []).hifS.chip = none ∧
    ({ c [] with cmds := [k] } : Core).cmdOf (5#16).toNat = some k ∧ k.dl = 0 ∧ Quiet (Arrives (c [])) (hif 0xB08) 1 ∧
    (Stored (Arrives (c [])) (hif 0xB08) 1 0).gb (hif 0xB08) 1 = false ∧ (Stored (Arrives (c [])) (hif 0xB08) 1 0).wState = 2 ∧
    (Stored (Arrives (c [(hif 0xB08, 2)])) (hif 0xB08) 1 0).gb (hif 0xB08) 1 = true ∧ (c []).orReady = true ∧
    ({ c [] with wrdS := { ledger := [none] } } : Core).wrdS.ledger ≠ [] ∧ (c []).wrdS.ledger = [] ∧ (c []).cpls = [] ∧ Quiet (Arrives (c [])) (hif 0xB04) 3 ∧
    ({ k with dl := 1 } : Cmd).dl ≠ 0 ∧ Quiet (Arrives (c [(hif 0x20C, 3)])) (hif 0xB00) 4 ∧ Quiet (Arrives (c [(hif 0xB08, 2)])) (hif 0xB08) 1 := by
  decide +kernel

/-- A running Warden with one command of 64 bytes outstanding under tag 5: its header's opcode and the bytes from 8 on. -/
def ring (op : Nat) (pars : List Byte) (l : List (Nat × Word)) : Core :=
  { up ([(hif 0x20C, 2), (rsv 0x204, 0xF)] ++ l) with
    cmds := [{ id := 1, tag := 5, slot := 0, op := op, dl := 9
               bytes := ([BitVec.ofNat 8 op, 0, 5, 0, 0, 0, 0, 0] ++ pars ++ List.replicate 56 0).take 64 }] }

/-- The command of `ring` may start, and its slot holds nothing but the parameters named. -/
def ringOk (c : Core) (used : List (Nat × Nat)) : Bool :=
  match c.cmdOf 5 with
  | some k => c.mayStart k && k.clean used
  | none => false

theorem wit_RingCommandsComplete :
    ringOk (ring 0 [] []) [] = true ∧ ringOk (ring 0 [1] []) [] = false ∧ ((ring 0 [1] []).cmdOf 5).isSome = true ∧
    ringOk (ring 1 [9] []) [(8, 2)] = true ∧
    (let c := { ring 1 [9] [] with cmds := (ring 1 [9] []).cmds ++ [{ id := 2, tag := 9, slot := 1, op := 0, bytes := [], dl := 9 }] }
     ringOk c [(8, 2)] = true ∧ (c.cmds.find? fun i : Cmd => i.tag = 9 && !i.dup && i.op != 1).map (·.fixed) = some false) ∧
    ((ring 1 [9] []).cmds.find? fun i : Cmd => i.tag = 9 && !i.dup && i.op != 1) = none ∧ ringOk (ring 2 [] []) [] = true ∧
    ringOk (ring 3 (List.replicate 41 0 ++ [0x1F]) []) [(8, 44)] = true ∧ ringOk (ring 3 [] []) [(8, 44)] = true ∧
    ((ring 3 [] []).cmdOf 5).map (·.at 48 4) = some 0 ∧ ((ring 3 (List.replicate 41 0 ++ [0x1F]) []).cmdOf 5).map (·.at 48 4) = some 7936 ∧ hostRange 0 7828 = true ∧
    ringOk (ring 4 (List.replicate 9 0 ++ [4]) []) [(8, 12)] = true ∧ hostRange 0 1024 = true ∧ (ring 4 [] []).wrdS.fw = none ∧
    (ring 4 [] []).wState = 2 ∧ ringOk (ring 5 (List.replicate 9 0 ++ [4]) []) [(8, 12)] = true ∧
    ringOk (ring 6 [2] []) [(8, 1), (16, 8)] = true ∧ (ring 6 [2] []).sealed = false ∧ (ring 6 [2] [(keyR 0x200, 1)]).sealed = true ∧
    ringOk (ring 6 [2] [(keyR 0x200, 1)]) [(8, 1), (16, 8)] = true ∧ ringOk (ring 7 [] []) [] = true ∧
    ringOk (ring 8 [3] []) [(8, 4)] = true ∧ (ring 8 [3] []).gb (slu 0xB04) 0 = false ∧
    ringOk (ring 9 [0x20, 0, 0x70, 0, 1, 0, 0, 0, 1] []) [(8, 1), (10, 2), (12, 4), (16, 4)] = true ∧
    (regRow 0x20 0x70).map (fun r => (1 : Word) &&& ~~~r.elig) = some 0 ∧ (regRow 0x20 0x4C).map (fun r => (1 : Word) &&& ~~~r.elig) = some 1 ∧
    ringOk (ring 0xA [3] [(pg 9 + 4, 1)]) [(8, 1), (12, 4), (16, 4), (24, 8), (32, 4)] = true ∧ (ring 0xA [3] [(pg 9 + 4, 1)]).cuOpen 3 = false ∧
    (ring 0xA [3] [(pg 9 + 4, 1)]).en 9 = true ∧ (ring 0xA [3] [(cuR 3 0, 0x200)]).cuOpen 3 = true ∧
    ringOk (ring 0xA [3] [(cuR 3 0, 0x200)]) [(8, 1), (12, 4), (16, 4), (24, 8), (32, 4)] = true ∧ hostRange 0 0 = true ∧ (ring 9 [] []).sealed = false ∧ ringOk (ring 0xB [] []) [] = true := by
  decide +kernel

theorem wit_FusesContainersAndCapsulesAreApplied :
    let q : FwJob := { cmd := 1, bytes := [], bad := true, update := true, fromFailed := false }
    let run (x : WrdSt) : Core := { blk [(hif 0x20C, 2)] with wrdS := x }
    let cap (own : Bool) : CapJob := { cmd := 1, bytes := List.replicate 64 0, own := own }
    (run { fw := some q }).wrdS.fw = some q ∧ q.verified = false ∧ q.update = true ∧ (run {}).wState = 2 ∧ (run {}).wrdS.testLoad = false ∧
    fieldAt q.bytes 7 1 = 0 ∧ (blk []).wState ≠ 1 ∧ (blk []).wState ≠ 2 ∧ bitOf (1 : Word) 0 = true ∧ fld (1 : Word) 1 3 = 0 ∧
    (run { cap := some (cap false) }).wrdS.cap = some (cap false) ∧ (cap false).own = false ∧ (run {}).gb (rsv 0x208) 0 = false ∧
    fieldAt (cap false).bytes 0x48 1 / 2 % 4 = 0 ∧ (cap true).own = true ∧ (run { hashDue := true }).wrdS.hashDue = true ∧
    (run { hashDue := true }).wDown = false ∧ (run {}).wrdS.cap = none ∧ (run {}).wrdS.hashDue = false ∧ (run { cap := some (cap true) }).wrdS.cap = some (cap true) ∧
    (let r : CapRec := { type := 1, first := 7, count := 2, bytes := [1, 0, 0, 0, 2] }
     r.type = 1 ∧ r.first + r.count ≤ 137216) ∧ (run { fw := none }).wrdS.fw = none := by decide +kernel

theorem wit_TheWardenChangesStates :
    let c (st : Nat) (l : List (Nat × Word)) (x : WrdSt) : Core := { blk ([(hif 0x20C, BitVec.ofNat 32 st), (wrd 0x40, 3)] ++ l) with wrdS := x }
    let q : FwJob := { cmd := 1, bytes := [], bad := false, update := true, fromFailed := false, verified := true }
    (c 2 [] {}).wState = 2 ∧ (c 2 [] {}).cmds = [] ∧ (c 2 [] {}).ringWaits = false ∧ (c 2 [] {}).wrdS.trapAt ≠ some (c 2 [] {}).tick ∧
    (c 2 [] {}).wrdS.ledger = [] ∧ (c 2 [] {}).gb (wrd 0x40) 0 = true ∧ (c 2 [(pg 4 + 4, 1), (hif 0xB00, 1)] {}).ringWaits = true ∧
    (c 2 [] { trapAt := some 0 }).wrdS.trapAt = some (c 2 [] {}).tick ∧ (c 2 [] { ledger := [none] }).wrdS.ledger ≠ [] ∧
    (c 2 [(wrd 0x40, 2)] {}).gb (wrd 0x40) 0 = false ∧ (c 3 [] {}).wState = 3 ∧ (c 4 [] {}).wState = 4 ∧ (c 4 [] {}).wDown = true ∧
    (c 4 [] {}).wState ≠ 2 ∧ (c 4 [] {}).wState ≠ 3 ∧ (c 4 [] {}).wState ≠ 5 ∧
    (c 2 [(lev 0x200, 0x20), (lev 0x228, 0)] {}).gb (lev 0x200) 5 = true ∧ (c 2 [(lev 0x200, 0x20)] {}).gb (lev 0x200) 6 = false ∧
    (c 2 [(lev 0x228, 0)] {}).rd (lev 0x228) = 0 ∧ (c 2 [(lev 0x228, 5)] {}).rd (lev 0x228) ≠ 0 ∧
    (let d := { c 3 [(lev 0xB0C, 1), (lev 0xB10, 9)] {} with tick := 9, levS := { wdtRun := 512 } }
     d.wState = 3 ∧ max 1 (d.gf (lev 0xB0C) 0 16) * 512 ≤ d.levS.wdtRun ∧ d.rd (lev 0xB10) ≠ 0 ∧ d.tick % 2 ^ 32 = (d.rd (lev 0xB10)).toNat) ∧
    (c 4 [] { hold := some 0 }).wrdS.hold = some 0 ∧ (c 4 [] {}).wrdS.hold ≠ some 0 ∧ (c 2 [] { fw := some q }).wrdS.fw = some q ∧
    q.verified = true ∧ (c 2 [] { fw := some q }).wState = 2 ∧ (c 5 [] {}).wrdS.fw = none ∧
    (c 5 [] { left := some 0 }).wState = 5 ∧ (c 5 [] { left := some 0 }).wrdS.left = some 0 ∧ (c 5 [] {}).wrdS.staging = false ∧
    (c 5 [] { left := some 1 }).wrdS.left ≠ some 0 ∧ (c 5 [] { staging := true, fw := some q }).wrdS.staging = true ∧
    (c 5 [] { staging := true, fw := some q }).wrdS.fw = some q ∧
    (blk []).sealed = false ∧ (blk []).gb (keyR 0x200) 7 = false ∧ (blk [(keyR 0x200, 1)]).sealed = true := by decide +kernel

theorem wit_SourcesFaultRecoverAndAreAcknowledged :
    let c (k : Nat) (x : SpwSrc) (l : List (Nat × Word)) : Core := (up l).setSrc k x
    let real := (spwBit 9 0x200, (0x200 : Word))
    let pend := (spwBit 9 0x220, (0x200 : Word))
    ((c 9 { railBad := true } []).src 9).railBad = true ∧ ((c 9 {} []).src 9).railRun < max 1 ((c 9 {} []).gf (spwOf 9 0x40) 0 4) ∧
    (let d := c 9 { railRun := 15 } []
     (d.src 9).railBad = false ∧ max 1 (d.gf (spwOf 9 0x40) 0 4) ≤ (d.src 9).railRun ∧ (d.src 9).railInj = false ∧ (∀ q ∈ d.spwS.srcs, 9 ≤ q.1) ∧
     d.sReal 255 = false) ∧
    (let d := c 9 { quiet := some 0, grace := some 0 } [real]
     d.inFault 9 = true ∧ (d.src 9).railBad = false ∧ (d.src 9).quiet = some 0 ∧ d.sPend 9 = false ∧ (d.src 9).grace = some 0 ∧
     bitOf (d.reactOf 9) 3 = false) ∧ ((c 9 {} []).src 9).quiet ≠ some 0 ∧ (c 9 {} []).inFault 9 = false ∧ (c 9 {} []).sPend 9 = false ∧
    ({} : Core).injOf 0 = none ∧ ({ spwS := { inj0 := some { src := 9, left := 1, dry := false, rail := false } } } : Core).injOf 0 =
      some { src := 9, left := 1, dry := false, rail := false } ∧ (c 9 {} [pend]).sPend 9 = true ∧ ((c 9 {} [pend]).src 9).grace ≠ some 0 ∧
    (c 9 {} []).wDown = true ∧ (up [(hif 0x20C, 2)]).wDown = false ∧ wardenSide 9 = false ∧ wardenSide 145 = true ∧
    (c 145 {} [(spwBit 145 0x200, 0x20000)]).inFault 145 = true ∧
    (∀ p < 2, Open (up []) 0 ∧ Quiet (Arrives (up [])) (spw p 0xB14) 0x109 ∧ (Stored (Arrives (up [])) (spw p 0xB14) 0x109 0xFF067F).gb (spw p 0xB14) 24 = false ∧
      (Stored (Arrives (up [(spw p 0xB14, 0x1000000)])) (spw p 0xB14) 0x109 0xFF067F).gb (spw p 0xB14) 24 = true) ∧
    ({ spwS := { inj0 := some { src := 9, left := 0, dry := false, rail := false } } } : Core).injOf 0 =
      some { src := 9, left := 0, dry := false, rail := false } := by decide +kernel

theorem wit_PowerUpAndChipResets :
    let on : Pins := { pwrgood := true, perst := true }
    let c (l : List (Nat × Word)) (x : LevSt) : Core := { blk l with pins := on, levS := x }
    let run (b : Word) : Core := blk [(hif 0x20C, 2), (dev 0xB00, b)]
    ({} : Core).pins.pwrgood = false ∧ (c [] {}).pins.pwrgood = true ∧ (c [] {}).gb (lev 0x234) 0 = false ∧ (c [] {}).levS.chipHold = false ∧
    (c [(dev 0x228, 0)] {}).rd (dev 0x228) = 0 ∧ (c [(dev 0x228, 2)] {}).rd (dev 0x228) ≠ 0 ∧ (c [] {}).pins.perst = true ∧
    ({ c [] {} with pins := { on with perst := false } } : Core).pins.perst = false ∧ (c [] {}).levS.started = false ∧
    (c [(lev 0x234, 1)] {}).gb (lev 0x234) 0 = true ∧ (blk []).wDown = true ∧ (run 0).wDown = false ∧ (run 0).gb (dev 0xB00) 8 = false ∧
    (run 0x100).wDown = false ∧ (run 0x100).gb (dev 0xB00) 8 = true ∧
    (c [] { chipReq := some 2 }).levS.chipReq = some 2 ∧ (c [] {}).levS.chipReq = none ∧ (c [] { chipHold := true }).levS.chipHold = true := by
  decide +kernel

theorem wit_BlocksAndIslandsReset :
    let c (x : LevSt) : Core := { blk [] with levS := x, d06 := true, frame := 4 }
    let run (l : List (Nat × Word)) : Core := blk ((hif 0x20C, 2) :: l)
    (blk []).wDown = true ∧ (run []).wDown = false ∧ (run []).gb (dev 0xB04) 8 = false ∧ (run [(dev 0xB04, 0x100)]).wDown = false ∧
    (run [(dev 0xB04, 0x100)]).gb (dev 0xB04) 8 = true ∧
    (∀ b < 6, (run []).gb (bk b 0xB00) 8 = false ∧ (run [(bk b 0xB00, 0x100)]).gb (bk b 0xB00) 8 = true) ∧
    (c { chipReq := some 2 }).levS.chipReq ≠ none ∧ (c {}).levS.chipReq = none ∧ ((c {}).levS.resets.find? fun q => q.1 = 7) = none ∧
    ((c { resets := [(7, 3)] }).levS.resets.find? fun q => q.1 = 7) = some (7, 3) ∧ (c {}).frame ≠ 3 ∧ (c {}).frame = 4 ∧ (c {}).d06 = true ∧
    (blk []).d06 = false ∧ pageKind 0x20 = some .pe ∧ (blk []).gb (pg 0x20 + 4) 8 = false ∧
    (blk [(pg 0x20 + 4, 0x100)]).gb (pg 0x20 + 4) 8 = true := by decide +kernel

theorem wit_PowerStatesIslandsAndBanks :
    let lowered (l : List (Nat × Word)) (x : LevSt) : Core :=
      { blk ([(pg 1 + 4, 1), (hif 0x200, 1), (lev 0x40, 1), (rsv 0x200, 0x100), (hif 0x20C, 3), (lev 0x200, 0)] ++ l) with levS := x }
    let low := lowered [] { l1Run := 1 <<< 20 }
    let c (l : List (Nat × Word)) (x : LevSt) : Core := { blk l with levS := x }
    low.levS.inL1 = false ∧ low.gb (hif 0x200) 0 = true ∧ low.ringWaits = false ∧ low.wrdS.trapAt ≠ some low.tick ∧
    (∀ b, b < 6 → low.bankCause b = false) ∧ max 1 (low.gf (lev 0x40) 16 16) * 16 ≤ low.levS.l1Run ∧ low.l1Block &&& 0xBF = 0 ∧
    (c [] { inL1 := true }).levS.inL1 = true ∧ (c [(hif 0x200, 0)] {}).gb (hif 0x200) 0 = false ∧
    (lowered [(pg 4 + 4, 1), (hif 0xB00, 1)] {}).ringWaits = true ∧ ({ low with wrdS := { trapAt := some 0 } } : Core).wrdS.trapAt = some low.tick ∧
    (c [] {}).levS.l1Run < max 1 ((c [] {}).gf (lev 0x40) 16 16) * 16 ∧ (c [(lev 0x40, 0)] {}).l1Block &&& 0xBF ≠ 0 ∧
    (let d (n : Nat) := c [(lev 0x204, 0x20), (pg 0xC + 4, 4), (pg 9 + 4, 4)] { offRun := [(5, n)] }
     (d (1 <<< 20)).mayOff 5 = true ∧ (d (1 <<< 20)).gf (lev (0xB80 + 4 * 5)) 8 8 * 16 ≤ 1 <<< 20 ∧
     (d 1).mayOff 5 = true ∧ Sparse.get (fun _ => 0) (d 1).levS.offRun 5 = 1 ∧ ((d 1).wr (lev (0xB80 + 4 * 5)) 0x100).mayOff 5 = true ∧
     1 < ((d 1).wr (lev (0xB80 + 4 * 5)) 0x100).gf (lev (0xB80 + 4 * 5)) 8 8 * 16) ∧
    (c [] {}).mayOff 5 = false ∧ (c [] {}).islandWanted 5 = false ∧ (c [(lev 0x204, 4), (pg 9 + 4, 1)] {}).islandWanted 5 = true ∧
    (c [] {}).blocked = [] ∧
    (c [] {}).bankCause 0 = false ∧ (c [(pg 0x20 + 4, 1), (pe 0 0x70, 0)] {}).bankCause 0 = true ∧
    (c [(pg 0x20 + 4, 1)] {}).gb (lev 0x200) 8 = false ∧ (c [(pg 0x20 + 4, 1)] {}).wrdS.ran = false ∧ (c [] {}).gb (lev 0x230) 0 = false ∧
    ({ c [] {} with wrdS := { ran := true } } : Core).wrdS.ran = true ∧ (c [(lev 0x200, 0x100)] {}).gb (lev 0x200) 8 = true ∧
    0 ∉ (c [] {}).levS.slept ∧ (c [] {}).gb (bk 0 0x200) 0 = false ∧ (c [(lev 0x200, 0x100)] {}).bankCause 0 = false ∧
    (c [(bk 0 0x200, 1)] {}).gb (bk 0 0x200) 0 = true ∧ (c [] {}).islandUp 7 = false ∧
    (c [(lev 0x204, 0x80)] {}).islandUp 7 = true ∧ (c [(bk 0 0x210, 1)] {}).gb (bk 0 0x210) 0 = true ∧ (c [(bk 0 0x210, 0)] {}).gb (bk 0 0x210) 0 = false ∧
    (let d := { c [(dev 0x228, 1)] {} with pins := { pwrgood := true } }
     d.pins.pwrgood = true ∧ d.gb (dev 0x228) 0 = true ∧ d.gb (dev 0x228) 1 = false) := by decide +kernel

theorem wit_BoundariesAndTicksAdvanceTheCounts :
    ({ d06 := true } : Core).d06 = true ∧ ({} : Core).d06 = false ∧ ({} : Core).pins.pwrgood = false ∧
    ({ pins := { pwrgood := true }, levS := { chipHold := true } } : Core).pins.pwrgood = true ∧
    (let c := { blk [(pg 0x20 + 4, 1), (pg 0x20 + 8, 2)] with levS := { periods := [(0x20, 2)] } }
     c.stale 0x20 = true ∧ c.en 0x20 = true ∧ c.periodRun 0x20 = true) ∧ (blk []).en 0x20 = false ∧ (blk []).periodRun 0x20 = false := by decide +kernel

theorem wit_TheHbmStaysCanonical : HbmWf State.reset ∧ (∃ t, step State.reset = .next t) ∧
    HbmWf { State.reset with hbm := [(3, 7)] } := 
  ⟨by unfold HbmWf; decide, ⟨_, rfl⟩, by unfold HbmWf; decide⟩

/-! ## Terms that cannot be sent: one for each check -/

/-- A received object of no bytes. -/
def objIn0 (i : TribIdx) (s : Fin 4) : ObjIn := { obj := { idx := i, sub := s }, bytes := [], starts := [] }
def frameIn0 (os : List ObjIn) : FrameIn :=
  { objs := os, zeroRun := [], lateWr := [], lateRd := [], orCells := 0, corrected := 0, scrubAt := 0, cdr := [], esFill := [], tref := [] }
def tickIn0 (rs : List (Source × BitVec 2)) (bs : List (Bank × Int)) : TickIn :=
  { raw := 0, rails := rs, dieTemp := 25, bankTemp := bs, bankBad := [] }

theorem test_unaligned_commands_are_ill_formed :
    (Instr.registerWrite 0x2004D 0 9).wf = false ∧ (Instr.registerWrite 0x2004C 0 9).wf = true ∧
    (Instr.unassignedSlotAccess 0x16002 true).wf = false ∧ (Instr.privilegedPageAccess 0x06001 false).wf = false ∧
    (Instr.evClearingRead 0x20401).wf = false ∧ (Instr.hldRead 0x20804 true).wf = false ∧ (Instr.hldRead 0x20804 false).wf = true ∧
    (Instr.latchingRead 0x0BC5A).wf = false := by decide

theorem test_wrong_sizes_are_ill_formed :
    (Instr.accessWidthError { bar2 := true, addr := 0, bytes := 0, write := false }).wf = false ∧ (Instr.accessWidthError { bar2 := false, addr := 0, bytes := 65, write := true }).wf = false ∧
    (Instr.accessWidthError { bar2 := false, addr := 8, bytes := 8, write := true }).wf = false ∧ (Instr.accessWidthError { bar2 := true, addr := 8, bytes := 8, write := true }).wf = true ∧
    (Instr.accessWidthError { bar2 := false, addr := 0x80030, bytes := 16, write := false }).wf = false ∧ (Instr.accessWidthError { bar2 := false, addr := 0x80034, bytes := 16, write := false }).wf = true ∧
    (Instr.apertureAccess 0 (.read 0)).wf = false ∧ (Instr.apertureAccess 0 (.write (List.replicate 17 0))).wf = false ∧
    (Instr.hdmWrite 0 [1]).wf = false ∧ (Instr.bar4Access { addr := 0, bytes := 2, data := some [1] }).wf = false ∧
    (Instr.bar4Access { addr := 0, bytes := 0, data := none }).wf = false ∧ (Instr.commandFetch (some [0])).wf = false ∧
    (Instr.rateAttemptSuccess 0 { ss := [], hits := [] }).wf = false ∧
    (Instr.rateAttemptSuccess 0 { ss := List.replicate 8 0, hits := List.replicate 3 (0, framePattern) }).wf = true := by decide

theorem test_parts_of_tributaries_are_ill_formed :
    let o : ObjRef := { idx := 9000, sub := 2 }
    o.wf = false ∧ ({ idx := 7, sub := 2 } : ObjRef).wf = true ∧ (Instr.h4MfAlign o).wf = false ∧ (Instr.h4MfOom o).wf = false ∧
    (Instr.tuLomDeclare o).wf = false ∧ (Instr.tuLomClear o).wf = false ∧ (Instr.ttiAccept (.path o) []).wf = false ∧
    (Instr.signalLabelAccept o).wf = false ∧ (Instr.defectDeclare (.obj o) .tuAis).wf = false ∧ (Instr.defectClear (.obj o) .tuAis).wf = false ∧
    (Instr.excWindowEnd (.obj o)).wf = false ∧ (Instr.remoteIndicationChange (.obj o) .lpRdi).wf = false ∧
    (Instr.pointerReceive o ⟨false, 0⟩).wf = false ∧ (Instr.pointerStateChange o).wf = false ∧ (Instr.pointerGenerate o 0).wf = false := by decide

theorem test_doubled_inputs_are_ill_formed :
    (Instr.frameBoundary (frameIn0 [objIn0 3 0, objIn0 3 0])).wf = false ∧ (Instr.frameBoundary (frameIn0 [objIn0 9000 1])).wf = false ∧
    (Instr.frameBoundary (frameIn0 [objIn0 3 0, objIn0 3 1])).wf = true ∧
    (Instr.frameBoundary (frameIn0 [{ objIn0 3 0 with starts := [0] }])).wf = false ∧
    (Instr.frameBoundary { frameIn0 [] with cdr := [(2, 5), (2, 6)] }).wf = false ∧
    (Instr.frameBoundary { frameIn0 [] with zeroRun := [(2, 5), (2, 6)] }).wf = false ∧
    (Instr.frameBoundary { frameIn0 [] with tref := [(2, []), (2, [6])] }).wf = false ∧ (Instr.heartbeatReceive [1]).wf = false ∧
    (Instr.heartbeatReceive (List.replicate 64 0)).wf = true ∧ (Instr.leveeTick (tickIn0 [(5, 1), (5, 2)] [])).wf = false ∧
    (Instr.leveeTick (tickIn0 [] [(0, 40), (0, 41)])).wf = false ∧ (Instr.leveeTick (tickIn0 [(5, 1)] [(0, 40)])).wf = true := by decide

/-! ## No word spells a command -/

theorem test_no_word_spells_a_command : decodeTableWord 32 0x20040 = none ∧ (State.reset.withFetchWord 32 7) = State.reset := by decide

/-! ## Single commands, against the spec's tables and examples -/

/-- The profile, and "123456789" (Table 12-1). -/
def check9 (w poly init xo : Nat) (refl : Bool) : Nat :=
  (cuCompute { width := w, poly := poly, init := init, xorout := xo, refin := refl, refout := refl } 0 0 init
    [0x31, 0x32, 0x33, 0x34, 0x35, 0x36, 0x37, 0x38, 0x39]).2.1

/-- Table 12-1, the rows of width 32. -/
theorem test_crc32_of_the_check_string : check9 32 0x04C11DB7 0xFFFFFFFF 0xFFFFFFFF true = 0xCBF43926 ∧
    check9 32 0x1EDC6F41 0xFFFFFFFF 0xFFFFFFFF true = 0xE3069283 ∧ check9 32 0x04C11DB7 0xFFFFFFFF 0xFFFFFFFF false = 0xFC891918 := by
  decide +kernel

/-- Table 12-1, the narrower rows and CRC-64. -/
theorem test_other_crcs_of_the_check_string : check9 16 0x1021 0xFFFF 0xFFFF true = 0x906E ∧ check9 16 0x1021 0xFFFF 0 false = 0x29B1 ∧
    check9 8 7 0 0 false = 0xF4 ∧ check9 7 9 0 0 false = 0x75 ∧
    check9 64 0x42F0E1EBA9EA3693 (2 ^ 64 - 1) (2 ^ 64 - 1) true = 0x995DC9BBDF1939FA := by decide +kernel

/-- PE40's ACC_ERR and its alias word (the example of section 2.8), GA_OUT of GA17 and the alias word of its VALID (18.1). -/
theorem test_addresses_of_the_examples : aliasReg 0x90012C = 0x48008 ∧ aliasBit 0x90012C = 11 ∧ gaR 17 0x20 = 0x0BC60 ∧
    aliasReg 0x178B00 = gaR 17 0x18 ∧ aliasBit 0x178B00 = 0 := by decide +kernel

/-- The charges of the example of section 8.4: 6,144 VC-4 slots at 1,024 frames, and 65,536 VC-12 slots. -/
theorem test_storage_charges_of_the_example :
    6144 * Ring.charge { key := 0, base := 0, cells := 74, depth := 1024, use := 1, readers := 1 } = 466022400 ∧
    65536 * Ring.charge { key := 0, base := 0, cells := 2, depth := 1024, use := 1, readers := 1 } = 134348800 := by decide +kernel

/-- The third write of the example of section 2.6: the complement matches, DONE is set and the sequence is over. -/
theorem test_the_third_write_applies_the_fallback :
    let c : Core := { up [(pe 17 0x3C, 2), (pe 17 0x30, 0x70), (hif 0x20C, 4)] with grd := some (0x31, 0), grdVal := 1 }
    ∃ d, exec (.grdCplWrite 0x31 0xFFFFFFFE) { core := c, hbm := [], pending := [] } = .next { core := d, hbm := [], pending := [] } ∧
      d.gf (pe 17 0x3C) 0 2 = 0 ∧ d.gb (pe 17 0x70) 0 = true :=
  ⟨_, rfl, by decide +kernel, by decide +kernel⟩

/-- S096 of the example of section 15.8 escalates at its grace timer's end. -/
theorem test_a_grace_timer_escalates :
    let c : Core := (up [(pg 2 + 4, 1), (spw 0 0x90, 0xB), (spw 0 0xF0, 2), (spwBit 96 0x200, 1), (spwBit 96 0x220, 1)]).setSrc 96 { grace := some 0 }
    ∃ d, exec (.graceExpire 96) { core := c, hbm := [], pending := [] } = .next { core := d, hbm := [], pending := [] } ∧
      d.sEsc 96 = true ∧ (d.src 96).grace = none ∧ d.sPend 96 = true :=
  ⟨_, rfl, by decide +kernel, by decide +kernel, by decide +kernel⟩

/-- A read of an unassigned slot is aborted (R35). -/
theorem test_an_unassigned_slot_aborts :
    ∃ d, exec (.unassignedSlotAccess 0x16000 false) { core := up [], hbm := [], pending := [] } = .next { core := d, hbm := [], pending := [] } ∧
      d.linkOut = [.abort] :=
  ⟨_, rfl, by decide +kernel⟩

/-- A write of a CF field of an enabled page's CFG area is dropped with cause 1 (R45). -/
theorem test_an_enabled_page_keeps_its_configuration :
    ∃ d, exec (.registerWrite 0x2004C 1 100) { core := up [(pg 0x20 + 4, 1)], hbm := [], pending := [] } =
        .next { core := d, hbm := [], pending := [] } ∧
      d.rd 0x2004C = regReset 0x2004C ∧ d.gf 0x2000C 12 4 = 1 ∧ d.linkOut = [.done] :=
  ⟨_, rfl, by decide +kernel, by decide +kernel, by decide +kernel⟩

/-- The same write of a disabled page takes effect. -/
theorem test_a_disabled_page_takes_its_configuration :
    ∃ d, exec (.registerWrite 0x2004C 1 100) { core := up [], hbm := [], pending := [] } = .next { core := d, hbm := [], pending := [] } ∧
      d.gb 0x2004C 0 = true :=
  ⟨_, rfl, by decide +kernel⟩

/-- The command in front is run and leaves; on an empty queue the block idles. -/
theorem test_commands_run_in_order :
    (∃ d, step { core := {}, hbm := [], pending := [.perstAssert, .pwrgoodRise] } =
      .next { core := d, hbm := [], pending := [.pwrgoodRise] }) ∧ step State.reset = .next State.reset :=
  ⟨⟨_, rfl⟩, rfl⟩

/-- From power-on reset PWRGOOD rises and the tick count is zero (R455, R462). -/
theorem test_pwrgood_starts_the_ticks :
    ∃ d, exec .pwrgoodRise State.reset = .next { core := d, hbm := [], pending := [] } ∧ d.pins.pwrgood = true ∧ d.tick = 0 :=
  ⟨_, rfl, by decide +kernel, by decide +kernel⟩

/-- Bytes written to the HBM read back, and zero bytes are not listed (R241). -/
theorem test_the_hbm_keeps_its_form :
    memRun [] [.write 0x380000000 [1, 0, 3]] = [(0x380000000, 1), (0x380000002, 3)] ∧
    memRun [(0x380000000, 1), (0x380000002, 3)] [.write 0x380000000 [0, 5]] = [(0x380000001, 5), (0x380000002, 3)] := by decide +kernel

/-- Two values of one TYPE that differ in one D bit and no I bit. -/
theorem wit_PointerWordsClassify :
    (3 : Nat) < 16 ∧ 100 ≤ ptrMax 3 ∧ 101 ≤ ptrMax 3 ∧ (101 : Nat) ≠ 100 ∧ ones 10 ((101 ^^^ 100) &&& 0x2AA) ≤ 2 ∧
      ones 10 ((101 ^^^ 100) &&& 0x155) ≤ 2 := by decide

end Sys2Proof.Tests
end

/-! The obligations of the scope (chapter 0): reset, commit requests, power and chip resets, boundaries and ticks. First the rules
that they share: what `Goes` and the like ask of a command's meaning, registers, folds, masks. -/

namespace Sys2Proof.Proofs

open Sys2Proof Sys2Proof.Machine Sys2Proof.Safety

/-! ## From a command's meaning to what it leaves -/

section Meanings

variable {i : Instr} {c c' : Core} {m : List Host.Cell}

/-- A command that acts on the block alone goes where its meaning leads. -/
theorem goes_of_on {f : Core → Core} (hi : ∀ s, exec i s = s.on f) (h : f c = c') : Goes i c c' := by
  intro m q
  rw [hi, State.on_next, h]

theorem reaches_of_on {f : Core → Core} {P : Core → Prop} (hi : ∀ s, exec i s = s.on f) (h : P (f c)) : Reaches i c P :=
  fun _ _ => ⟨f c, hi _, h⟩

/-- A command that acts on the HBM too: only the record of bad cells follows what is written (R240). -/
theorem goesMem_of_onMem {f : Core → List Host.Cell → Core × List MemOp} {d : Core} {ops : List MemOp}
    (hi : ∀ s, exec i s = s.onMem f) (h : f c m = (d, ops)) (hd : d.rewrote ops = c') : GoesMem i c m c' ops := by
  intro q
  rw [hi, State.onMem_next, h, hd]

theorem reachesMem_of_onMem {f : Core → List Host.Cell → Core × List MemOp} {P : Core → List Host.Cell → Prop}
    (hi : ∀ s, exec i s = s.onMem f) (h : P ((f c m).1.rewrote (f c m).2) (memRun m (f c m).2)) : ReachesMem i c m P :=
  fun _ => ⟨_, _, hi _, h⟩

theorem reachesMem_of_goesMem {ops : List MemOp} {P : Core → List Host.Cell → Prop} (h : GoesMem i c m c' ops)
    (hp : P c' (memRun m ops)) : ReachesMem i c m P := fun q => ⟨_, _, h q, hp⟩

end Meanings

/-! ## Registers -/

/-- Blocks with the same register map show the same registers. -/
theorem rd_congr {c d : Core} (h : c.regs = d.regs) (a : Nat) : c.rd a = d.rd a := by rw [Core.rd, h, Core.rd]

theorem rd_wr_ne {c : Core} {a b : Nat} (v : Word) (h : b ≠ a) : (c.wr a v).rd b = c.rd b := by rw [Core.rd_wr, if_neg h]
theorem rd_sf_ne {c : Core} {a b : Nat} (lo n v : Nat) (h : b ≠ a) : (c.sf a lo n v).rd b = c.rd b := by rw [Core.rd_sf, if_neg h]
theorem rd_sb_ne {c : Core} {a b : Nat} (k : Nat) (v : Bool) (h : b ≠ a) : (c.sb a k v).rd b = c.rd b := by rw [Core.rd_sb, if_neg h]
theorem rd_ev_ne {c : Core} {a b : Nat} (w : Word) (h : b ≠ a) : (c.ev a w).rd b = c.rd b := by rw [Core.rd_ev, if_neg h]

theorem rd_cn_ne {c : Core} {a b : Nat} (k : Nat) (h : b ≠ a) : (c.cn a k).rd b = c.rd b := by
  unfold Core.cn
  split
  · rfl
  · exact rd_wr_ne _ h

/-- A bit set or cleared, and every other bit of its register. -/
theorem gb_sb {c : Core} {a k j : Nat} {v : Bool} (hk : k < 32) :
    (c.sb a k v).gb a j = if j = k then v else c.gb a j := by
  by_cases h : j = k
  · subst h; rw [if_pos rfl, Core.gb_sb _ _ _ _ hk]
  · rw [if_neg h]
    cases v with
    | true => simp [Core.gb, Core.rd_sb, bitOf, getLsbD_bit, h]
    | false => simpa [Core.gb, Core.rd_sb, bitOf, getLsbD_bit, h] using fun hj => BitVec.lt_of_getLsbD hj

theorem gb_congr {c d : Core} {a : Nat} (h : c.rd a = d.rd a) (k : Nat) : c.gb a k = d.gb a k := by rw [Core.gb, h, Core.gb]

@[simp] theorem rewrote_frame (c : Core) (ops : List MemOp) : (c.rewrote ops).frame = c.frame := by
  unfold Core.rewrote; split <;> rfl
@[simp] theorem rewrote_tick (c : Core) (ops : List MemOp) : (c.rewrote ops).tick = c.tick := by
  unfold Core.rewrote; split <;> rfl

/-! ## Folds -/

/-- What every step of a fold keeps, the fold keeps. -/
theorem forL_induct {α β : Type} (P : α → Prop) {f : β → α → α} (hf : ∀ x a, P a → P (f x a)) (l : List β) {a : α} (h : P a) :
    P (forL l f a) := by
  induction l generalizing a with
  | nil => exact h
  | cons x l ih => exact ih (hf x a h)

theorem forN_induct {α : Type} (P : α → Prop) {f : Nat → α → α} {n : Nat} (hf : ∀ k a, k < n → P a → P (f k a)) {a : α} (h : P a) :
    P (forN n f a) := by
  induction n with
  | zero => exact h
  | succ n ih =>
    have e : forN (n + 1) f a = f n (forN n f a) := by simp [forN, List.range_succ]
    rw [e]
    exact hf n _ (Nat.lt_succ_self n) (ih fun k a hk => hf k a (Nat.lt_succ_of_lt hk))

/-! ## Masks -/

/-- The number with a one at each position below `n` at which `f` holds. -/
def onesWhere (n : Nat) (f : Nat → Bool) : Nat := (List.range n).foldl (fun a k => if f k then a + 2 ^ k else a) 0

theorem onesWhere_succ (n : Nat) (f : Nat → Bool) : onesWhere (n + 1) f = if f n then onesWhere n f + 2 ^ n else onesWhere n f := by
  simp [onesWhere, List.range_succ]

theorem onesWhere_lt (n : Nat) (f : Nat → Bool) : onesWhere n f < 2 ^ n := by
  induction n with
  | zero => simp [onesWhere]
  | succ n ih => rw [onesWhere_succ]; split <;> omega

theorem testBit_onesWhere (n k : Nat) (f : Nat → Bool) : (onesWhere n f).testBit k = (decide (k < n) && f k) := by
  induction n with
  | zero => simp [onesWhere]
  | succ n ih =>
    have hl := onesWhere_lt n f
    rw [onesWhere_succ, Nat.add_comm]
    rcases Nat.lt_trichotomy k n with hk | rfl | hk
    · have e : (if f n then 2 ^ n + onesWhere n f else onesWhere n f).testBit k = (onesWhere n f).testBit k := by
        split
        · exact Nat.testBit_two_pow_add_gt hk _
        · rfl
      rw [e, ih]
      simp [hk, Nat.lt_succ_of_lt hk]
    · cases hf : f k
      · simp [Nat.testBit_lt_two_pow hl]
      · simp [Nat.testBit_two_pow_add_eq, Nat.testBit_lt_two_pow hl]
    · have hp : 2 ^ (n + 1) ≤ 2 ^ k := Nat.pow_le_pow_right (by decide) hk
      rw [Nat.testBit_lt_two_pow (by split <;> omega)]
      simp [Nat.not_lt.mpr hk]

/-- A mask of positions, bit by bit. -/
theorem getLsbD_bitsWhere (n k : Nat) (f : Nat → Bool) : (bitsWhere n f).getLsbD k = (decide (k < 32) && (decide (k < n) && f k)) := by
  rw [← testBit_onesWhere]
  exact BitVec.getLsbD_ofNat ..

/-! ## Registers and bytes by their lists -/

/-- Unlisted keys read as the default. -/
theorem get_of_not_mem {α : Type} {d : Nat → α} {m : SMap α} {k : Nat} (h : k ∉ m.map (·.1)) : Sparse.get d m k = d k := by
  induction m with
  | nil => rfl
  | cons q m ih =>
    simp only [List.map_cons, List.mem_cons, not_or] at h
    simp [Sparse.get, h.1, ih h.2]

/-- Registers written from a list of addresses, each with the value that a function gives it. -/
theorem rd_forL_wr (f : Nat → Word) (l : List (Nat × Word)) (x : Core) (a : Nat) :
    (forL l (fun q x => x.wr q.1 (f q.1)) x).rd a = if a ∈ l.map (·.1) then f a else x.rd a := by
  induction l generalizing x with
  | nil => simp [forL]
  | cons q l ih =>
    refine (ih (x.wr q.1 (f q.1))).trans ?_
    rw [Core.rd_wr]
    by_cases h : a = q.1
    · simp [h]
    · simp [h]

/-- The whole HBM cleared reads zero. -/
theorem memRead_clearAll (m : List Host.Cell) {a n : Nat} (h : a < n) : memRead (memRun m [.clear 0 n]) a = 0 :=
  (Sparse.get_clear _ m 0 n a).trans (if_pos ⟨Nat.zero_le a, h⟩)

/-! ## Power-on reset -/

/-- Each page resets PG_CTRL to 4: EN = 0 (Table 2-5). -/
theorem regReset_pgCtrl (s : Nat) : regReset (pg s + 4) = if (pageKind s).isSome then 4 else 0 := by
  have h1 : (pg s + 4) / 0x1000 = s := by simp only [pg]; omega
  have h2 : (pg s + 4) % 0x1000 = 4 := by simp only [pg]; omega
  have h3 (k : PageKind) : findRow k 4 = some { off := 4, reset := 4, cf := 0x7, lv := 0x100, cmd := 0x2 } := rfl
  unfold regReset
  simp only [h1, h2]
  cases pageKind s with
  | none => rfl
  | some k => simp [h3]

/-- A register of a port resets as the PE page map says, whichever port it is (R74). -/
theorem regReset_pe {p o : Nat} {r : Row} (hp : p < 96) (ho : o < 0x1000) (h0 : o ≠ 0) (hr : findRow .pe o = some r) :
    regReset (pe p o) = r.reset + BitVec.ofNat 32 ((o - r.off) / r.stride) * r.step := by
  have h1 : pe p o / 0x1000 = 0x20 + p := by simp only [pe]; omega
  have h2 : pe p o % 0x1000 = o := by simp only [pe]; omega
  have h3 : pageKind (0x20 + p) = some .pe := (by decide : ∀ p < 96, pageKind (0x20 + p) = some .pe) p hp
  unfold regReset
  simp only [h1, h2, h3]
  simp [h0, hr]

theorem en_reset (s : Nat) : ({} : Core).en s = false := by
  have : ({} : Core).rd (pg s + 4) = regReset (pg s + 4) := rfl
  rw [Core.en, Core.gb, this, regReset_pgCtrl]
  split <;> rfl

/-- Settles O4: an unlisted register reads as the page maps say, and those of PG_CTRL and of the ports are read off their rows. -/
theorem resetLeavesTheStatedValues : Obligations.ResetLeavesTheStatedValues := by
  unfold Obligations.ResetLeavesTheStatedValues
  refine ⟨rfl, State.reset_hbm_wf, fun _ => rfl, fun _ => rfl, fun _ => rfl, fun p hp => ?_, fun s _ => en_reset s, rfl, ?_, ?_,
    rfl, rfl, rfl, rfl, rfl⟩
  · exact ⟨regReset_pe (r := rowCF 0x04C all32 0xB8B30C22) hp (by decide) (by decide) rfl,
      regReset_pe (r := rowCF 0x058 0x3FFF 0x438) hp (by decide) (by decide) rfl,
      regReset_pe (r := rowCF 0x05C 0x3FFFF 0x1800) hp (by decide) (by decide) rfl,
      regReset_pe (r := rowCF 0x060 0x1FFF 0) hp (by decide) (by decide) rfl⟩
  · decide
  · decide

/-! ## The frame boundary, the Levee tick and the end of STALE -/

theorem frameBoundary_stopped {c : Core} (m : List Host.Cell) (fi : FrameIn) (h : c.d06 = false) :
    c.frameBoundary m fi = (c, []) := by simp [Core.frameBoundary, h]

theorem frameBoundary_frame {c : Core} (m : List Host.Cell) (fi : FrameIn) (h : c.d06 = true) :
    (c.frameBoundary m fi).1.frame = c.frame + 1 := by simp [Core.frameBoundary, h]

theorem leveeTick_unpowered {c : Core} (ti : TickIn) (h : c.pins.pwrgood = false) : c.leveeTick ti = (c, []) := by
  simp [Core.leveeTick, h]

theorem leveeTick_held {c : Core} (ti : TickIn) (h : c.pins.pwrgood = true) (hh : c.levS.chipHold = true) :
    c.leveeTick ti = ({ c with tick := c.tick + 1 }, []) := by
  simp [Core.leveeTick, h, hh]

theorem leveeTick_tick {c : Core} (ti : TickIn) (h : c.pins.pwrgood = true) : (c.leveeTick ti).1.tick = c.tick + 1 := by
  cases hh : c.levS.chipHold
  · simp [Core.leveeTick, h, hh]
  · rw [leveeTick_held ti h hh]

theorem staleClear_due {c : Core} {s : Nat} (h : c.stale s = true) (he : c.en s = true) (hp : c.periodRun s = true) :
    c.staleClear s = { c with levS := { c.levS with periods := Sparse.drop s c.levS.periods } }.sb (pg s + 8) 1 false := by
  simp [Core.staleClear, h, he, hp]

theorem staleClear_early {c : Core} {s : Nat} (h : c.en s = false ∨ c.periodRun s = false) : c.staleClear s = c := by
  rcases h with h | h <;> simp [Core.staleClear, h]

/-- Settles O60, command by command: the meaning's equation in each case, and the HBM's canonical form by `memRun_wf`. -/
theorem boundariesAndTicksAdvanceTheCounts : Obligations.BoundariesAndTicksAdvanceTheCounts := by
  unfold Obligations.BoundariesAndTicksAdvanceTheCounts
  intro c m
  have hf (fi s) : exec (.frameBoundary fi) s = s.onMem (·.frameBoundary · fi) := rfl
  have ht (ti s) : exec (.leveeTick ti) s = s.onMem fun c _ => c.leveeTick ti := rfl
  have hs (p : PageSlot) (s) : exec (.staleClear p) s = s.on (·.staleClear p.val) := rfl
  refine ⟨fun fi h => ?_, fun fi h => ?_, fun ti h => ?_, fun ti h hh => ?_, fun ti h => ?_, fun p h he hp => ?_, fun p h => ?_⟩
  · exact reachesMem_of_onMem (hf fi) ⟨by rw [rewrote_frame, frameBoundary_frame m fi h], memRun_wf _ m⟩
  · exact goesMem_of_onMem (hf fi) (frameBoundary_stopped m fi h) (Core.rewrote_nil c)
  · exact goesMem_of_onMem (ht ti) (leveeTick_unpowered ti h) (Core.rewrote_nil c)
  · exact goesMem_of_onMem (ht ti) (leveeTick_held ti h hh) (Core.rewrote_nil _)
  · exact reachesMem_of_onMem (ht ti) ⟨by rw [rewrote_tick, leveeTick_tick ti h], memRun_wf _ m⟩
  · exact goes_of_on (hs p) (staleClear_due h he hp)
  · exact goes_of_on (hs p) (staleClear_early h)

/-! ## Commit requests: GO (section 8.5) -/

/-- The block that holds an accepted request and its target, and shows the maps it names (R258, R259). -/
def holdReq (c : Core) (v : Word) (tgt : Nat) (cmd capsule : Option Nat) : Core :=
  let d := ((c.wr (rsv 0xB10) (v &&& 0x7E)).wr (rsv 0xB14) (BitVec.ofNat 32 tgt)).wr (rsv 0xB18) (BitVec.ofNat 32 (tgt / 2 ^ 32))
  { d with rsvS := { d.rsvS with req := some { bits := v, tgt := tgt, cmd := cmd, capsule := capsule } } }.sf (rsv 0x208) 12 2 (fld v 1 2)

/-- The check of the maps can be made: the store is initialised, or the maps need none of it (R253, R502). -/
def StoreReady (d : Core) (v : Word) : Prop :=
  (d.gb (rsv 0x204) 3 = true ∧ d.gb (rsv 0x204) 4 = false) ∨ (d.checkMaps (fld v 1 2) (bitOf v 5)).storage = 0

/-- A held request ends with the first refusal that holds, in the order FAILED, HOLD, INIT, ENTRY, or its check starts (R502). -/
def answerReq (d : Core) (v : Word) : Core :=
  if d.wState = 4 then d.endReq 3 7
  else if d.gb (rsv 0xB1C) 0 then d.endReq 3 6
  else if !(d.gb (rsv 0x204) 3 && !d.gb (rsv 0x204) 4) && (d.checkMaps (fld v 1 2) (bitOf v 5)).storage ≠ 0 then d.endReq 3 9
  else if fld v 1 2 = 0 then d.endReq 3 1
  else ((d.sb (rsv 0x208) 0 true).sf (rsv 0x208) 1 2 1).sb (rsv 0x200) 5 true

section Go

variable {c d : Core} {v : Word} {tgt : Nat} {cmd capsule : Option Nat}

theorem wState_holdReq : (holdReq c v tgt cmd capsule).wState = c.wState := by
  have h : (holdReq c v tgt cmd capsule).rd (hif 0x20C) = c.rd (hif 0x20C) :=
    (rd_sf_ne _ _ _ (by decide)).trans
      ((rd_wr_ne _ (by decide)).trans ((rd_wr_ne _ (by decide)).trans (rd_wr_ne _ (by decide))))
  rw [Core.wState, Core.gf, h, Core.wState, Core.gf]

theorem wState_ne_failed_of_up (h : c.wDown = false) : c.wState ≠ 4 := by
  intro h4
  simp [Core.wDown, h4] at h

theorem mapGo_of_noWarden (h : c.wDown = true) (h4 : c.wState ≠ 4) : c.mapGo v tgt cmd capsule = c := by
  unfold Core.mapGo
  rw [if_pos (by simp [h, h4])]

theorem mapGo_of_busy (h : c.wDown = false ∨ c.wState = 4) (hb : c.gb (rsv 0x208) 0 = true) :
    c.mapGo v tgt cmd capsule = c.ign (rsv 0xB10) 8 := by
  unfold Core.mapGo
  rw [if_neg (by rcases h with h | h <;> simp [h]), if_pos hb]

theorem mapGo_of_idle (h : c.wDown = false ∨ c.wState = 4) (hb : c.gb (rsv 0x208) 0 = false) :
    c.mapGo v tgt cmd capsule = answerReq (holdReq c v tgt cmd capsule) v := by
  unfold Core.mapGo
  rw [if_neg (by rcases h with h | h <;> simp [h]), if_neg (by simp [hb])]
  rfl

theorem answerReq_failed (h : d.wState = 4) : answerReq d v = d.endReq 3 7 := if_pos h

theorem answerReq_hold (h : d.wState ≠ 4) (hh : d.gb (rsv 0xB1C) 0 = true) : answerReq d v = d.endReq 3 6 := by
  simp [answerReq, h, hh]

theorem storeNotReady_iff : (!(d.gb (rsv 0x204) 3 && !d.gb (rsv 0x204) 4) &&
    (d.checkMaps (fld v 1 2) (bitOf v 5)).storage ≠ 0) = true ↔ ¬StoreReady d v := by
  cases h : d.gb (rsv 0x204) 3 <;> simp [StoreReady, h]

theorem answerReq_notReady (h : d.wState ≠ 4) (hh : d.gb (rsv 0xB1C) 0 = false) (hr : ¬StoreReady d v) :
    answerReq d v = d.endReq 3 9 := by
  rw [answerReq, if_neg h, if_neg (by simp [hh]), if_pos (storeNotReady_iff.mpr hr)]

theorem answerReq_ready (h : d.wState ≠ 4) (hh : d.gb (rsv 0xB1C) 0 = false) (hr : StoreReady d v) :
    answerReq d v = if fld v 1 2 = 0 then d.endReq 3 1
      else ((d.sb (rsv 0x208) 0 true).sf (rsv 0x208) 1 2 1).sb (rsv 0x200) 5 true := by
  rw [answerReq, if_neg h, if_neg (by simp [hh]), if_neg (fun hn => storeNotReady_iff.mp hn hr)]

end Go

/-! ## The end of the check -/

/-- The block that shows both charges of a check, and ADMIT_ERR where it was of the XMAP (R212, R259). -/
def showCheck (c : Core) (maps : Nat) (k : Checked) : Core :=
  let d := (c.wr (rsv 0x21C) (BitVec.ofNat 32 k.storage)).wr (rsv 0x234) (BitVec.ofNat 32 k.width)
  if maps % 2 = 1 then d.admitErr (k.cause = 3 || k.cause = 4) else d

/-- The boundary that a request names: its target, or two frames on (R259). -/
def commitAt (d : Core) (q : Req) : Nat := if bitOf q.bits 3 then q.tgt else d.frame + 2

/-- The commit armed for a boundary, with the rings its check has placed; self-refresh ends where there are any (R259, R275). -/
def armCommit (d : Core) (q : Req) (rings : List Ring) : Core :=
  let b := commitAt d q
  let e := (d.wr (rsv 0x210) (BitVec.ofNat 32 b)).wr (rsv 0x214) (BitVec.ofNat 32 (b / 2 ^ 32))
  let f := if rings = [] then e else e.srExit
  { f with rsvS := { f.rsvS with plan := rings } }.sf (rsv 0x208) 1 2 2

/-- What a check of a request ends in, the block `d` showing its charges (R259, R502, R503). -/
def finishCheck (d : Core) (q : Req) (k : Checked) : Core :=
  if k.cause ≠ 0 then (d.wr (rsv 0x20C) (BitVec.ofNat 32 k.idx)).endReq 3 k.cause
  else if bitOf q.bits 6 then d.endReq 2 0
  else if !d.d06 || decide (commitAt d q < d.frame + 2) then d.endReq 5 8
  else armCommit d q k.rings

section CheckEnd

variable {c d : Core} {q : Req} {k : Checked}

theorem checkEnd_of_notChecking (h : c.rsvS.req = none ∨ c.gf (rsv 0x208) 1 2 ≠ 1) : c.checkEnd = c := by
  unfold Core.checkEnd
  split
  · rfl
  next q hq => rw [if_pos (h.resolve_left (by simp [hq]))]

theorem checkEnd_of_checking (hq : c.rsvS.req = some q) (hs : c.gf (rsv 0x208) 1 2 = 1) :
    c.checkEnd =
      let k := c.checkMaps (fld q.bits 1 2) (bitOf q.bits 5)
      finishCheck (showCheck c (fld q.bits 1 2) k) q k := by
  unfold Core.checkEnd
  rw [hq]
  dsimp only
  rw [if_neg (by simp [hs])]
  rfl

theorem finishCheck_refused (h : k.cause ≠ 0) :
    finishCheck d q k = (d.wr (rsv 0x20C) (BitVec.ofNat 32 k.idx)).endReq 3 k.cause := if_pos h

theorem finishCheck_checkOnly (h : k.cause = 0) (ho : bitOf q.bits 6 = true) : finishCheck d q k = d.endReq 2 0 := by
  simp [finishCheck, h, ho]

theorem finishCheck_armed (h : k.cause = 0) (ho : bitOf q.bits 6 = false) (hd : d.d06 = true) (hb : d.frame + 2 ≤ commitAt d q) :
    finishCheck d q k = armCommit d q k.rings := by
  simp [finishCheck, h, ho, hd, Nat.not_lt.mpr hb]

theorem finishCheck_missed (h : k.cause = 0) (ho : bitOf q.bits 6 = false)
    (hm : d.d06 = false ∨ (bitOf q.bits 3 = true ∧ q.tgt < d.frame + 2)) : finishCheck d q k = d.endReq 5 8 := by
  rcases hm with hd | ⟨h3, ht⟩
  · simp [finishCheck, h, ho, hd]
  · simp [finishCheck, commitAt, h, ho, h3, ht]

theorem admitErr_clock (c : Core) (r : Bool) : (c.admitErr r).d06 = c.d06 ∧ (c.admitErr r).frame = c.frame := by
  unfold Core.admitErr
  refine forL_induct (fun d : Core => d.d06 = c.d06 ∧ d.frame = c.frame) (fun g d hd => ?_) _ ⟨rfl, rfl⟩
  exact hd

theorem showCheck_clock (c : Core) (maps : Nat) (k : Checked) :
    (showCheck c maps k).d06 = c.d06 ∧ (showCheck c maps k).frame = c.frame := by
  unfold showCheck
  dsimp only
  split
  · exact admitErr_clock _ _
  · exact ⟨rfl, rfl⟩

end CheckEnd

/-! ## CANCEL -/

/-- A request that is CHECKING, or ARMED for a boundary that is neither past nor within 8 cycles, is withdrawn (R264). -/
def withdrawReq (d : Core) (left : Nat) : Core :=
  if d.gf (rsv 0x208) 1 2 = 0 then d
  else if d.gf (rsv 0x208) 1 2 = 2 ∧ (d.armedAt ≤ d.frame ∨ (d.armedAt = d.frame + 1 ∧ left < 8)) then d
  else d.endReq 4 10

section Cancel

variable {c : Core} {left : Nat}

theorem mapCancel_of_noWarden (h : c.wDown = true) : c.mapCancel left = c := if_pos h

theorem mapCancel_of_busy (h : c.wDown = false) (hb : c.gb (rsv 0x208) 3 = true) : c.mapCancel left = c.ign (rsv 0xB10) 8 := by
  simp [Core.mapCancel, h, hb]

theorem mapCancel_of_idle (h : c.wDown = false) (hb : c.gb (rsv 0x208) 3 = false) :
    c.mapCancel left = withdrawReq (c.sb (rsv 0x208) 3 true) left := by
  unfold Core.mapCancel withdrawReq
  rw [if_neg (by simp [h]), if_neg (by simp [hb])]
  dsimp only
  split
  next h0 => rw [if_pos h0]
  next h2 => simp only [h2, OfNat.ofNat_ne_zero, if_false, true_and]
  next h0 h2 => rw [if_neg h0, if_neg (fun hn => h2 hn.1)]

end Cancel

/-- Settles O36: GO by the first refusal that holds, the end of the check by its result, CANCEL by the state of the request. -/
theorem commitRequestsAreCheckedAndWithdrawn : Obligations.CommitRequestsAreCheckedAndWithdrawn := by
  unfold Obligations.CommitRequestsAreCheckedAndWithdrawn
  intro c
  have hgo (v tgt s) : exec (.mapCommitGo v tgt) s = s.on (·.mapGo v tgt.toNat none none) := rfl
  have hce (s) : exec .commitCheckEnd s = s.on (·.checkEnd) := rfl
  have hca (left s) : exec (.mapCommitCancel left) s = s.on (·.mapCancel left) := rfl
  refine ⟨fun v tgt h h4 => ?_, fun v tgt h hb => ?_, fun v tgt hb h4 => ?_, fun v tgt hb h => ?_, fun h => ?_, fun q hq hs => ?_,
    fun left h => ?_, fun left h hb => ?_, fun left h hb => ?_⟩
  · exact goes_of_on (hgo v tgt) (mapGo_of_noWarden h h4)
  · exact goes_of_on (hgo v tgt) (mapGo_of_busy h hb)
  · exact goes_of_on (hgo v tgt) ((mapGo_of_idle (.inr h4) hb).trans (answerReq_failed (wState_holdReq.trans h4)))
  · have hne : (holdReq c v tgt.toNat none none).wState ≠ 4 := wState_holdReq.symm ▸ wState_ne_failed_of_up h
    have go {d} (hd : answerReq (holdReq c v tgt.toNat none none) v = d) : Goes (.mapCommitGo v tgt) c d :=
      goes_of_on (hgo v tgt) ((mapGo_of_idle (.inl h) hb).trans hd)
    refine ⟨fun hh => go (answerReq_hold hne hh), fun hh hr => go (answerReq_notReady hne hh hr), fun hh hr h0 => ?_, fun hh hr h0 => ?_⟩
    · exact go ((answerReq_ready hne hh hr).trans (if_pos h0))
    · exact go ((answerReq_ready hne hh hr).trans (if_neg h0))
  · exact goes_of_on hce (checkEnd_of_notChecking h)
  · have go {d} (hd : finishCheck (showCheck c (fld q.bits 1 2) (c.checkMaps (fld q.bits 1 2) (bitOf q.bits 5))) q
        (c.checkMaps (fld q.bits 1 2) (bitOf q.bits 5)) = d) : Goes .commitCheckEnd c d :=
      goes_of_on hce ((checkEnd_of_checking hq hs).trans hd)
    exact ⟨fun hk => go (finishCheck_refused hk), fun hk ho => go (finishCheck_checkOnly hk ho),
      fun hk ho hd hb => go (finishCheck_armed hk ho hd hb), fun hk ho hm => go (finishCheck_missed hk ho hm), showCheck_clock _ _ _⟩
  · exact goes_of_on (hca left) (mapCancel_of_noWarden h)
  · exact goes_of_on (hca left) (mapCancel_of_busy h hb)
  · have go {d} (hd : withdrawReq (c.sb (rsv 0x208) 3 true) left = d) : Goes (.mapCommitCancel left) c d :=
      goes_of_on (hca left) ((mapCancel_of_idle h hb).trans hd)
    refine ⟨fun hg => go (if_pos hg), fun hg => go ?_, fun hg hf => go ?_, fun hg hn => go ?_⟩
    · simp [withdrawReq, hg]
    · rw [withdrawReq, if_neg (by simp [hg]), if_neg (by omega)]
    · rw [withdrawReq, if_neg (by simp [hg]), if_pos ⟨hg, hn⟩]

/-! ## Islands and the start-up -/

/-- A register that switching an island on leaves alone: none of the Levee's own records of it, and no page's PG_STAT. -/
def OffPowerPath (i a : Nat) : Prop :=
  a ∉ [lev 0x204, lev 0x508, lev 0x400, lev 0x200, lev (0x240 + 4 * i)] ∧ a % 0x1000 ≠ 8

/-- Showing PSTATE writes its field of LEV_STAT and its event. -/
theorem rd_showPstate {c : Core} {a : Nat} (h0 : a ≠ lev 0x200) (h4 : a ≠ lev 0x400) : c.showPstate.rd a = c.rd a := by
  unfold Core.showPstate
  split
  · rfl
  · rw [rd_ev_ne _ h4, rd_sf_ne _ _ _ h0]

/-- PSTATE is bits 1:0 of LEV_STAT. -/
theorem gb_showPstate {c : Core} {k : Nat} (h : 2 ≤ k) : c.showPstate.gb (lev 0x200) k = c.gb (lev 0x200) k := by
  unfold Core.showPstate
  split
  · rfl
  · rw [gb_congr (rd_ev_ne _ (by decide)), Core.gb, Core.rd_sf, if_pos rfl, bitOf_eq, setFld_other _ _ _ _ _ (.inr h)]
    rfl

theorem levS_showPstate {c : Core} : c.showPstate.levS = c.levS := by
  unfold Core.showPstate
  split <;> rfl

theorem rd_setStale {c : Core} {s a : Nat} (h : a % 0x1000 ≠ 8) : (c.setStale s).rd a = c.rd a :=
  rd_sb_ne _ _ (by simp only [pg]; omega)

/-- The pages of an island that comes on, made stale. -/
def staleIsland (c : Core) (i : Nat) : Core := forL (islandSlots i) (fun s c => if s = 0 then c else c.setStale s) c

theorem rd_staleIsland {c : Core} {i a : Nat} (h : a % 0x1000 ≠ 8) : (staleIsland c i).rd a = c.rd a := by
  refine forL_induct (fun d : Core => d.rd a = c.rd a) (fun s d hd => ?_) _ rfl
  split
  · exact hd
  · exact (rd_setStale h).trans hd

/-- What an island that comes on leaves of the Levee's state: the start-up and the chip reset. -/
theorem levS_staleIsland {c : Core} {i : Nat} :
    (staleIsland c i).levS.started = c.levS.started ∧ (staleIsland c i).levS.chipHold = c.levS.chipHold := by
  refine forL_induct (fun d : Core => d.levS.started = c.levS.started ∧ d.levS.chipHold = c.levS.chipHold) (fun s d hd => ?_) _ ⟨rfl, rfl⟩
  split
  · exact hd
  · exact hd

/-- An island switched on, up to its pages: LEV_ISLAND with its count and event, the time its wake took, and its waiting accesses. -/
def islandShown (c : Core) (i : Nat) : Core :=
  let d := ((c.sb (lev 0x204) i true).cn (lev 0x508) 1).ev (lev 0x400) (bit 3)
  let e := (d.wr (lev (0x240 + 4 * i)) (BitVec.ofNat 32 (Config.freeNat d.freeCtr % 65))).fresh
  { e with levS := { e.levS with waking := e.levS.waking.filter (· ≠ i), offRun := Sparse.drop i e.levS.offRun } }

theorem powerOn_of_up {c : Core} {i : Nat} (h : c.islandUp i = true) : c.powerOn i = c := if_pos h

theorem powerOn_of_down {c : Core} {i : Nat} (h : c.islandUp i = false) :
    c.powerOn i = (staleIsland (islandShown c i) i).showPstate := by
  unfold Core.powerOn
  rw [if_neg (by simp [h])]
  rfl

theorem levS_cn {c : Core} {a k : Nat} : (c.cn a k).levS = c.levS := by
  unfold Core.cn
  split <;> rfl

theorem rd_islandShown {c : Core} {i a : Nat} (h : a ∉ [lev 0x204, lev 0x508, lev 0x400, lev (0x240 + 4 * i)]) :
    (islandShown c i).rd a = c.rd a := by
  simp only [List.mem_cons, List.not_mem_nil, or_false, not_or] at h
  obtain ⟨h1, h2, h3, h4⟩ := h
  exact (rd_wr_ne _ h4).trans ((rd_ev_ne _ h3).trans ((rd_cn_ne _ h2).trans (rd_sb_ne _ _ h1)))

theorem islandUp_islandShown {c : Core} {i j : Nat} (hi : i < 32) : (islandShown c i).islandUp j = if j = i then true else c.islandUp j := by
  have h : (islandShown c i).rd (lev 0x204) = (c.sb (lev 0x204) i true).rd (lev 0x204) :=
    (rd_wr_ne _ (by simp only [lev]; omega)).trans ((rd_ev_ne _ (by decide)).trans (rd_cn_ne _ (by decide)))
  rw [Core.islandUp, gb_congr h, gb_sb hi, Core.islandUp]

theorem levS_islandShown {c : Core} {i : Nat} :
    (islandShown c i).levS.started = c.levS.started ∧ (islandShown c i).levS.chipHold = c.levS.chipHold := by
  have h : ((c.sb (lev 0x204) i true).cn (lev 0x508) 1).levS = c.levS := levS_cn
  exact ⟨(congrArg LevSt.started h :), (congrArg LevSt.chipHold h :)⟩

section PowerOn

variable {c : Core} {i : Nat}

theorem rd_powerOn {a : Nat} (h : OffPowerPath i a) : (c.powerOn i).rd a = c.rd a := by
  cases hu : c.islandUp i
  · obtain ⟨hl, h8⟩ := h
    simp only [List.mem_cons, List.not_mem_nil, or_false, not_or] at hl
    obtain ⟨h1, h2, h3, h4, h5⟩ := hl
    rw [powerOn_of_down hu, rd_showPstate h4 h3, rd_staleIsland h8, rd_islandShown (by simp [*])]
  · rw [powerOn_of_up hu]

/-- Of LEV_STAT an island that comes on changes PSTATE only. -/
theorem gb_powerOn_stat {k : Nat} (hk : 2 ≤ k) : (c.powerOn i).gb (lev 0x200) k = c.gb (lev 0x200) k := by
  cases hu : c.islandUp i
  · have h : (staleIsland (islandShown c i) i).rd (lev 0x200) = c.rd (lev 0x200) := by
      rw [rd_staleIsland (by decide), rd_islandShown (by simp [lev]; omega)]
    rw [powerOn_of_down hu, gb_showPstate hk, gb_congr h]
  · rw [powerOn_of_up hu]

theorem islandUp_powerOn {j : Nat} (hi : i < 32) : (c.powerOn i).islandUp j = if j = i then true else c.islandUp j := by
  cases hu : c.islandUp i
  · have h : (staleIsland (islandShown c i) i).showPstate.rd (lev 0x204) = (islandShown c i).rd (lev 0x204) := by
      rw [rd_showPstate (by decide) (by decide), rd_staleIsland (by decide)]
    rw [powerOn_of_down hu, Core.islandUp, gb_congr h]
    exact islandUp_islandShown hi
  · rw [powerOn_of_up hu]
    split
    next h => rw [h, hu]
    next => rfl

theorem levS_powerOn : (c.powerOn i).levS.started = c.levS.started ∧ (c.powerOn i).levS.chipHold = c.levS.chipHold := by
  cases hu : c.islandUp i
  · rw [powerOn_of_down hu, levS_showPstate, levS_staleIsland.1, levS_staleIsland.2]
    exact levS_islandShown
  · rw [powerOn_of_up hu]
    exact ⟨rfl, rfl⟩

end PowerOn

/-- The core PLL and the islands CTL, HIF and RSV, in the order of R462. -/
def islandsOn (c : Core) : Core :=
  ((((c.sb (lev 0x200) 3 true).sb (lev 0x200) 4 (c.gb (lev 0x40) 1)).powerOn 2).powerOn 1).powerOn 3

/-- The start-up is due: PERST_N is high, the fuses are sensed, it has not been made, and no chip reset holds the device (R462). -/
def startDue (c : Core) : Bool := c.pins.perst && c.gb (lev 0x234) 0 && !c.levS.started && !c.levS.chipHold

section StartUp

variable {c : Core}

theorem startUp_of_not (h : startDue c = false) : c.startUp = c :=
  if_neg (fun hd => by rw [startDue, hd] at h; cases h)

theorem startUp_of_ready (h : startDue c = true) :
    c.startUp = { islandsOn c with levS := { (islandsOn c).levS with started := true } } := if_pos h

theorem rd_islandsOn {a : Nat} (h : ∀ i ∈ [1, 2, 3], OffPowerPath i a) : (islandsOn c).rd a = c.rd a := by
  have h0 : a ≠ lev 0x200 := fun e => (h 1 (by simp)).1 (by simp [e])
  rw [islandsOn, rd_powerOn (h 3 (by simp)), rd_powerOn (h 1 (by simp)), rd_powerOn (h 2 (by simp)), rd_sb_ne _ _ h0, rd_sb_ne _ _ h0]

theorem islandUp_islandsOn : (islandsOn c).islandUp 1 = true ∧ (islandsOn c).islandUp 2 = true ∧ (islandsOn c).islandUp 3 = true := by
  simp [islandsOn, islandUp_powerOn]

theorem rd_startUp {a : Nat} (h : ∀ i ∈ [1, 2, 3], OffPowerPath i a) : c.startUp.rd a = c.rd a := by
  cases hr : startDue c
  · rw [startUp_of_not hr]
  · rw [startUp_of_ready hr]
    exact rd_islandsOn h

/-- FUSE_DONE stays as it is. -/
theorem fuseDone_startUp : c.startUp.gb (lev 0x200) 2 = c.gb (lev 0x200) 2 := by
  cases hr : startDue c
  · rw [startUp_of_not hr]
  · rw [startUp_of_ready hr]
    change (islandsOn c).gb (lev 0x200) 2 = _
    rw [islandsOn, gb_powerOn_stat (le_refl 2), gb_powerOn_stat (le_refl 2), gb_powerOn_stat (le_refl 2), gb_sb (by decide), gb_sb (by decide)]
    rfl

theorem chipHold_startUp : c.startUp.levS.chipHold = c.levS.chipHold := by
  cases hr : startDue c
  · rw [startUp_of_not hr]
  · rw [startUp_of_ready hr]
    change (islandsOn c).levS.chipHold = _
    rw [islandsOn, levS_powerOn.2, levS_powerOn.2, levS_powerOn.2]
    rfl

end StartUp

/-! ## The fuse sense -/

/-- KEY_MODE as the fuses stand: bit 0 is SEALED (Table 14-16). -/
def keyMode (c : Core) : Word :=
  bitsWhere 7 (fun k => match k with
    | 0 => c.fuses.valid | 1 => !c.fuses.valid && decide (c.fuses.owner ≠ 0) | 2 => c.fuses.rev0 | 3 => c.fuses.rev1
    | 4 => decide (Config.fwkHash 0 ≠ 0) | 5 => decide (Config.fwkHash 1 ≠ 0) | _ => c.fuses.valid) |||
    (if c.gb (keyR 0x200) 7 then bit 7 else 0)

/-- The KEY page's part of showing the fuses. -/
def showKeys (c : Core) : Core :=
  forN 8 (fun k d => d.wr (keyR (0x220 + 4 * k)) (c.fuses.owner.extractLsb' (32 * k) 32))
    (((c.wr (keyR 0x200) (keyMode c)).sb (keyR 0x204) 0 (decide (Config.idSeed ≠ 0))).wr (keyR 0x208) (BitVec.ofNat 32 c.fuses.rollback))

section ShowFuses

variable {c : Core}

/-- The fuses are shown on the KEY page, then in DEV_KEY with its event. -/
theorem showFuses_cases : ∃ w : Word,
    c.showFuses = (showKeys c).wr (dev 0x20C) w ∨ c.showFuses = ((showKeys c).wr (dev 0x20C) w).ev (dev 0x400) (bit 0) := by
  unfold Core.showFuses
  dsimp only
  split
  · exact ⟨_, .inl rfl⟩
  · exact ⟨_, .inr rfl⟩

theorem rd_showKeys {a : Nat} (h0 : a ≠ keyR 0x200) (h4 : a ≠ keyR 0x204) (h8 : a ≠ keyR 0x208) (h : ∀ k < 8, a ≠ keyR (0x220 + 4 * k)) :
    (showKeys c).rd a = c.rd a := by
  unfold showKeys
  refine forN_induct (fun d : Core => d.rd a = c.rd a) (fun k d hk hd => ?_) ?_
  · rw [rd_wr_ne _ (h k hk), hd]
  · rw [rd_wr_ne _ h8, rd_sb_ne _ _ h4, rd_wr_ne _ h0]

theorem keyMode_showKeys : (showKeys c).rd (keyR 0x200) = keyMode c := by
  unfold showKeys
  refine forN_induct (fun d : Core => d.rd (keyR 0x200) = keyMode c) (fun k d hk hd => ?_) ?_
  · rw [rd_wr_ne _ (by simp only [keyR]; omega), hd]
  · rw [rd_wr_ne _ (by decide), rd_sb_ne _ _ (by decide), Core.rd_wr, if_pos rfl]

theorem sealed_keyMode : bitOf (keyMode c) 0 = c.fuses.valid := by
  have h : (if c.gb (keyR 0x200) 7 then bit 7 else (0 : Word)).getLsbD 0 = false := by split <;> decide
  rw [bitOf_eq, keyMode, BitVec.getLsbD_or, getLsbD_bitsWhere, h]
  simp

/-- Showing the fuses writes registers of the KEY and DEV pages only. -/
theorem rd_showFuses {a : Nat} (h1 : 0x1000 ≤ a) (h6 : a < 0x6000) : c.showFuses.rd a = c.rd a := by
  have hk : (showKeys c).rd a = c.rd a := by
    apply rd_showKeys
    all_goals simp only [keyR]; omega
  obtain ⟨w, h | h⟩ := showFuses_cases (c := c)
  · rw [h, rd_wr_ne _ (by simp only [dev]; omega), hk]
  · rw [h, rd_ev_ne _ (by simp only [dev]; omega), rd_wr_ne _ (by simp only [dev]; omega), hk]

theorem sealed_showFuses : c.showFuses.sealed = c.fuses.valid := by
  have hk : c.showFuses.rd (keyR 0x200) = keyMode c := by
    obtain ⟨w, h | h⟩ := showFuses_cases (c := c)
    · rw [h, rd_wr_ne _ (by decide), keyMode_showKeys]
    · rw [h, rd_ev_ne _ (by decide), rd_wr_ne _ (by decide), keyMode_showKeys]
  rw [Core.sealed, Core.gb, hk, sealed_keyMode]

theorem regsOnly_showFuses : c.showFuses = { c with regs := c.showFuses.regs } := by
  have hk : showKeys c = { c with regs := (showKeys c).regs } := by
    unfold showKeys
    exact forN_induct (fun d : Core => d = { c with regs := d.regs }) (fun k d _ hd => by rw [hd]; rfl) rfl
  obtain ⟨w, h | h⟩ := showFuses_cases (c := c)
  · rw [h, hk]; rfl
  · rw [h, hk]; rfl

theorem levS_showFuses : c.showFuses.levS = c.levS := by rw [regsOnly_showFuses]
theorem pins_showFuses : c.showFuses.pins = c.pins := by rw [regsOnly_showFuses]

end ShowFuses

/-- SENSED and FUSE_DONE shown, and TEST_USED where TESTMODE was taken (R460, Table 17-9). -/
def senseShown (c : Core) (ok : Bool) : Core :=
  let d := ((c.sb (lev 0x234) 0 true).sb (lev 0x234) 1 (!ok)).sb (lev 0x200) 2 true
  if d.wrdS.testLoad then d.sb (keyR 0x200) 7 true else d

section Sense

variable {c : Core} {ok : Bool}

/-- The fuse sense shows its end, reports a failure, and shows the fuses. -/
theorem sensed_eq : c.sensed ok = (if ok then senseShown c ok else (senseShown c ok).report 145).showFuses := rfl

theorem regsOnly_senseShown : senseShown c ok = { c with regs := (senseShown c ok).regs } := by
  unfold senseShown
  dsimp only
  split <;> rfl

theorem rd_senseShown {a : Nat} (h : a ≠ keyR 0x200) :
    (senseShown c ok).rd a = (((c.sb (lev 0x234) 0 true).sb (lev 0x234) 1 (!ok)).sb (lev 0x200) 2 true).rd a := by
  unfold senseShown
  dsimp only
  split
  · exact rd_sb_ne _ _ h
  · rfl

theorem report_frame (c : Core) (k : Nat) : c.report k = { c with reports := (c.report k).reports } := by
  unfold Core.report
  split <;> rfl

/-- Outside the KEY and DEV pages the fuse sense writes its two bits and FUSE_DONE only. -/
theorem rd_sensed {a : Nat} (h1 : 0x1000 ≤ a) (h6 : a < 0x6000) :
    (c.sensed ok).rd a = (((c.sb (lev 0x234) 0 true).sb (lev 0x234) 1 (!ok)).sb (lev 0x200) 2 true).rd a := by
  rw [sensed_eq, rd_showFuses h1 h6]
  split
  · exact rd_senseShown (by simp only [keyR]; omega)
  · rw [report_frame]
    exact rd_senseShown (by simp only [keyR]; omega)

theorem done_sensed : (c.sensed ok).gb (lev 0x234) 0 = true := by
  rw [gb_congr (rd_sensed (by decide) (by decide)), gb_congr (rd_sb_ne _ _ (by decide)), gb_sb (by decide), if_neg (by decide),
    gb_sb (by decide), if_pos rfl]

theorem bad_sensed : (c.sensed ok).gb (lev 0x234) 1 = !ok := by
  rw [gb_congr (rd_sensed (by decide) (by decide)), gb_congr (rd_sb_ne _ _ (by decide)), gb_sb (by decide), if_pos rfl]

theorem fuseDone_sensed : (c.sensed ok).gb (lev 0x200) 2 = true := by
  rw [gb_congr (rd_sensed (by decide) (by decide)), gb_sb (by decide), if_pos rfl]

theorem sealed_sensed : (c.sensed ok).sealed = c.fuses.valid := by
  rw [sensed_eq, sealed_showFuses]
  split
  · rw [regsOnly_senseShown]
  · rw [report_frame, regsOnly_senseShown]

theorem levS_sensed : (c.sensed ok).levS = c.levS := by
  rw [sensed_eq, levS_showFuses]
  split
  · rw [regsOnly_senseShown]
  · rw [report_frame, regsOnly_senseShown]

theorem pins_sensed : (c.sensed ok).pins = c.pins := by
  rw [sensed_eq, pins_showFuses]
  split
  · rw [regsOnly_senseShown]
  · rw [report_frame, regsOnly_senseShown]

end Sense

/-! ## The state that follows the fuse sense -/

section Restart

variable {c : Core} {ok : Bool}

/-- What the fuse sense shows stays through the start-up. -/
theorem shown_restart : ((c.sensed ok).startUp.gb (lev 0x234) 0 = true ∧ (c.sensed ok).startUp.gb (lev 0x234) 1 = !ok) ∧
    (c.sensed ok).startUp.gb (lev 0x200) 2 = true ∧ (c.sensed ok).startUp.sealed = c.fuses.valid := by
  have hs : (c.sensed ok).startUp.rd (lev 0x234) = (c.sensed ok).rd (lev 0x234) := rd_startUp (by unfold OffPowerPath; decide)
  have hk : (c.sensed ok).startUp.rd (keyR 0x200) = (c.sensed ok).rd (keyR 0x200) := rd_startUp (by unfold OffPowerPath; decide)
  refine ⟨⟨?_, ?_⟩, ?_, ?_⟩
  · rw [gb_congr hs, done_sensed]
  · rw [gb_congr hs, bad_sensed]
  · rw [fuseDone_startUp, fuseDone_sensed]
  · rw [Core.sealed, gb_congr hk]
    exact sealed_sensed

theorem started_restart_of_perst (hp : c.pins.perst = true) (hs : c.levS.started = false) (hh : c.levS.chipHold = false) :
    (c.sensed ok).startUp.levS.started = true ∧ (c.sensed ok).startUp.islandUp 1 = true ∧
      (c.sensed ok).startUp.islandUp 2 = true ∧ (c.sensed ok).startUp.islandUp 3 = true := by
  rw [startUp_of_ready (by simp [startDue, pins_sensed, levS_sensed, done_sensed, hp, hs, hh])]
  exact ⟨rfl, islandUp_islandsOn⟩

theorem started_restart_of_noPerst (hp : c.pins.perst = false) : (c.sensed ok).startUp.levS.started = c.levS.started := by
  rw [startUp_of_not (by simp [startDue, pins_sensed, hp]), levS_sensed]

theorem fuseSense_of_not (h : c.pins.pwrgood = false ∨ c.gb (lev 0x234) 0 = true ∨ c.rd (dev 0x228) ≠ 0) : c.fuseSense ok = c := by
  rcases h with h | h | h
  · simp [Core.fuseSense, h]
  · simp [Core.fuseSense, h]
  · exact if_neg (by simpa using fun _ _ _ => h)

theorem fuseSense_of_ready (hp : c.pins.pwrgood = true) (hd : c.gb (lev 0x234) 0 = false) (hh : c.levS.chipHold = false)
    (hv : c.rd (dev 0x228) = 0) : c.fuseSense ok = (c.sensed ok).startUp := by
  simp [Core.fuseSense, hp, hd, hh, hv]

end Restart

/-! ## The chip reset -/

/-- The block of a chip reset but for its registers (R461, Table 16-2). -/
def chipBlock (c : Core) : Core :=
  { fuses := c.fuses, freeCtr := c.freeCtr, pins := c.pins, tick := c.tick, reports := c.reports
    wrdS := { testLoad := c.wrdS.testLoad }, levS := { chipHold := true, hot := c.levS.hot } }

/-- The block of a chip reset with the registers that it keeps (R443). -/
def chipRestored (c : Core) : Core :=
  forL (c.regs.filter fun q => chipKept.contains q.1) (fun q x => x.wr q.1 (c.rd q.1)) (chipBlock c)

/-- The block of a chip reset with its cause, its count, the supplies and PERST_N shown. -/
def chipShown (c : Core) (cause : Nat) : Core :=
  let x := ((chipRestored c).wr (lev 0x22C) (BitVec.ofNat 32 cause)).wr (lev 0x50C) (satAdd ((chipRestored c).rd (lev 0x50C)) 1)
  (x.wr (dev 0x224) (x.rd (dev 0x220))).sb (lev 0x200) 7 c.pins.perst

/-- The block that a chip reset leaves: a first fault on record shows on both Spillway pages. -/
def chipLow (c : Core) (cause : Nat) : Core :=
  if (chipShown c cause).gb (spw 0 0x240) 8 then ((chipShown c cause).sb (spw 0 0x24C) 0 true).sb (spw 1 0x24C) 0 true
  else chipShown c cause

/-- The registers that show a chip reset itself. -/
def chipMarks : List Nat := [lev 0x22C, lev 0x50C, dev 0x224, lev 0x200, spw 0 0x24C, spw 1 0x24C]

section ChipReset

variable {c : Core} {cause a : Nat}

theorem chipEnter_of_none (m : List Host.Cell) (h : c.levS.chipReq = none) : c.chipEnter m = (c, []) := by
  unfold Core.chipEnter
  rw [h]

theorem chipEnter_of_some (m : List Host.Cell) (h : c.levS.chipReq = some cause) :
    c.chipEnter m = (chipLow c cause, [.clear 0 0x400000000]) := by
  unfold Core.chipEnter
  rw [h]
  rfl

theorem rd_chipRestored : (chipRestored c).rd a = if a ∈ chipKept then c.rd a else regReset a := by
  rw [chipRestored, rd_forL_wr]
  by_cases hk : a ∈ chipKept
  · by_cases hr : a ∈ c.regs.map (·.1)
    · rw [if_pos, if_pos hk]
      obtain ⟨q, hq, rfl⟩ := List.mem_map.mp hr
      exact List.mem_map.mpr ⟨q, List.mem_filter.mpr ⟨hq, List.contains_iff_mem.mpr hk⟩, rfl⟩
    · rw [if_neg (fun h => hr (((List.filter_sublist).map _).subset h)), if_pos hk]
      exact (get_of_not_mem hr).symm
  · rw [if_neg, if_neg hk]
    · rfl
    · intro h
      obtain ⟨q, hq, rfl⟩ := List.mem_map.mp h
      exact hk (List.contains_iff_mem.mp (List.mem_filter.mp hq).2)

theorem rd_chipLow_shown (h0 : a ≠ spw 0 0x24C) (h1 : a ≠ spw 1 0x24C) : (chipLow c cause).rd a = (chipShown c cause).rd a := by
  unfold chipLow
  split
  · rw [rd_sb_ne _ _ h1, rd_sb_ne _ _ h0]
  · rfl

/-- A register other than those that show the reset itself is kept, or reads its reset value. -/
theorem rd_chipLow (h : a ∉ chipMarks) :
    (chipLow c cause).rd a = if a ∈ chipKept then c.rd a else regReset a := by
  simp only [chipMarks, List.mem_cons, List.not_mem_nil, or_false, not_or] at h
  obtain ⟨h1, h2, h3, h4, h5, h6⟩ := h
  rw [rd_chipLow_shown h5 h6, chipShown, rd_sb_ne _ _ h4, rd_wr_ne _ h3, rd_wr_ne _ h2, rd_wr_ne _ h1, rd_chipRestored]

theorem rd_chipLow_of_kept (hk : a ∈ chipKept) (h : a ∉ chipMarks) :
    (chipLow c cause).rd a = c.rd a := by rw [rd_chipLow h, if_pos hk]

theorem rd_chipLow_of_notKept (hk : a ∉ chipKept) (h3 : a ≠ dev 0x224) (h4 : a ≠ lev 0x200) : (chipLow c cause).rd a = regReset a := by
  have hne {b : Nat} (hb : b ∈ chipKept) : a ≠ b := fun e => hk (e ▸ hb)
  rw [rd_chipLow, if_neg hk]
  simp only [chipMarks, List.mem_cons, List.not_mem_nil, or_false, not_or]
  exact ⟨hne (by decide), hne (by decide), h3, h4, hne (by decide), hne (by decide)⟩

theorem cause_chipLow : (chipLow c cause).rd (lev 0x22C) = BitVec.ofNat 32 cause := by
  rw [rd_chipLow_shown (by decide) (by decide), chipShown, rd_sb_ne _ _ (by decide), rd_wr_ne _ (by decide), rd_wr_ne _ (by decide),
    Core.rd_wr, if_pos rfl]

theorem count_chipLow : (chipLow c cause).rd (lev 0x50C) = satAdd (c.rd (lev 0x50C)) 1 := by
  rw [rd_chipLow_shown (by decide) (by decide), chipShown, rd_sb_ne _ _ (by decide), rd_wr_ne _ (by decide), Core.rd_wr, if_pos rfl,
    rd_chipRestored, if_pos (by decide)]

theorem wState_chipLow : (chipLow c cause).wState = 0 := by
  rw [Core.wState, Core.gf, rd_chipLow_of_notKept (by decide) (by decide) (by decide)]
  decide

/-- Everything but the registers is the block's of a chip reset. -/
theorem chipLow_eq : chipLow c cause = { chipBlock c with regs := (chipLow c cause).regs } := by
  have hr : chipRestored c = { chipBlock c with regs := (chipRestored c).regs } := by
    unfold chipRestored
    exact forL_induct (fun d : Core => d = { chipBlock c with regs := d.regs }) (fun q d hd => by rw [hd]; rfl) _ rfl
  have hs : chipShown c cause = { chipBlock c with regs := (chipShown c cause).regs } := by
    unfold chipShown
    rw [hr]
    rfl
  unfold chipLow
  split
  · rw [hs]; rfl
  · exact hs

/-- The Spillway's records that Table 16-2 keeps (R443). -/
theorem spw_record_kept : ∀ i < 2, ∀ o ∈ [0x240, 0x244, 0x248, 0x250, 0x260, 0x264, 0x268, 0x26C, 0x270, 0x274],
    spw i o ∈ chipKept ∧ spw i o ∉ chipMarks := by decide

theorem spw_count_kept : ∀ i < 2, ∀ k < 64,
    spw i (0xC00 + 4 * k) ∈ chipKept ∧ spw i (0xC00 + 4 * k) ∉ chipMarks := by
  intro i hi k hk
  constructor
  · simp only [chipKept, List.mem_append, List.mem_flatMap, List.mem_map, List.mem_range]
    exact .inr ⟨i, hi, .inr ⟨k, hk, rfl⟩⟩
  · simp only [chipMarks, List.mem_cons, List.not_mem_nil, or_false, not_or, spw, lev, dev]
    omega

theorem chipLeave_of_free (h : c.levS.chipHold = false) : c.chipLeave = c := by
  simp [Core.chipLeave, h]

theorem chipLeave_of_held (h : c.levS.chipHold = true) :
    c.chipLeave = ({ c with levS := { c.levS with chipHold := false } }.sensed true).startUp := if_pos h

end ChipReset

/-! ## The Warden asks for a chip reset -/

section Ask

variable {c : Core}

theorem byWarden_of_down {f : Core → Core} (h : c.wDown = true) : c.byWarden f = c := if_pos h
theorem byWarden_of_up {f : Core → Core} (h : c.wDown = false) : c.byWarden f = f c := if_neg (by simp [h])

theorem devChip_of_busy (h : c.gb (dev 0xB00) 8 = true) : c.devChip = c.ign (dev 0xB00) 8 := if_pos h

theorem devChip_of_idle (h : c.gb (dev 0xB00) 8 = false) :
    c.devChip = { c.sb (dev 0xB00) 8 true with levS := { c.levS with chipReq := some (c.levS.chipReq.getD 2) } } := by
  unfold Core.devChip Core.askChip
  rw [if_neg (by simp [h]), Core.sb_levS]
  cases hq : c.levS.chipReq with
  | none => rfl
  | some x =>
    have e : c.levS = { c.levS with chipReq := some x } := by rw [← hq]
    exact congrArg (fun l => { c.sb (dev 0xB00) 8 true with levS := l }) e

end Ask

/-! ## Power, the fuse sense and the chip reset together -/

theorem goesMem_powerOnReset {c : Core} {m : List Host.Cell} : GoesMem .powerOnReset c m
    { fuses := c.fuses, freeCtr := c.freeCtr, pins := { c.pins with pwrgood := false, perst := false } } [.clear 0 0x400000000] :=
  goesMem_of_onMem (fun _ => rfl) rfl (Core.rewrote_eq _ _ rfl)

theorem pwrgoodRise_of_low {c : Core} (h : c.pins.pwrgood = false) : c.pwrgoodRise = { c with
    pins := { c.pins with pwrgood := true }, tick := 0
    wrdS := { c.wrdS with testLoad := c.pins.testmode && !c.fuses.valid } } := if_neg (by simp [h])

theorem goesMem_chipResetEntry {c : Core} {cause : Nat} (m : List Host.Cell) (h : c.levS.chipReq = some cause) :
    GoesMem .chipResetEntry c m (chipLow c cause) [.clear 0 0x400000000] := by
  refine goesMem_of_onMem (f := fun c m => c.chipEnter m) (fun _ => rfl) (chipEnter_of_some m h) (Core.rewrote_eq _ _ ?_)
  rw [chipLow_eq]
  rfl

/-- Settles O57: the start-up leaves what the fuse sense shows, and the chip reset keeps `chipKept` and nothing else. -/
theorem powerUpAndChipResets : Obligations.PowerUpAndChipResets := by
  unfold Obligations.PowerUpAndChipResets
  intro c m
  have hrise (s) : exec .pwrgoodRise s = s.on (·.pwrgoodRise) := rfl
  have hsense (ok s) : exec (.fuseSenseDone ok) s = s.on (·.fuseSense ok) := rfl
  have hask (s) : exec .devChiprst s = s.on (·.byWarden (·.devChip)) := rfl
  have henter (s) : exec .chipResetEntry s = s.onMem fun c m => c.chipEnter m := rfl
  have hleave (s) : exec .chipResetEnd s = s.on (·.chipLeave) := rfl
  refine ⟨goesMem_powerOnReset, fun h => ?_, fun h => ?_, fun ok h => ?_, fun ok hp hd hh hv => ?_, fun h => ?_, fun h hb => ?_,
    fun h hb => ?_, fun h => ?_, fun cause h => ?_, fun h => ?_, fun h => ?_⟩
  · exact goes_of_on hrise (pwrgoodRise_of_low h)
  · exact goes_of_on hrise (if_pos h)
  · exact goes_of_on (hsense ok) (fuseSense_of_not h)
  · refine reaches_of_on (hsense ok) ?_
    rw [fuseSense_of_ready hp hd hh hv]
    obtain ⟨⟨hdone, hbad⟩, hfuse, hseal⟩ := shown_restart (c := c) (ok := ok)
    exact ⟨hdone, hbad, hfuse, hseal, started_restart_of_noPerst, fun hp hs => started_restart_of_perst hp hs hh⟩
  · exact goes_of_on hask (byWarden_of_down h)
  · exact goes_of_on hask ((byWarden_of_up h).trans (devChip_of_busy hb))
  · exact goes_of_on hask ((byWarden_of_up h).trans (devChip_of_idle hb))
  · exact goesMem_of_onMem henter (chipEnter_of_none m h) (Core.rewrote_nil c)
  · refine reachesMem_of_goesMem (goesMem_chipResetEntry m h) ⟨rfl, fun a ha => memRead_clearAll m ha, ?_⟩
    have hrest : (chipLow c cause).fuses = c.fuses ∧ (chipLow c cause).pins = c.pins ∧ (chipLow c cause).tick = c.tick ∧
        (chipLow c cause).cmds = [] ∧ (chipLow c cause).objs = [] ∧ (chipLow c cause).tbl = [] ∧ (chipLow c cause).rsvS.rings = [] ∧
        (chipLow c cause).levS.chipHold = true ∧ (chipLow c cause).levS.chipReq = none := by
      rw [chipLow_eq]
      exact ⟨rfl, rfl, rfl, rfl, rfl, rfl, rfl, rfl, rfl⟩
    obtain ⟨hfuses, hpins, htick, hcmds, hobjs, htbl, hrings, hhold, hreq⟩ := hrest
    refine ⟨hfuses, hpins, htick, hcmds, hobjs, htbl, hrings, hhold, hreq, wState_chipLow, cause_chipLow, count_chipLow, ?_, ?_, ?_⟩
    · intro i hi o ho
      obtain ⟨hk, hn⟩ := spw_record_kept i hi o ho
      exact rd_chipLow_of_kept hk hn
    · intro i k hi hk
      obtain ⟨hk, hn⟩ := spw_count_kept i hi k hk
      exact rd_chipLow_of_kept hk hn
    · exact fun a hk h3 h4 => rd_chipLow_of_notKept hk h3 h4
  · exact goes_of_on hleave (chipLeave_of_free h)
  · refine reaches_of_on hleave ?_
    rw [chipLeave_of_held h]
    obtain ⟨⟨hdone, hbad⟩, hfuse, hseal⟩ := shown_restart (c := { c with levS := { c.levS with chipHold := false } }) (ok := true)
    exact ⟨chipHold_startUp.trans (congrArg LevSt.chipHold levS_sensed), hdone, hbad, hfuse, hseal,
      fun hp hs => started_restart_of_perst hp hs rfl⟩

end Sys2Proof.Proofs

/-! The obligations of the architecture (chapter 1): self-refresh, the selector's timers and commands, the mate, the Warden's states, power
states, islands and banks. -/

namespace Sys2Proof.Proofs

open Sys2Proof Sys2Proof.Machine Sys2Proof.Safety

/-! ## L1 and its end (R458) -/

section LeaveL1

variable {c : Core}

theorem leaveL1_of_notInL1 (h : c.levS.inL1 = false) : c.leaveL1 = c := if_neg (by simp [h])

theorem leaveL1_of_inL1 (h : c.levS.inL1 = true) :
    c.leaveL1 = ({ c with levS := { c.levS with inL1 := false, l1Run := 0 } }.sb (lev 0x200) 6 false).showPstate := if_pos h

theorem inL1_leaveL1 : c.leaveL1.levS.inL1 = false := by
  cases h : c.levS.inL1
  · rw [leaveL1_of_notInL1 h, h]
  · rw [leaveL1_of_inL1 h, levS_showPstate]
    rfl

/-- The end of L1 writes LEV_STAT and its event only. -/
theorem rd_leaveL1 {a : Nat} (h0 : a ≠ lev 0x200) (h4 : a ≠ lev 0x400) : c.leaveL1.rd a = c.rd a := by
  cases h : c.levS.inL1
  · rw [leaveL1_of_notInL1 h]
  · rw [leaveL1_of_inL1 h, rd_showPstate h0 h4, rd_sb_ne _ _ h0]
    rfl

end LeaveL1

/-! ## Self-refresh (R274, R275) -/

section SelfRefresh

variable {c : Core}

/-- Everything that the entry into self-refresh asks for (R274). -/
def RefreshDue (c : Core) : Prop :=
  c.gb (rsv 0x40) 9 = true ∧ c.rsvS.rings = [] ∧ c.rsvS.req = none ∧ c.gb (rsv 0x200) 8 = false ∧
    (c.gb (rsv 0x204) 3 = true ∨ c.gb (rsv 0x204) 4 = true) ∧ max 1 (c.gf (rsv 0x40) 0 8) ≤ c.rsvS.idle

theorem srEntry_of_due (h : RefreshDue c) : c.srEntry = ((c.sb (rsv 0x200) 8 true).sb (hif 0x204) 2 true).cn (rsv 0x530) 1 := by
  obtain ⟨hen, hrings, hreq, hsr, hinit, hidle⟩ := h
  exact if_pos (by simp only [hen, hrings, hreq, Core.selfRefresh, hsr, hidle]; simpa using hinit)

theorem srEntry_of_notDue (h : ¬RefreshDue c) : c.srEntry = c := by
  refine if_neg fun hif => h ?_
  simp only [Core.selfRefresh, Bool.and_eq_true, Bool.or_eq_true, decide_eq_true_eq, Bool.not_eq_true', Option.isNone_iff_eq_none] at hif
  obtain ⟨⟨⟨⟨⟨hen, hrings⟩, hsr⟩, hreq⟩, hinit⟩, hidle⟩ := hif
  exact ⟨hen, hrings, hreq, hsr, hinit, hidle⟩

end SelfRefresh

/-- Settles O38: the entry by `RefreshDue`, the exit by what it does to L1 and to the page. -/
theorem selfRefreshComesAndGoes : Obligations.SelfRefreshComesAndGoes := by
  unfold Obligations.SelfRefreshComesAndGoes
  intro c
  have hin (s) : exec .selfRefreshEntry s = s.on (·.srEntry) := rfl
  have hout (s) : exec .selfRefreshExit s = s.on (·.srExit) := rfl
  refine ⟨fun hen hrings hreq hsr hinit hidle => ?_, fun h => ?_, fun hsr => ?_, fun hsr => ?_, leaveL1_of_notInL1, fun _ => ⟨inL1_leaveL1, ?_⟩⟩
  · exact goes_of_on hin (srEntry_of_due ⟨hen, hrings, hreq, hsr, hinit, hidle⟩)
  · refine goes_of_on hin (srEntry_of_notDue ?_)
    rintro ⟨hen, hrings, hreq, hsr, -, hidle⟩
    rcases h with h | h | h | h | h
    · simp [hen] at h
    · exact h hrings
    · exact h hreq
    · simp [hsr] at h
    · omega
  · exact goes_of_on hout (if_pos hsr)
  · exact goes_of_on hout (if_neg (by simp [Core.selfRefresh, hsr]))
  · exact gb_congr (rd_leaveL1 (by decide) (by decide)) 8

/-! ## Selector timers (R289, R290) -/

section SelectorTimers

variable {c : Core} {n : Nat} {p sd : Bool} {x : Pair} {g : SelCfg} {i : Nat}

/-- The end of a hold-off acts on the selector of a pair in effect whose decision is not held. -/
theorem pairHoldEnd_of_valid (hv : c.pairValid c.mapsNow.p n = true) (hh : c.rsvS.held.contains n = false) :
    c.pairHoldEnd n p sd =
      c.setPair n ((c.pair n).holdEnd (c.pairCfg n) ((if p then 2 else 0) + (if sd then 1 else 0))) := by
  rw [Core.pairHoldEnd, hv, hh]
  rfl

theorem pairWtrEnd_of_valid (hv : c.pairValid c.mapsNow.p n = true) (hh : c.rsvS.held.contains n = false) :
    c.pairWtrEnd n = c.setPair n ((c.pair n).wtrDone (c.pairCfg n)) := by
  rw [Core.pairWtrEnd, hv, hh]
  rfl

theorem holdEnd_of_run (hc : x.cond.getD i false = true) (hr : x.holdOf g i < x.runs.getD i 0) :
    x.holdEnd g i = Pair.settle { x with
      raised := (List.range 4).map fun j => x.raised.getD j false || decide (j = i)
      cmd := if 4 ≤ x.cmd then 0 else x.cmd, wtr := none, dirty := x.dirty || decide (4 ≤ x.cmd) } g := by
  rw [Pair.holdEnd, if_pos (by simp only [hc, hr, decide_true, Bool.and_self])]
  simp only [decide_eq_true_eq]

theorem holdEnd_of_notRun (h : x.cond.getD i false = false ∨ x.runs.getD i 0 ≤ x.holdOf g i) : x.holdEnd g i = x := by
  refine if_neg fun hif => ?_
  rw [Bool.and_eq_true, decide_eq_true_eq] at hif
  rcases h with h | h
  · exact absurd hif.1 (by rw [h]; decide)
  · omega

theorem wtrDone_of_zero (h : x.wtr = some 0) : x.wtrDone g = Pair.settle { x with wtr := none, dirty := true } g := if_pos h
theorem wtrDone_of_notZero (h : x.wtr ≠ some 0) : x.wtrDone g = x := if_neg h

end SelectorTimers

/-! ## External commands (R291) -/

/-- SLU_XCMD written with GO: shown, with XCMD_BUSY, and held for its boundary. -/
def xcmdHeld (c : Core) (w : Word) (left : Nat) : Core :=
  let d := (c.wr (slu 0xB00) (w &&& 0xFFFDE)).sb (slu 0xB04) 0 true
  { d with sluS := { d.sluS with xcmd := some { w := w, skip := if left < 8 then 1 else 0, cmd := none } } }

section Xcmd

variable {c : Core} {w : Word} {left : Nat}

theorem xcmdGo_of_busy (h : c.gb (slu 0xB04) 0 = true) : c.xcmdGo w left none = c.ign (slu 0xB00) 8 := if_pos h
theorem xcmdGo_of_idle (h : c.gb (slu 0xB04) 0 = false) : c.xcmdGo w left none = xcmdHeld c w left := if_neg (by simp [h])

/-- The commands of SLU_XCMD by their code. -/
def xcmdOf (k : Nat) (t : BitVec 14) (m : Bool) (left : Nat) : Instr :=
  match k with
  | 0 => .xcmdClear t m left | 1 => .xcmdLo t m left | 2 => .xcmdFsP t m left
  | 3 => .xcmdFsW t m left | 4 => .xcmdMsP t m left | _ => .xcmdMsW t m left

variable {k : Nat} {t : BitVec 14} {m : Bool}

/-- Each of the six writes its own code. -/
theorem exec_xcmdOf (hk : k < 6) (s : State) :
    exec (xcmdOf k t m left) s = s.on (·.byWarden (·.xcmdGo (xcmdWord k t m) left none)) := by
  interval_cases k <;> rfl

theorem goes_xcmdOf_idle (hk : k < 6) (hw : c.wDown = false) (hb : c.gb (slu 0xB04) 0 = false) :
    Goes (xcmdOf k t m left) c (xcmdHeld c (xcmdWord k t m) left) :=
  goes_of_on (exec_xcmdOf hk) ((byWarden_of_up hw).trans (xcmdGo_of_idle hb))

theorem goes_xcmdOf_busy (hk : k < 6) (hw : c.wDown = false) (hb : c.gb (slu 0xB04) 0 = true) :
    Goes (xcmdOf k t m left) c (c.ign (slu 0xB00) 8) :=
  goes_of_on (exec_xcmdOf hk) ((byWarden_of_up hw).trans (xcmdGo_of_busy hb))

theorem goes_xcmdOf_noWarden (hk : k < 6) (hw : c.wDown = true) : Goes (xcmdOf k t m left) c c :=
  goes_of_on (exec_xcmdOf hk) (byWarden_of_down hw)

end Xcmd

/-- Settles O41: the timers by the selector's own lemmas, the six external commands by their common meaning. -/
theorem selectorTimersAndCommandsAct : Obligations.SelectorTimersAndCommandsAct := by
  unfold Obligations.SelectorTimersAndCommandsAct
  intro c
  refine ⟨fun n p sd hv hh => ?_, fun t m left => ⟨fun hw hb => ?_, fun i hi => ?_⟩⟩
  · have hhold (s) : exec (.sfHoldoffEnd n p sd) s = s.on (·.pairHoldEnd n.val p sd) := rfl
    have hwtr (s) : exec (.wtrEnd n) s = s.on (·.pairWtrEnd n.val) := rfl
    have hold {y} (h : (c.pair n.val).holdEnd (c.pairCfg n.val) ((if p then 2 else 0) + (if sd then 1 else 0)) = y) :
        Goes (.sfHoldoffEnd n p sd) c (c.setPair n.val y) :=
      goes_of_on hhold ((pairHoldEnd_of_valid hv hh).trans (congrArg _ h))
    have wtr {y} (h : (c.pair n.val).wtrDone (c.pairCfg n.val) = y) : Goes (.wtrEnd n) c (c.setPair n.val y) :=
      goes_of_on hwtr ((pairWtrEnd_of_valid hv hh).trans (congrArg _ h))
    exact ⟨fun hc hr => hold (holdEnd_of_run hc hr), fun h => hold (holdEnd_of_notRun h),
      fun h => wtr (wtrDone_of_zero h), fun h => wtr (wtrDone_of_notZero h)⟩
  · have word (k : Nat) : BitVec.ofNat 32 (1 + 2 * k + (if m then 16 else 0) + 64 * t.toNat) = xcmdWord k t m := by
      rw [xcmdWord, Nat.mul_comm 2, Nat.mul_comm 64]
    have go {k : Nat} (hk : k < 6) : Goes (xcmdOf k t m left) c (xcmdHeld c (xcmdWord k t m) left) := goes_xcmdOf_idle hk hw hb
    simp only [word]
    exact ⟨go (k := 0) (by decide), go (k := 1) (by decide), go (k := 2) (by decide), go (k := 3) (by decide),
      go (k := 4) (by decide), go (k := 5) (by decide)⟩
  · obtain ⟨k, hk, rfl⟩ : ∃ k < 6, i = xcmdOf k t m left := by
      simp only [List.mem_cons, List.not_mem_nil, or_false] at hi
      rcases hi with rfl | rfl | rfl | rfl | rfl | rfl
      · exact ⟨0, by decide, rfl⟩
      · exact ⟨1, by decide, rfl⟩
      · exact ⟨2, by decide, rfl⟩
      · exact ⟨3, by decide, rfl⟩
      · exact ⟨4, by decide, rfl⟩
      · exact ⟨5, by decide, rfl⟩
    exact ⟨goes_xcmdOf_busy hk, goes_xcmdOf_noWarden hk⟩

/-! ## Completions and the end of a request: what each of their updates keeps, they keep -/

section Completions

variable {P : Core → Prop} {c : Core}

theorem cn_induct {a k : Nat} (hw : ∀ v, P (c.wr a v)) (h : P c) : P (c.cn a k) := by
  unfold Core.cn
  split
  · exact h
  · exact hw _

/-- The registers that fixing a completion may write (R395). -/
def fixRegs : List Nat := [wrd 0x218, wrd 0x214, hif 0x504, hif 0x400, hif 0x22C, hif 0x508, hif 0x50C]

/-- Fixing a completion changes the command lists and writes `fixRegs`. -/
theorem fixCmd_induct {id st : Nat} {bs : List Byte} (hw : ∀ d, ∀ a ∈ fixRegs, ∀ v, P d → P (d.wr a v))
    (hq : ∀ d cmds cpls, P d → P { d with cmds := cmds, cpls := cpls }) (h : P c) : P (c.fixCmd id st bs) := by
  have wr {d} {a : Nat} (v : Word) (hd : P d) (ha : a ∈ fixRegs := by decide) : P (d.wr a v) := hw d a ha v hd
  have cn {d} {a : Nat} (hd : P d) (ha : a ∈ fixRegs := by decide) : P (d.cn a 1) := cn_induct (fun v => wr v hd ha) hd
  unfold Core.fixCmd
  split
  · exact h
  next k _ =>
    lift_lets
    extract_lets c1 c2 cur c3 c4 c5
    have h2 : P c2 := wr _ (hq _ _ _ h)
    have h3 : P c3 := iteInduction (fun _ => wr _ h2) fun _ => h2
    have h4 : P c4 := iteInduction (fun _ => wr _ (wr (d := c3.cn (hif 0x504) 1) _ (cn h3))) fun _ => h3
    have h5 : P c5 := iteInduction (fun _ => cn h4) fun _ => h4
    exact iteInduction (fun _ => cn h5) fun _ => h5

theorem fixOpt_induct {id : Option Nat} {st : Nat} {bs : List Byte} (hw : ∀ d, ∀ a ∈ fixRegs, ∀ v, P d → P (d.wr a v))
    (hq : ∀ d cmds cpls, P d → P { d with cmds := cmds, cpls := cpls }) (h : P c) : P (c.fixOpt id st bs) := by
  cases id with
  | none => exact h
  | some i => exact fixCmd_induct hw hq h

/-- The registers that the end of a request may write, but for RSV_STAT, in which it clears bit 5 (Table 8-12). -/
def endRegs : List Nat := [rsv 0x208, rsv 0x400, rsv 0x524, rsv 0x528] ++ fixRegs

/-- The end of a request changes the Reservoir's own records and the command lists, and writes `endRegs` and bit 5 of RSV_STAT. -/
theorem endReq_induct {result cause : Nat} (hw : ∀ d, ∀ a ∈ endRegs, ∀ v, P d → P (d.wr a v))
    (hs : ∀ d, P d → P (d.sb (rsv 0x200) 5 false)) (hr : ∀ d r, P d → P { d with rsvS := r })
    (hq : ∀ d cmds cpls, P d → P { d with cmds := cmds, cpls := cpls }) (h : P c) : P (c.endReq result cause) := by
  have wr {d} {a : Nat} (v : Word) (hd : P d) (ha : a ∈ endRegs := by decide) : P (d.wr a v) := hw d a ha v hd
  have cn {d} {a : Nat} (hd : P d) (ha : a ∈ endRegs := by decide) : P (d.cn a 1) := cn_induct (fun v => wr v hd ha) hd
  have hf : ∀ d, ∀ a ∈ fixRegs, ∀ v, P d → P (d.wr a v) := fun d a ha v => hw d a (List.mem_append_right _ ha) v
  unfold Core.endReq
  lift_lets
  extract_lets st c1 c2 c3
  have h1 : P c1 := wr _ (wr _ (wr _ h))
  have h2 : P c2 := by
    unfold c2
    split
    · exact cn (wr _ h1)
    · exact wr _ h1
    · exact cn (wr _ h1)
  have h3 : P c3 := iteInduction (fun _ => h2) fun _ => hs _ (wr _ h2)
  split
  · exact h3
  next q _ =>
    split
    · exact fixOpt_induct hf hq (hr _ _ h3)
    · exact fixOpt_induct hf hq (hr _ _ h3)

end Completions

/-! ## Bytes of messages -/

section Bytes

theorem length_le (n v : Nat) : (le n v).length = n := by simp [le]

theorem le_succ (n v : Nat) : le (n + 1) v = BitVec.ofNat 8 v :: le n (v / 256) := by
  have h (k : Nat) : v / 2 ^ (8 * (k + 1)) = v / 256 / 2 ^ (8 * k) := by
    rw [Nat.div_div_eq_div_mul, Nat.mul_add, Nat.add_comm, Nat.pow_add]
  simp only [le, List.range_succ_eq_map, List.map_cons, List.map_map, Nat.mul_zero, Nat.pow_zero, Nat.div_one]
  exact congrArg _ (List.map_congr_left fun k _ => congrArg (BitVec.ofNat 8) (h k))

/-- A number written in `n` bytes reads back modulo what they hold. -/
theorem unle_le (n v : Nat) : unle (le n v) = v % 2 ^ (8 * n) := by
  induction n generalizing v with
  | zero => simp [le, unle, Nat.mod_one]
  | succ n ih =>
    have hc (b : Byte) (bs : List Byte) : unle (b :: bs) = unle bs * 256 + b.toNat := rfl
    have hp : 2 ^ (8 * (n + 1)) = 256 * 2 ^ (8 * n) := by rw [Nat.mul_add, Nat.add_comm, Nat.pow_add]
    rw [le_succ, hc, ih, BitVec.toNat_ofNat, hp, Nat.mod_mul]
    omega

/-- A field of a message that stands between what comes before it and after it. -/
theorem take_drop_middle {α : Type} {pre mid post : List α} {a n : Nat} (ha : pre.length = a) (hn : mid.length = n) :
    ((pre ++ (mid ++ post)).drop a).take n = mid := by
  rw [← ha, ← hn, List.drop_left, List.take_left]

theorem crcStep_lt {w poly r : Nat} {b : Bool} (hp : poly < 2 ^ w) : crcStep w poly r b < 2 ^ w := by
  have hr : r * 2 % 2 ^ w < 2 ^ w := Nat.mod_lt _ (Nat.two_pow_pos w)
  unfold crcStep
  dsimp only
  split
  · exact Nat.xor_lt_two_pow hr hp
  · exact hr

theorem crcRun_lt {w poly r : Nat} {refl : Bool} {bs : List Byte} (hp : poly < 2 ^ w) (hr : r < 2 ^ w) :
    crcRun w poly r refl bs < 2 ^ w := by
  unfold crcRun
  refine List.foldlRecOn (motive := (· < 2 ^ w)) bs _ hr fun r hr b _ => ?_
  exact List.foldlRecOn (motive := (· < 2 ^ w)) (List.range 8) _ hr fun r _ k _ => crcStep_lt hp

/-- A CRC-32 fits in its four bytes. -/
theorem sigOf_lt (bs : List Byte) : sigOf bs < 2 ^ 32 :=
  Nat.xor_lt_two_pow (crcRun_lt (by decide) (by decide)) (by decide)

end Bytes

/-! ## Heartbeats (R307, Table 9-9) -/

/-- The flags of a heartbeat and the zero byte after them. -/
def hbHead (c : Core) : List Byte :=
  le 1 ((if c.unit then 1 else 0) + (if c.sluS.yieldAt.isSome then 2 else 0) + (if c.mateReady then 4 else 0) +
    (if c.wState = 4 then 8 else 0) + (if c.sealed then 16 else 0) + (if c.gb (slu 0x44) 2 then 32 else 0)) ++ le 1 0
/-- What follows the frame number: the yield's boundary, both map hashes and zeros. -/
def hbTail (c : Core) : List Byte :=
  le 4 (c.sluS.yieldAt.getD 0) ++ (le 16 c.sluS.xHash.toNat ++ (le 16 c.sluS.pHash.toNat ++ List.replicate 12 0))
/-- A heartbeat but for its CRC. -/
def hbBody (c : Core) : List Byte := le 1 1 ++ (le 1 c.role ++ (hbHead c ++ (le 8 c.frame ++ hbTail c)))

section Heartbeat

variable {c : Core} {msg : List Byte}

theorem heartbeatMsg_eq : c.heartbeatMsg = hbBody c ++ le 4 (sigOf (hbBody c)) := by
  simp only [Core.heartbeatMsg, hbBody, hbHead, hbTail, List.append_assoc]

theorem length_hbBody : (hbBody c).length = 60 := by
  simp [hbBody, hbHead, hbTail, length_le]

/-- What a device sends is good: the CRC of its body stands behind it. -/
theorem hbGood_heartbeatMsg : hbGood c.heartbeatMsg = true := by
  have ht : c.heartbeatMsg.take 60 = hbBody c := by rw [heartbeatMsg_eq, ← length_hbBody (c := c), List.take_left]
  have hd : (c.heartbeatMsg.drop 60).take 4 = le 4 (sigOf (hbBody c)) := by
    rw [heartbeatMsg_eq, ← length_hbBody (c := c), List.drop_left, List.take_of_length_le (length_le 4 _).le]
  rw [hbGood, decide_eq_true_eq, ht, hd, unle_le, Nat.mod_eq_of_lt (sigOf_lt _)]

/-- The role and the frame number that a heartbeat carries are the sender's. -/
theorem hbOf_heartbeatMsg :
    (hbOf c.heartbeatMsg).role.val = c.role ∧ (hbOf c.heartbeatMsg).frame = BitVec.ofNat 64 c.frame := by
  have hrole : (c.heartbeatMsg.drop 1).take 1 = le 1 c.role := by
    have e : c.heartbeatMsg = le 1 1 ++ (le 1 c.role ++ (hbHead c ++ (le 8 c.frame ++ hbTail c) ++ le 4 (sigOf (hbBody c)))) := by
      simp only [heartbeatMsg_eq, hbBody, List.append_assoc]
    rw [e, take_drop_middle (length_le 1 1) (length_le 1 _)]
  have hframe : (c.heartbeatMsg.drop 4).take 8 = le 8 c.frame := by
    have e : c.heartbeatMsg = (le 1 1 ++ le 1 c.role ++ hbHead c) ++ (le 8 c.frame ++ (hbTail c ++ le 4 (sigOf (hbBody c)))) := by
      simp only [heartbeatMsg_eq, hbBody, List.append_assoc]
    rw [e, take_drop_middle (by simp [hbHead, length_le]) (length_le 8 _)]
  have hlt : c.role < 8 := Nat.mod_lt _ (by decide)
  constructor
  · change unle ((c.heartbeatMsg.drop 1).take 1) % 8 = c.role
    rw [hrole, unle_le]
    omega
  · change BitVec.ofNat 64 (unle ((c.heartbeatMsg.drop 4).take 8)) = _
    rw [hframe, unle_le]
    exact BitVec.eq_of_toNat_eq (by simp)

theorem heartbeatReceive_of_noLane (h : c.gf (slu 0x44) 4 2 = 0) : c.heartbeatReceive msg = c := if_pos h

theorem heartbeatReceive_of_bad (h : c.gf (slu 0x44) 4 2 ≠ 0) (hb : hbGood msg = false) :
    c.heartbeatReceive msg = c.cn (slu 0x50C) 1 := by
  simp only [Core.heartbeatReceive, h, hb, if_false, Bool.not_false, if_true]

theorem heartbeatReceive_of_good (h : c.gf (slu 0x44) 4 2 ≠ 0) (hb : hbGood msg = true) :
    c.heartbeatReceive msg = { c with sluS := { c.sluS with hb := some (hbOf msg), lastHb := some (hbOf msg) } } := by
  simp [Core.heartbeatReceive, h, hb]

end Heartbeat

/-! ## Roles (Table 9-8) -/

section Roles

variable {c : Core} {r a : Nat}

theorem gf_congr {c d : Core} {a : Nat} (h : c.rd a = d.rd a) (lo n : Nat) : c.gf a lo n = d.gf a lo n := by
  rw [Core.gf, h, Core.gf]

/-- A new role written to SLU_STATE with its event. -/
def roleShown (c : Core) (r : Nat) : Core := (c.sf (slu 0x200) 0 3 r).ev (slu 0x400) (bit 3)

theorem rd_roleShown (h0 : a ≠ slu 0x200) (h4 : a ≠ slu 0x400) : (roleShown c r).rd a = c.rd a :=
  (rd_ev_ne _ h4).trans (rd_sf_ne _ _ _ h0)

theorem setRole_of_ne (h : c.role ≠ r) (h0 : 0 < r) : c.setRole r = { roleShown c r with sluS := { c.sluS with
    arb := 0, dual := 0, mateIdle := (r = 1 || r = 2) && !c.gb (slu 0x44) 2
    took := if r = 2 then false else c.sluS.took } } := by
  have hg : (roleShown c r).gb (slu 0x44) 2 = c.gb (slu 0x44) 2 := gb_congr (rd_roleShown (by decide) (by decide)) 2
  rw [← hg]
  simp only [Core.setRole, h, if_false, Nat.pos_iff_ne_zero.mp h0]
  rfl

theorem role_roleShown (hr : r < 8) : (roleShown c r).role = r := by
  rw [Core.role, roleShown, gf_congr (rd_ev_ne _ (by decide)), Core.gf_sf _ _ _ _ _ (by decide)]
  exact Nat.mod_eq_of_lt hr

theorem regsOnly_roleShown : RegsOnly [slu 0x200, slu 0x400] c (roleShown c r) := by
  refine ⟨rfl, fun a ha => ?_⟩
  simp only [List.mem_cons, List.not_mem_nil, or_false, not_or] at ha
  exact rd_roleShown ha.1 ha.2

theorem partnerLost_of_lost (hm : 3 ≤ c.sluS.missed) (hr : c.role = 2 ∨ c.role = 3) : c.partnerLost =
    let d := (c.setRole 4).ev (slu 0x400) (bit 4)
    { d with sluS := { d.sluS with yieldAt := none } }.sb (slu 0x200) 8 false := if_pos ⟨hm, hr⟩

theorem partnerLost_of_heard (h : c.sluS.missed < 3) : c.partnerLost = c := if_neg fun hif => by omega

/-- The frames of ARBITRATE: ARB_WAIT, or 8,000 where it is zero. -/
def arbWait (c : Core) : Nat := if c.gf (slu 0x44) 8 13 = 0 then 8000 else c.gf (slu 0x44) 8 13

theorem arbTimeout_of_waited (hr : c.role = 1) (h : arbWait c ≤ c.sluS.arb) : c.arbTimeout = c.setRole 4 := if_pos ⟨hr, h⟩
theorem arbTimeout_of_otherRole (h : c.role ≠ 1) : c.arbTimeout = c := if_neg fun hif => h hif.1

theorem dualResolve_of_dual (hr : c.role = 3 ∨ c.role = 4) (hu : c.unit = true) (h : 8 ≤ c.sluS.dual) :
    c.dualResolve = c.setRole 2 := if_pos ⟨hr, hu, h⟩
theorem dualResolve_of_unit0 (h : c.unit = false) : c.dualResolve = c := if_neg (by simp [h])

end Roles

/-! ## Yields (R310) -/

section Yield

variable {c : Core} {h : Heartbeat}

/-- The last heartbeat came from a STANDBY partner that is READY. -/
def partnerReady (c : Core) : Bool :=
  match c.sluS.lastHb with | some h => h.role.val = 2 && h.flags.getLsbD 2 | none => false

theorem partnerReady_of_standby (hh : c.sluS.lastHb = some h) (hr : h.role.val = 2) (hf : h.flags.getLsbD 2 = true) :
    partnerReady c = true := by
  simp [partnerReady, hh, hr, hf]

theorem not_partnerReady (h : ∀ h, c.sluS.lastHb = some h → h.role.val ≠ 2 ∨ h.flags.getLsbD 2 = false) : partnerReady c = false := by
  unfold partnerReady
  split
  next x hx =>
    rcases h x hx with h | h
    · simp [h]
    · rw [h, Bool.and_false]
  next => rfl

theorem yieldGo_of_busy (h : c.gb (slu 0x200) 8 = true) : c.yieldGo = c.ign (slu 0xB08) 8 := if_pos h

/-- YIELD that is not busy announces its boundary on an ACTIVE device with a ready partner, and does nothing elsewhere. -/
theorem yieldGo_of_idle (h : c.gb (slu 0x200) 8 = false) : c.yieldGo =
    if c.role = 3 ∧ partnerReady c = true then
      { c with sluS := { c.sluS with yieldAt := some ((c.frame + 9) % 2 ^ 32) } }.sb (slu 0x200) 8 true
    else c := by
  rw [Core.yieldGo, if_neg (by simp [h])]
  simp only [Bool.and_eq_true, decide_eq_true_eq]
  rfl

theorem yieldTake_of_active (hr : c.role = 3) (hy : c.sluS.yieldAt = some (c.frame % 2 ^ 32)) :
    c.yieldTake = ({ c with sluS := { c.sluS with yieldAt := none } }.setRole 2).sb (slu 0x200) 8 false := if_pos ⟨hr, hy⟩

theorem yieldTake_of_standby (hr : c.role = 2) (hh : c.sluS.lastHb = some h) (hf : h.flags.getLsbD 1 = true)
    (hy : h.yieldAt.toNat = c.frame % 2 ^ 32) : c.yieldTake = c.setRole 3 := by
  simp [Core.yieldTake, hr, hh, hf, hy]

end Yield

/-! ## The partner's frame number (R311) -/

section FrameNumber

variable {c : Core} {h : Heartbeat} {old : Nat}

/-- The frame number, the PM second with its marks, and the Sluice's state. -/
def frameView (c : Core) : Nat × Nat × Nat × SluSt := (c.frame, c.pmSec, c.pmSuspect, c.sluS)

theorem frameView_endReq {result cause : Nat} : frameView (c.endReq result cause) = frameView c :=
  endReq_induct (P := fun d => frameView d = frameView c) (fun _ _ _ _ hd => hd) (fun _ hd => hd) (fun _ _ hd => hd) (fun _ _ _ hd => hd) rfl

theorem frameView_sb {a k : Nat} {v : Bool} : frameView (c.sb a k v) = frameView c := rfl

theorem frameView_snapMiss : frameView c.snapMiss = frameView c :=
  cn_induct (P := fun d => frameView d = frameView c) (fun _ => rfl) rfl

/-- The snapshot request as the frame number changes: the next boundary stays next, a target passed over is missed (R63). -/
def snapMoved (c : Core) (old : Nat) : Core :=
  match c.snpS.req with
  | some (src, t) =>
    if src ≠ 2 then { c with snpS := { c.snpS with req := some (src, c.frame + 1) } }
    else if t ≤ c.frame ∧ old < t then ({ c with snpS := { c.snpS with req := none } }).snapMiss.sb (snp 0xB00) 8 false
    else c
  | none => c

/-- The armed commit as the frame number changes: due at the boundary just passed it stays due, passed over it is missed. -/
def commitMoved (d : Core) (old : Nat) : Core :=
  if d.gf (rsv 0x208) 1 2 ≠ 2 then d
  else if d.armedAt = old then (d.wr (rsv 0x210) (BitVec.ofNat 32 d.frame)).wr (rsv 0x214) (BitVec.ofNat 32 (d.frame / 2 ^ 32))
  else if d.armedAt ≤ d.frame then d.endReq 5 8
  else d

theorem numberMoved_eq : c.numberMoved old = commitMoved (snapMoved c old) old := rfl

theorem frameView_snapMoved : frameView (snapMoved c old) = frameView c := by
  unfold snapMoved
  split
  · split
    · rfl
    · split
      · rw [frameView_sb, frameView_snapMiss]
        rfl
      · rfl
  · rfl

theorem frameView_commitMoved : frameView (commitMoved c old) = frameView c := by
  unfold commitMoved
  split
  · rfl
  · split
    · rfl
    · split
      · exact frameView_endReq
      · rfl

/-- What waits for a boundary as the frame number changes touches neither the number nor the mate. -/
theorem frameView_numberMoved : frameView (c.numberMoved old) = frameView c := by
  rw [numberMoved_eq, frameView_commitMoved, frameView_snapMoved]

theorem numberMoved_of_nothingWaits (hs : c.snpS.req = none) (hc : c.gf (rsv 0x208) 1 2 ≠ 2) : c.numberMoved old = c := by
  have h : snapMoved c old = c := by simp only [snapMoved, hs]
  rw [numberMoved_eq, h]
  exact if_pos hc

/-- The block with the number of the frame after the partner's last. -/
def renumbered (c : Core) (h : Heartbeat) : Core :=
  { c with frame := h.frame.toNat + 1, pmSec := (h.frame.toNat + 1) / 8000, pmSuspect := 2
           sluS := { c.sluS with took := true, differ := 0 } }

theorem frameNumberTake_of_new (hr : c.role = 2) (ht : c.sluS.took = false) (hh : c.sluS.lastHb = some h) :
    c.frameNumberTake = (renumbered c h).numberMoved c.frame := by
  unfold Core.frameNumberTake
  rw [hh]
  exact if_pos ⟨hr, .inl ht⟩

theorem frameNumberTake_of_taken (ht : c.sluS.took = true) (hd : c.sluS.differ < 8) : c.frameNumberTake = c := by
  unfold Core.frameNumberTake
  split
  next => exact if_neg (by simp [ht, hd])
  next => rfl

end FrameNumber

/-- Settles O43, command by command: heartbeats by their bytes, role changes by `setRole`, the frame number by what `numberMoved` leaves. -/
theorem theMateChangesRoles : Obligations.TheMateChangesRoles := by
  unfold Obligations.TheMateChangesRoles
  intro c
  have hhb (msg s) : exec (.heartbeatReceive msg) s = s.on (·.heartbeatReceive msg) := rfl
  have hlost (s) : exec .partnerLost s = s.on (·.partnerLost) := rfl
  have harb (s) : exec .arbitrateTimeout s = s.on (·.arbTimeout) := rfl
  have hdual (s) : exec .dualResolve s = s.on (·.dualResolve) := rfl
  have hyield (s) : exec .yield s = s.on (·.byWarden (·.yieldGo)) := rfl
  have htake (s) : exec .yieldTake s = s.on (·.yieldTake) := rfl
  have hnum (s) : exec .frameNumberTake s = s.on (·.frameNumberTake) := rfl
  have noYield (hb : c.gb (slu 0x200) 8 = false) (h : ¬(c.role = 3 ∧ partnerReady c = true)) : Goes .yield c c := by
    cases hw : c.wDown
    · exact goes_of_on hyield ((byWarden_of_up hw).trans ((yieldGo_of_idle hb).trans (if_neg h)))
    · exact goes_of_on hyield (byWarden_of_down hw)
  refine ⟨fun msg hl hc => ?_, fun msg hl hc => ?_, fun msg hl => ?_, ⟨hbGood_heartbeatMsg, hbOf_heartbeatMsg⟩, fun hm hr => ?_,
    fun hm => ?_, fun hr h => ?_, fun hr => ?_, fun hr hu hd => ?_, fun hu => ?_, fun h hw hb hr hh hp hf => ?_, fun hw hb => ?_,
    fun hw => ?_, fun hb hr => ?_, fun hb hp => ?_, fun hr hy => ?_, fun h hr hh hf hy => ?_, fun h hr ht hh hs hm => ?_,
    fun h hr ht hh => ?_, fun ht hd => ?_, fun r h0 h8 hr => ?_⟩
  · exact goes_of_on (hhb msg) (heartbeatReceive_of_bad hl (decide_eq_false hc))
  · exact goes_of_on (hhb msg) (heartbeatReceive_of_good hl (decide_eq_true hc))
  · exact goes_of_on (hhb msg) (heartbeatReceive_of_noLane hl)
  · exact goes_of_on hlost (partnerLost_of_lost hm hr)
  · exact goes_of_on hlost (partnerLost_of_heard hm)
  · exact goes_of_on harb (arbTimeout_of_waited hr h)
  · exact goes_of_on harb (arbTimeout_of_otherRole hr)
  · exact goes_of_on hdual (dualResolve_of_dual hr hu hd)
  · exact goes_of_on hdual (dualResolve_of_unit0 hu)
  · exact goes_of_on hyield ((byWarden_of_up hw).trans ((yieldGo_of_idle hb).trans (if_pos ⟨hr, partnerReady_of_standby hh hp hf⟩)))
  · exact goes_of_on hyield ((byWarden_of_up hw).trans (yieldGo_of_busy hb))
  · exact goes_of_on hyield (byWarden_of_down hw)
  · exact noYield hb fun hy => hr hy.1
  · exact noYield hb fun hy => by simp [not_partnerReady hp] at hy
  · exact goes_of_on htake (yieldTake_of_active hr hy)
  · exact goes_of_on htake (yieldTake_of_standby hr hh hf hy)
  · exact goes_of_on hnum ((frameNumberTake_of_new hr ht hh).trans (numberMoved_of_nothingWaits hs hm))
  · refine reaches_of_on hnum ?_
    rw [frameNumberTake_of_new hr ht hh]
    have hv := frameView_numberMoved (c := renumbered c h) (old := c.frame)
    simp only [frameView, Prod.mk.injEq] at hv
    obtain ⟨hframe, hsec, hsus, hslu⟩ := hv
    exact ⟨hframe, hsec, hsus, congrArg SluSt.took hslu⟩
  · exact goes_of_on hnum (frameNumberTake_of_taken ht hd)
  · rw [setRole_of_ne hr h0]
    exact ⟨role_roleShown h8, Core.gb_ev _ _ _ _ (by decide), rfl, regsOnly_roleShown⟩

/-! ## The power state and L1 (R31, R458) -/

section PowerState

variable {c : Core}

theorem testBit_fld {w : Word} {lo n i : Nat} : (fld w lo n).testBit i = (decide (i < n) && w.getLsbD (lo + i)) := by
  rw [fld, Nat.testBit_mod_two_pow, Nat.testBit_shiftRight, BitVec.getLsbD]

/-- A field with a bit of it set is not zero. -/
theorem fld_ne_zero {w : Word} {lo n k : Nat} (hk : k < n) (h : w.getLsbD (lo + k) = true) : fld w lo n ≠ 0 := by
  intro h0
  have hb : (fld w lo n).testBit k = true := by rw [testBit_fld, decide_eq_true hk, h]; rfl
  simp [h0] at hb

theorem pstate_lt : c.pstate < 4 := by
  unfold Core.pstate
  split_ifs <;> decide

theorem pstate_of_bankAwake {b : Nat} (hb : b < 6) (h : c.gb (lev 0x200) (8 + b) = true) : c.pstate = 3 :=
  if_pos (.inl (fld_ne_zero hb h))

theorem gf_showPstate : c.showPstate.gf (lev 0x200) 0 2 = c.pstate := by
  unfold Core.showPstate
  split
  next h => exact h
  next => rw [gf_congr (rd_ev_ne _ (by decide)), Core.gf_sf _ _ _ _ _ (by decide), Nat.mod_eq_of_lt (by exact pstate_lt)]

theorem showPstate_frame : c.showPstate = { c with regs := c.showPstate.regs } := by
  unfold Core.showPstate
  split <;> rfl

/-- Everything that L1 asks for on a trained link, with nothing that wakes (R458). -/
def L1Due (c : Core) : Prop :=
  c.levS.inL1 = false ∧ c.gb (hif 0x200) 0 = true ∧ c.ringWaits = false ∧ c.wrdS.trapAt ≠ some c.tick ∧
    (∀ b, b < 6 → c.bankCause b = false) ∧ max 1 (c.gf (lev 0x40) 16 16) * 16 ≤ c.levS.l1Run ∧ c.l1Block &&& 0xBF = 0

theorem l1Due_iff : (!c.levS.inL1 && c.gb (hif 0x200) 0 &&
    !(c.ringWaits || c.wrdS.trapAt = some c.tick || (List.range 6).any c.bankCause) &&
    decide (max 1 (c.gf (lev 0x40) 16 16) * 16 ≤ c.levS.l1Run) && (c.l1Block &&& 0xBF) = 0) = true ↔ L1Due c := by
  simp only [L1Due, Bool.and_eq_true, Bool.not_eq_true', Bool.or_eq_false_iff, decide_eq_true_eq, decide_eq_false_iff_not,
    List.any_eq_false, List.mem_range, Bool.not_eq_true, and_assoc]

theorem enterL1_of_due (h : L1Due c) : c.enterL1 =
    let d := { c with levS := { c.levS with inL1 := true } }.cn (lev 0x504) 1
    (d.sb (lev 0x200) 6 (d.gb (lev 0x200) 5)).showPstate := if_pos (l1Due_iff.mpr h)

theorem enterL1_of_notDue (h : ¬L1Due c) : c.enterL1 = c := if_neg fun hif => h (l1Due_iff.mp hif)

end PowerState

/-! ## Islands (R459) -/

section Islands

variable {c : Core} {i : Nat}

theorem islandOff_of_due (hm : c.mayOff i = true)
    (hr : c.gf (lev (0xB80 + 4 * i)) 8 8 * 16 ≤ (Sparse.get (fun _ => 0) c.levS.offRun i : Nat)) : c.islandOff i = c.powerOff i := by
  rw [Core.islandOff, hm, decide_eq_true hr]
  rfl

theorem islandOff_of_notDue (h : c.mayOff i = false ∨
    (Sparse.get (fun _ => 0) c.levS.offRun i : Nat) < c.gf (lev (0xB80 + 4 * i)) 8 8 * 16) : c.islandOff i = c := by
  refine if_neg fun hif => ?_
  rw [Bool.and_eq_true, decide_eq_true_eq] at hif
  rcases h with h | h
  · simp [h] at hif
  · omega

/-- With no access waiting there is none to serve. -/
theorem drain_of_nothingBlocked (h : c.blocked = []) : c.drain = c := by
  have e : c.drain = { c with blocked := [] } := by
    rw [Core.drain, h]
    rfl
  rw [e, ← h]

theorem cn_frame {a k : Nat} : c.cn a k = { c with regs := (c.cn a k).regs } :=
  cn_induct (P := fun d => d = { c with regs := d.regs }) (fun _ => rfl) rfl

theorem blocked_leaveL1 : c.leaveL1.blocked = c.blocked := by
  cases h : c.levS.inL1
  · rw [leaveL1_of_notInL1 h]
  · rw [leaveL1_of_inL1 h, showPstate_frame]
    rfl

theorem blocked_powerOn : (c.powerOn i).blocked = c.blocked := by
  cases hu : c.islandUp i
  · have hs : (staleIsland (islandShown c i) i).blocked = (islandShown c i).blocked := by
      refine forL_induct (fun d : Core => d.blocked = (islandShown c i).blocked) (fun s d hd => ?_) _ rfl
      split
      · exact hd
      · exact hd
    have hc : ((c.sb (lev 0x204) i true).cn (lev 0x508) 1).blocked = c.blocked := by
      rw [cn_frame]
      rfl
    rw [powerOn_of_down hu, showPstate_frame]
    exact hs.trans hc
  · rw [powerOn_of_up hu]

/-- The block once island `i` is switched on for a domain's start or an access, before the accesses that waited go on. -/
def islandServed (c : Core) (i : Nat) : Core :=
  { ((if c.domainStarts i then c.leaveL1 else c).wakeLast 7).powerOn i with linkOut := [] }

theorem blocked_islandServed : (islandServed c i).blocked = c.blocked := by
  refine blocked_powerOn.trans ?_
  change (if c.domainStarts i then c.leaveL1 else c).blocked = c.blocked
  split
  · exact blocked_leaveL1
  · rfl

theorem islandUp_islandServed (hi : i < 32) : (islandServed c i).islandUp i = true := by
  have h : (islandServed c i).islandUp i = (((if c.domainStarts i then c.leaveL1 else c).wakeLast 7).powerOn i).islandUp i := rfl
  rw [h, islandUp_powerOn hi, if_pos rfl]

end Islands

/-! ## Banks wake (R25, R32) -/

section BankWake

variable {c : Core} {b : Nat}

/-- The bank awake, its wake counted and its cause noted, before PSTATE follows. -/
def bankRoused (c : Core) (b : Nat) : Core :=
  let port := (List.range 16).any fun k => c.en (0x20 + 16 * b + k) && !c.gb (pe (16 * b + k) 0x70) 1
  let d := ((((c.leaveL1.sb (lev 0x230) b false).cn (lev (0x514 + 4 * b)) 1).sb (lev 0x200) (8 + b) true).wakeLast
    (if port then 5 else 4))
  { d with levS := { d.levS with slept := d.levS.slept.filter (· ≠ b) } }

theorem bankWake_of_noCause (h : c.bankCause b = false) : c.bankWake b = c := if_pos (by simp [h])

theorem bankWake_of_notRan (h : c.bankCause b = true) (hu : c.gb (lev 0x200) (8 + b) = false) (hr : c.wrdS.ran = false)
    (hn : c.gb (lev 0x230) b = false) : c.bankWake b = (c.sb (lev 0x230) b true).ev (lev 0x400) (bit 2) := by
  simp [Core.bankWake, h, hu, hr, hn]

theorem bankWake_of_ran (h : c.bankCause b = true) (hu : c.gb (lev 0x200) (8 + b) = false) (hr : c.wrdS.ran = true) :
    c.bankWake b = (bankRoused c b).showPstate := by
  rw [Core.bankWake, if_neg (by simp [h, hu]), if_neg (by simp [hr])]
  rfl

theorem rd_wakeLast {k a : Nat} (h : a ≠ lev 0x23C) : (c.wakeLast k).rd a = c.rd a := rd_wr_ne _ h

theorem awake_bankRoused (hb : b < 6) : (bankRoused c b).gb (lev 0x200) (8 + b) = true := by
  refine (gb_congr (rd_wakeLast (by decide)) _).trans ?_
  rw [gb_sb (by omega), if_pos rfl]

theorem record_bankRoused (hb : b < 6) : (bankRoused c b).gb (lev 0x230) b = false := by
  refine (gb_congr (rd_wakeLast (by decide)) _).trans ?_
  rw [gb_congr ((rd_sb_ne _ _ (by decide)).trans (rd_cn_ne _ (by simp only [lev]; omega))), gb_sb (by omega), if_pos rfl]

theorem levS_bankRoused : (bankRoused c b).levS = { c.leaveL1.levS with slept := c.leaveL1.levS.slept.filter (· ≠ b) } := by
  have h : ((c.leaveL1.sb (lev 0x230) b false).cn (lev (0x514 + 4 * b)) 1).levS = c.leaveL1.levS := levS_cn
  rw [← h]
  rfl

/-- What the wake of a bank shows. -/
theorem shown_bankWake (h : c.bankCause b = true) (hu : c.gb (lev 0x200) (8 + b) = false) (hr : c.wrdS.ran = true) (hb : b < 6) :
    (c.bankWake b).gb (lev 0x200) (8 + b) = true ∧ (c.bankWake b).gb (lev 0x230) b = false ∧
      (c.bankWake b).gf (lev 0x200) 0 2 = 3 ∧ (c.bankWake b).levS.inL1 = false ∧ b ∉ (c.bankWake b).levS.slept := by
  rw [bankWake_of_ran h hu hr, levS_showPstate, levS_bankRoused]
  refine ⟨?_, ?_, ?_, inL1_leaveL1, by simp⟩
  · rw [gb_showPstate (by omega), awake_bankRoused hb]
  · rw [gb_congr (rd_showPstate (by decide) (by decide)), record_bankRoused hb]
  · rw [gf_showPstate, pstate_of_bankAwake hb (awake_bankRoused hb)]

end BankWake

/-! ## Banks come up and sleep (R25, R86) -/

section BankUp

variable {c : Core} {b k a : Nat}

/-- A port's energy shown as its page comes up. -/
def energyShown (b k : Nat) (c : Core) : Core :=
  if c.energy (16 * b + k) then (c.setEnergy (16 * b + k) (c.energy (16 * b + k))).ev (pe (16 * b + k) 0x408) (bit 0)
  else c.setEnergy (16 * b + k) (c.energy (16 * b + k))

/-- The registers that the energy of a port is shown in. -/
def energyRegs (p : Nat) : List Nat := [lev (0x210 + 4 * (p / 32)), pe p 0x200, bk (p / 16) 0x20C, pe p 0x408]

theorem setEnergy_induct {P : Core → Prop} {p : Nat} {v : Bool} (hw : ∀ d, ∀ a ∈ energyRegs p, ∀ v, P d → P (d.wr a v)) (h : P c) :
    P (c.setEnergy p v) := by
  have h1 : P (c.sb (lev (0x210 + 4 * (p / 32))) (p % 32) v) := hw _ _ (by simp [energyRegs]) _ h
  unfold Core.setEnergy
  dsimp only
  split
  · exact hw _ _ (by simp [energyRegs]) _ (hw _ _ (by simp [energyRegs]) _ h1)
  · exact h1

theorem energyShown_induct {P : Core → Prop} (hw : ∀ d, ∀ a ∈ energyRegs (16 * b + k), ∀ v, P d → P (d.wr a v)) (h : P c) :
    P (energyShown b k c) := by
  unfold energyShown
  split
  · exact hw _ _ (by simp [energyRegs]) _ (setEnergy_induct hw h)
  · exact setEnergy_induct hw h

/-- The bank's island on, and its page showing it awake with its supply. -/
def bankShown (c : Core) (b : Nat) : Core := ((c.powerOn (7 + b)).sb (bk b 0x200) 0 true).sb (bk b 0x200) 4 true

theorem bankUp_of_awake (hu : c.gb (lev 0x200) (8 + b) = true) (hs : b ∉ c.levS.slept) (h : c.gb (bk b 0x200) 0 = false) :
    c.bankUp b = forN 16 (energyShown b) (bankShown c b) := by
  rw [Core.bankUp, if_pos (by simp [hu, hs, h])]
  rfl

theorem rd_energiesShown {n : Nat} (h : ∀ k < n, a ∉ energyRegs (16 * b + k)) : (forN n (energyShown b) c).rd a = c.rd a := by
  refine forN_induct (fun d : Core => d.rd a = c.rd a) (fun k d hk hd => ?_) rfl
  exact energyShown_induct (P := fun d => d.rd a = c.rd a) (fun d x hx v hd => (rd_wr_ne v (ne_of_mem_of_not_mem hx (h k hk)).symm).trans hd) hd

theorem blocked_energiesShown {n : Nat} : (forN n (energyShown b) c).blocked = c.blocked :=
  forN_induct (f := energyShown b) (fun d : Core => d.blocked = c.blocked)
    (fun _ _ _ hd => energyShown_induct (P := fun d => d.blocked = c.blocked) (fun _ _ _ _ hd => hd) hd) rfl

/-- The block once a bank is up, before the accesses that waited for it go on. -/
def bankServed (c : Core) (b : Nat) : Core := { c.bankUp b with linkOut := [] }

theorem rd_bankServed : (bankServed c b).rd a = (c.bankUp b).rd a := rfl

theorem shown_bankServed (hb : b < 6) (hu : c.gb (lev 0x200) (8 + b) = true) (hs : b ∉ c.levS.slept) (h : c.gb (bk b 0x200) 0 = false) :
    (bankServed c b).islandUp (7 + b) = true ∧ (bankServed c b).gb (bk b 0x200) 0 = true ∧ (bankServed c b).gb (bk b 0x200) 4 = true ∧
      (bankServed c b).blocked = c.blocked := by
  have hx : (bankServed c b).blocked = (c.bankUp b).blocked := rfl
  rw [Core.islandUp, gb_congr rd_bankServed, gb_congr rd_bankServed, gb_congr rd_bankServed, hx, bankUp_of_awake hu hs h]
  have hl : (forN 16 (energyShown b) (bankShown c b)).rd (lev 0x204) = (bankShown c b).rd (lev 0x204) :=
    rd_energiesShown fun k hk => by simp [energyRegs, lev, pe, bk]; omega
  have hs : (forN 16 (energyShown b) (bankShown c b)).rd (bk b 0x200) = (bankShown c b).rd (bk b 0x200) :=
    rd_energiesShown fun k hk => by simp [energyRegs, lev, pe, bk]; omega
  have hne : lev 0x204 ≠ bk b 0x200 := by simp only [lev, bk]; omega
  refine ⟨?_, ?_, ?_, blocked_energiesShown.trans blocked_powerOn⟩
  · have hi : (bankShown c b).islandUp (7 + b) = (c.powerOn (7 + b)).islandUp (7 + b) :=
      gb_congr ((rd_sb_ne _ _ hne).trans (rd_sb_ne _ _ hne)) _
    exact (gb_congr hl _).trans (hi.trans ((islandUp_powerOn (by omega)).trans (if_pos rfl)))
  · rw [gb_congr hs, bankShown, gb_sb (by decide), if_neg (by decide), gb_sb (by decide), if_pos rfl]
  · rw [gb_congr hs, bankShown, gb_sb (by decide), if_pos rfl]

end BankUp

section BankSleep

variable {c : Core} {b k a n : Nat}

/-- A lane idle (R465). -/
def laneIdle (b k : Nat) (c : Core) : Core :=
  (c.sb (pe (16 * b + k) 0x200) 6 false).updPort (16 * b + k) fun x => { x with txRate := 0, txSettle := 0 }

/-- The page of a sleeping bank: neither awake nor with its PLL references, lock and receive lanes. -/
def bankDark (c : Core) (b : Nat) : Core :=
  (((c.sb (bk b 0x200) 0 false).sf (bk b 0x200) 1 3 0).wr (bk b 0x204) 0).wr (bk b 0x210) 0

/-- The block with a bank's page dark and its lanes idle. -/
def bankIdle (c : Core) (b : Nat) : Core := forN 16 (laneIdle b) (bankDark c b)

/-- A bank asleep: its island still on, or off with the bank no longer awake (R25, R459). -/
def bankAsleep (d : Core) (b : Nat) : Core :=
  if d.islandUp (7 + b) then { d with levS := { d.levS with slept := d.levS.slept ++ [b] } }
  else (d.sb (lev 0x200) (8 + b) false).showPstate

theorem bankSleep_of_due (hu : c.gb (lev 0x200) (8 + b) = true) (hw : c.gb (bk b 0x200) 0 = true) (h : c.bankCause b = false)
    (hs : b ∉ c.levS.slept) : c.bankSleep b = bankAsleep (bankIdle c b) b := by
  rw [Core.bankSleep, if_pos (by simp [hu, hw, h, hs])]
  rfl

theorem bankSleep_of_notDue (h : c.bankCause b = true ∨ c.gb (bk b 0x200) 0 = false) : c.bankSleep b = c := by
  rcases h with h | h
  · exact if_neg (by simp [h])
  · exact if_neg (by simp [h])

theorem forN_succ {α : Type} {f : Nat → α → α} {x : α} : forN (n + 1) f x = f n (forN n f x) := by
  simp [forN, List.range_succ]

/-- The lanes' idling touches no register but of the Port Engines. -/
theorem rd_lanesIdle (h : a < pe 0 0) : (forN n (laneIdle b) c).rd a = c.rd a := by
  refine forN_induct (fun d : Core => d.rd a = c.rd a) (fun k d _ hd => ?_) rfl
  exact (rd_sb_ne _ _ (by simp only [pe] at h ⊢; omega)).trans hd

theorem levS_lanesIdle : (forN n (laneIdle b) c).levS = c.levS :=
  forN_induct (f := laneIdle b) (fun d : Core => d.levS = c.levS) (fun _ _ _ hd => hd) rfl

theorem port_laneIdle {p : Nat} : (laneIdle b k c).port p =
    if p = 16 * b + k then { c.port p with txRate := 0, txSettle := 0 } else c.port p := by
  rw [laneIdle, Core.port_updPort]
  split
  next h => rw [h]; rfl
  next => rfl

theorem txRate_lanesIdle (h : k < n) : ((forN n (laneIdle b) c).port (16 * b + k)).txRate = 0 := by
  induction n with
  | zero => omega
  | succ n ih =>
    rw [forN_succ, port_laneIdle]
    split
    · rfl
    · exact ih (by omega)

theorem rd_bankAsleep (h0 : a ≠ lev 0x200) (h4 : a ≠ lev 0x400) : (bankAsleep c b).rd a = c.rd a := by
  unfold bankAsleep
  split
  · rfl
  · rw [rd_showPstate h0 h4, rd_sb_ne _ _ h0]

theorem port_congr {c d : Core} {p : Nat} (h : c.ports = d.ports) : c.port p = d.port p := by rw [Core.port, h, Core.port]

theorem ports_bankAsleep : (bankAsleep c b).ports = c.ports := by
  unfold bankAsleep
  split
  · rfl
  · rw [showPstate_frame]
    rfl

/-- Below the Port Engines a bank asleep shows its dark page, but for LEV_STAT and its event. -/
theorem rd_bankAsleep_idle (h0 : a ≠ lev 0x200) (h4 : a ≠ lev 0x400) (hp : a < pe 0 0) :
    (bankAsleep (bankIdle c b) b).rd a = (bankDark c b).rd a := by
  rw [rd_bankAsleep h0 h4, bankIdle, rd_lanesIdle hp]

theorem rd_bankDark (hb : b < 6) (h : a < bk 0 0) : (bankDark c b).rd a = c.rd a := by
  simp only [bk] at h
  have hne {o : Nat} : a ≠ bk b o := by simp only [bk]; omega
  rw [bankDark, rd_wr_ne _ hne, rd_wr_ne _ hne, rd_sf_ne _ _ _ hne, rd_sb_ne _ _ hne]

/-- BK_STATE of a dark page: neither awake nor with a PLL reference. -/
theorem state_bankDark : (bankDark c b).rd (bk b 0x200) = setFld ((c.sb (bk b 0x200) 0 false).rd (bk b 0x200)) 1 3 0 := by
  rw [bankDark, rd_wr_ne _ (by simp [bk]), rd_wr_ne _ (by simp [bk]), Core.rd_sf, if_pos rfl]

theorem awake_bankDark : (bankDark c b).gb (bk b 0x200) 0 = false := by
  rw [Core.gb, state_bankDark, bitOf_eq, setFld_other _ _ _ _ _ (.inl (by decide))]
  exact (gb_sb (c := c) (by decide)).trans (if_pos rfl)

theorem plls_bankDark : (bankDark c b).gf (bk b 0x200) 1 3 = 0 := by
  rw [Core.gf, state_bankDark, fld_setFld _ _ _ _ (by decide)]
  rfl

/-- What a bank that falls asleep shows of itself and of its lanes. -/
theorem shown_bankAsleep (hb : b < 6) :
    let d := bankAsleep (bankIdle c b) b
    d.gb (bk b 0x200) 0 = false ∧ d.gf (bk b 0x200) 1 3 = 0 ∧ d.rd (bk b 0x210) = 0 ∧
      ∀ k, k < 16 → (d.port (16 * b + k)).txRate = 0 := by
  have shown {o : Nat} (ho : o < 0x1000) : (bankAsleep (bankIdle c b) b).rd (bk b o) = (bankDark c b).rd (bk b o) :=
    rd_bankAsleep_idle (by simp only [bk, lev]; omega) (by simp only [bk, lev]; omega) (by simp only [bk, pe]; omega)
  refine ⟨?_, ?_, ?_, fun k hk => ?_⟩
  · rw [gb_congr (shown (by decide)), awake_bankDark]
  · rw [gf_congr (shown (by decide)), plls_bankDark]
  · rw [shown (by decide), bankDark, Core.rd_wr, if_pos rfl]
  · rw [port_congr ports_bankAsleep, bankIdle, txRate_lanesIdle hk]

theorem islandUp_bankIdle (hb : b < 6) {i : Nat} : (bankIdle c b).islandUp i = c.islandUp i :=
  gb_congr ((rd_lanesIdle (by decide)).trans (rd_bankDark hb (by decide))) i

theorem slept_bankAsleep (h : c.islandUp (7 + b) = true) : (bankAsleep c b).levS.slept = c.levS.slept ++ [b] := by
  rw [bankAsleep, if_pos h]

theorem stat_bankAsleep (hb : b < 6) (h : c.islandUp (7 + b) = false) : (bankAsleep c b).gb (lev 0x200) (8 + b) = false := by
  rw [bankAsleep, if_neg (by simp [h]), gb_showPstate (by omega), gb_sb (by omega), if_pos rfl]

end BankSleep

/-! ## PLLs, supplies and the temperature (R475, R476, R504) -/

section Monitors

variable {c : Core}

theorem pllUnlock_of_used {b k : Nat} (h : c.gb (bk b 0x210) k = true) : c.pllUnlock b k =
    (((c.sb (bk b 0x200) (1 + k) false).ev (bk b 0x400) (bit 0)).cn (bk b (0x500 + 4 * k)) 1).report (96 + b) := if_pos h
theorem pllUnlock_of_unused {b k : Nat} (h : c.gb (bk b 0x210) k = false) : c.pllUnlock b k = c := if_neg (by simp [h])

theorem supply_of_change {k : Nat} {bad : Bool} (hp : c.pins.pwrgood = true) (h : c.gb (dev 0x228) k = !bad) :
    c.supply k bad = (c.sb (dev 0x228) k bad).ev (dev 0x400) (bit 1) := if_pos (by simp [hp, h])
theorem supply_of_same {k : Nat} {bad : Bool} (h : c.gb (dev 0x228) k = bad) : c.supply k bad = c := if_neg (by simp [h])

/-- The signed byte that a temperature register shows. -/
def tempOf (w : Word) : Int := (w.extractLsb' 0 8).toInt

theorem tempOf_maxTemp (a b : Word) : tempOf (maxTemp a b) = max (tempOf a) (tempOf b) := by
  unfold maxTemp tempOf
  split
  · omega
  · omega

theorem tempOf_reading {t : Int} (hl : -128 ≤ t) (hh : t < 128) : tempOf ((BitVec.ofInt 8 t).setWidth 32) = t := by
  have h : ((BitVec.ofInt 8 t).setWidth 32).extractLsb' 0 8 = BitVec.ofInt 8 t := by
    apply BitVec.eq_of_getLsbD_eq
    intro i hi
    simp [hi]
    omega
  rw [tempOf, h, BitVec.toInt_ofInt_eq_self (by decide) hl (by omega)]

/-- A reading taken shows in DEV_TEMP, and raises the peak. -/
theorem shown_dieTemp {t : Int} (hl : -128 ≤ t) (hh : t < 128) :
    (c.dieTemp t).rd (dev 0x220) = (BitVec.ofInt 8 t).setWidth 32 ∧
      tempOf ((c.dieTemp t).rd (dev 0x224)) = max (tempOf (c.rd (dev 0x224))) t := by
  have hd (a : Nat) : (c.dieTemp t).rd a = (((c.wr (dev 0x220) ((BitVec.ofInt 8 t).setWidth 32)).wr (dev 0x224)
      (maxTemp ((c.wr (dev 0x220) ((BitVec.ofInt 8 t).setWidth 32)).rd (dev 0x224)) ((BitVec.ofInt 8 t).setWidth 32)))).rd a := rfl
  constructor
  · rw [hd, rd_wr_ne _ (by decide), Core.rd_wr, if_pos rfl]
  · rw [hd, Core.rd_wr, if_pos rfl, tempOf_maxTemp, tempOf_reading hl hh, rd_wr_ne _ (by decide)]

theorem hot_dieTemp {t : Int} : (c.dieTemp t).levS.hot = if 115 < t then true else if t < 110 then false else c.levS.hot := rfl

end Monitors

/-- Settles O59: power states by `PSTATE`'s own lemmas, an island and a bank by what each of their changes shows. -/
theorem powerStatesIslandsAndBanks : Obligations.PowerStatesIslandsAndBanks := by
  unfold Obligations.PowerStatesIslandsAndBanks
  intro c
  have hin (s) : exec .l1Entry s = s.on (·.enterL1) := rfl
  have hout (s) : exec .l1Exit s = s.on (·.leaveL1) := rfl
  refine ⟨fun b => gf_showPstate, fun h0 hl hr ht hb hi hx => ?_, fun h => ?_, fun h => ?_, fun h => ?_, fun i => ?_, fun b => ?_,
    fun k hp => ?_, fun t hl hh => ?_⟩
  · exact goes_of_on hin (enterL1_of_due ⟨h0, hl, hr, ht, hb, hi, hx⟩)
  · refine goes_of_on hin (enterL1_of_notDue ?_)
    rintro ⟨h0, hl, hr, ht, hb, hi, hx⟩
    rcases h with h | h | h | h | ⟨b, hb6, h⟩ | h | h
    · simp [h0] at h
    · simp [hl] at h
    · simp [hr] at h
    · exact ht h
    · simp [hb b hb6] at h
    · omega
    · exact h hx
  · exact goes_of_on hout (leaveL1_of_inL1 h)
  · exact goes_of_on hout (leaveL1_of_notInL1 h)
  · have hoff (s) : exec (.islandOff i) s = s.on (·.islandOff i.val) := rfl
    have hon (s) : exec (.islandOn i) s =
        s.on fun c => if c.islandWanted i.val then (islandServed c i.val).drain else c := rfl
    refine ⟨fun hm hr => ?_, fun h => ?_, fun h => ?_, fun h hx => ?_⟩
    · exact goes_of_on hoff (islandOff_of_due hm hr)
    · exact goes_of_on hoff (islandOff_of_notDue h)
    · exact goes_of_on hon (if_neg (by simp [h]))
    · refine reaches_of_on hon ?_
      rw [if_pos h, drain_of_nothingBlocked (blocked_islandServed.trans hx)]
      exact ⟨islandUp_islandServed (by omega), rfl⟩
  · have hwake (s) : exec (.bankWake b) s = s.on (·.bankWake b.val) := rfl
    have hup (s) : exec (.bankUp b) s = s.on fun c => (bankServed c b.val).drain := rfl
    have hsleep (s) : exec (.bankSleep b) s = s.on (·.bankSleep b.val) := rfl
    have hpll (k : Fin 3) (s) : exec (.bankPllUnlock b k) s = s.on (·.pllUnlock b.val k.val) := rfl
    have hb : b.val < 6 := b.isLt
    refine ⟨fun h => ?_, fun h hu hr hn => ?_, fun h hu hr => ?_, fun hu hs h hx => ?_, fun hu hw h hs => ?_, fun h => ?_,
      fun k => ⟨fun h => ?_, fun h => ?_⟩⟩
    · exact goes_of_on hwake (bankWake_of_noCause h)
    · exact goes_of_on hwake (bankWake_of_notRan h hu hr hn)
    · exact reaches_of_on hwake (shown_bankWake h hu hr hb)
    · obtain ⟨hi, h0, h4, hblocked⟩ := shown_bankServed hb hu hs h
      refine reaches_of_on hup ?_
      rw [drain_of_nothingBlocked (hblocked.trans hx)]
      exact ⟨hi, h0, h4⟩
    · refine reaches_of_on hsleep ?_
      rw [bankSleep_of_due hu hw h hs]
      obtain ⟨h0, h1, h2, hports⟩ := shown_bankAsleep (c := c) hb
      refine ⟨h0, h1, h2, hports, fun hi => ?_, fun hi => ?_⟩
      · rw [slept_bankAsleep ((islandUp_bankIdle hb).trans hi), bankIdle, levS_lanesIdle]
        rfl
      · exact stat_bankAsleep hb ((islandUp_bankIdle hb).trans hi)
    · exact goes_of_on hsleep (bankSleep_of_notDue h)
    · exact goes_of_on (hpll k) (pllUnlock_of_used h)
    · exact goes_of_on (hpll k) (pllUnlock_of_unused h)
  · have htrip (s) : exec (.supplyTrip k) s = s.on (·.supply k.val true) := rfl
    have hclear (s) : exec (.supplyClear k) s = s.on (·.supply k.val false) := rfl
    exact ⟨fun h => ⟨goes_of_on htrip (supply_of_change hp h), goes_of_on hclear (supply_of_same h)⟩,
      fun h => ⟨goes_of_on hclear (supply_of_change hp h), goes_of_on htrip (supply_of_same h)⟩⟩
  · have htemp (s) : exec (.tempTrip t) s = s.on (·.dieTemp t) := rfl
    obtain ⟨hnow, hpeak⟩ := shown_dieTemp (c := c) hl hh
    refine reaches_of_on htemp ⟨hnow, hpeak, fun h => ?_, fun h => ?_, fun h h' => ?_⟩
    · rw [hot_dieTemp, if_pos h]
    · rw [hot_dieTemp, if_neg (by omega), if_pos h]
    · rw [hot_dieTemp, if_neg (by omega), if_neg (by omega)]

/-! ## A state of the Warden entered (Table 14-5, R456) -/

section SetW

variable {c : Core} {n a : Nat}

theorem wState_congr {c d : Core} (h : c.rd (hif 0x20C) = d.rd (hif 0x20C)) : c.wState = d.wState := gf_congr h 0 3
theorem wDown_congr {c d : Core} (h : c.rd (hif 0x20C) = d.rd (hif 0x20C)) : c.wDown = d.wDown := by
  rw [Core.wDown, wState_congr h, Core.wDown]

/-- A field that another field's write does not touch. -/
theorem fld_setFld_ne {w : Word} {lo k lo' k' v : Nat} (h : lo' + k' ≤ lo ∨ lo + k ≤ lo') :
    fld (setFld w lo k v) lo' k' = fld w lo' k' := by
  apply Nat.eq_of_testBit_eq
  intro i
  rw [testBit_fld, testBit_fld]
  by_cases hi : i < k'
  · rw [setFld_other _ _ _ _ _ (by omega)]
  · simp [hi]

/-- Arming and disarming write the watchdog's own registers only. -/
theorem rd_wdtArm (h0 : a ≠ lev 0x200) (h8 : a ≠ lev 0x228) : c.wdtArm.rd a = c.rd a := by
  unfold Core.wdtArm
  dsimp only
  split
  · rw [rd_sb_ne _ _ h0, rd_wr_ne _ h8, rd_sb_ne _ _ h0]
  · split
    · exact rd_sb_ne _ _ h0
    · exact (rd_wr_ne _ h8).trans (rd_sb_ne _ _ h0)

theorem armed_wdtArm : c.wdtArm.gb (lev 0x200) 5 = !c.wDown := by
  have hs : (c.sb (lev 0x200) 5 (!c.wDown)).gb (lev 0x200) 5 = !c.wDown := (gb_sb (by decide)).trans (if_pos rfl)
  unfold Core.wdtArm
  dsimp only
  split
  · rw [gb_sb (by decide), if_neg (by decide), gb_congr (rd_wr_ne _ (by decide)), hs]
  · split
    · exact hs
    · exact (gb_congr (rd_wr_ne _ (by decide)) 5).trans hs

theorem wrdS_wdtArm : c.wdtArm.wrdS = c.wrdS := by
  unfold Core.wdtArm
  dsimp only
  split
  · rfl
  · split <;> rfl

/-- A state of the Warden in HIF_WSTATE and WRD_STATE with its events. -/
def stateShown (c : Core) (n : Nat) : Core :=
  (((c.sf (hif 0x20C) 0 3 n).sf (wrd 0x200) 0 3 n).ev (hif 0x400) (bit 10)).ev (wrd 0x400) (bit 0)

theorem setW_of_eq (h : c.wState = n) : c.setW n = c := if_pos h
theorem setW_of_ne (h : c.wState ≠ n) : c.setW n =
    let d := (stateShown c n).wdtArm
    (d.sb (spw 0 0x254) 4 d.wDown).sb (spw 1 0x254) 4 d.wDown := if_neg h

/-- The registers that show a state of the Warden, its events, its watchdog and WDOWN. -/
def setWRegs : List Nat := [hif 0x20C, wrd 0x200, hif 0x400, wrd 0x400, lev 0x200, lev 0x228, spw 0 0x254, spw 1 0x254]

theorem rd_setW (h : a ∉ setWRegs) : (c.setW n).rd a = c.rd a := by
  simp only [setWRegs, List.mem_cons, List.not_mem_nil, or_false, not_or] at h
  obtain ⟨h1, h2, h3, h4, h5, h6, h7, h8⟩ := h
  by_cases hn : c.wState = n
  · rw [setW_of_eq hn]
  · rw [setW_of_ne hn, rd_sb_ne _ _ h8, rd_sb_ne _ _ h7, rd_wdtArm h5 h6, stateShown, rd_ev_ne _ h4, rd_ev_ne _ h3,
      rd_sf_ne _ _ _ h2, rd_sf_ne _ _ _ h1]

theorem wrdS_setW : (c.setW n).wrdS = c.wrdS := by
  by_cases hn : c.wState = n
  · rw [setW_of_eq hn]
  · rw [setW_of_ne hn, Core.sb_wrdS, Core.sb_wrdS, wrdS_wdtArm]
    rfl

/-- Outside the registers of the watchdog and WDOWN a new state shows what `stateShown` writes. -/
theorem rd_setW_shown (h : c.wState ≠ n) (h1 : a ∉ [lev 0x200, lev 0x228, spw 0 0x254, spw 1 0x254]) :
    (c.setW n).rd a = (stateShown c n).rd a := by
  simp only [List.mem_cons, List.not_mem_nil, or_false, not_or] at h1
  obtain ⟨h5, h6, h7, h8⟩ := h1
  rw [setW_of_ne h, rd_sb_ne _ _ h8, rd_sb_ne _ _ h7, rd_wdtArm h5 h6]

theorem wState_stateShown (hn : n < 8) : (stateShown c n).wState = n := by
  have h : (stateShown c n).rd (hif 0x20C) = (c.sf (hif 0x20C) 0 3 n).rd (hif 0x20C) :=
    (rd_ev_ne _ (by decide)).trans ((rd_ev_ne _ (by decide)).trans (rd_sf_ne _ _ _ (by decide)))
  rw [wState_congr h, Core.wState, Core.gf_sf _ _ _ _ _ (by decide)]
  exact Nat.mod_eq_of_lt hn

theorem wState_setW (hn : n < 8) : (c.setW n).wState = n := by
  by_cases h : c.wState = n
  · rw [setW_of_eq h, h]
  · rw [wState_congr (rd_setW_shown h (by decide)), wState_stateShown hn]

theorem wDown_of_wState (h : c.wState = n) : c.wDown = !(n = 2 || n = 3) := by rw [Core.wDown, h]

/-- What a new state shows of itself, of the watchdog and of WDOWN. -/
theorem shown_setW (h : c.wState ≠ n) (hn : n < 8) :
    (c.setW n).gf (wrd 0x200) 0 3 = n ∧ (c.setW n).gb (lev 0x200) 5 = (n = 2 || n = 3) ∧
      (c.setW n).gb (spw 0 0x254) 4 = !(n = 2 || n = 3) ∧ (c.setW n).gb (hif 0x400) 10 = true ∧ (c.setW n).gb (wrd 0x400) 0 = true := by
  have hdown : (stateShown c n).wDown = !(n = 2 || n = 3) := wDown_of_wState (wState_stateShown hn)
  have harm : (stateShown c n).wdtArm.wDown = !(n = 2 || n = 3) :=
    (wDown_congr (rd_wdtArm (by decide) (by decide))).trans hdown
  refine ⟨?_, ?_, ?_, ?_, ?_⟩
  · have hw : (stateShown c n).rd (wrd 0x200) = ((c.sf (hif 0x20C) 0 3 n).sf (wrd 0x200) 0 3 n).rd (wrd 0x200) :=
      (rd_ev_ne _ (by decide)).trans (rd_ev_ne _ (by decide))
    rw [gf_congr (rd_setW_shown h (by decide)), gf_congr hw, Core.gf_sf _ _ _ _ _ (by decide)]
    exact Nat.mod_eq_of_lt hn
  · have hl : (c.setW n).rd (lev 0x200) = (stateShown c n).wdtArm.rd (lev 0x200) := by
      rw [setW_of_ne h, rd_sb_ne _ _ (by decide), rd_sb_ne _ _ (by decide)]
    rw [gb_congr hl, armed_wdtArm, hdown, Bool.not_not]
  · rw [setW_of_ne h, gb_congr (rd_sb_ne _ _ (by decide)), gb_sb (by decide), if_pos rfl, harm]
  · rw [gb_congr (rd_setW_shown h (by decide)), stateShown, gb_congr (rd_ev_ne _ (by decide)), Core.gb_ev _ _ _ _ (by decide)]
  · rw [gb_congr (rd_setW_shown h (by decide)), stateShown, Core.gb_ev _ _ _ _ (by decide)]

end SetW

/-! ## Sleep, wakes and the watchdog (R27, R33, R456, R457) -/

section Wakes

variable {c : Core}

/-- Everything that the Warden's sleep asks for: RUNNING, SLEEP_EN, no work, no doorbell waiting, no trap of the tick (R33). -/
def SleepDue (c : Core) : Prop :=
  c.wState = 2 ∧ c.cmds = [] ∧ c.ringWaits = false ∧ c.wrdS.trapAt ≠ some c.tick ∧ c.wrdS.ledger = [] ∧ c.gb (wrd 0x40) 0 = true

theorem sleepDue_iff : (c.wState = 2 && c.cmds = [] && !c.ringWaits && c.wrdS.trapAt != some c.tick && c.wrdS.ledger = [] &&
    c.gb (wrd 0x40) 0) = true ↔ SleepDue c := by
  simp only [SleepDue, Bool.and_eq_true, Bool.not_eq_true', decide_eq_true_eq, bne_iff_ne, and_assoc]

theorem wardenSleep_of_due (h : SleepDue c) : c.wardenSleep = c.setW 3 := if_pos (sleepDue_iff.mpr h)
theorem wardenSleep_of_notDue (h : ¬SleepDue c) : c.wardenSleep = c := if_neg fun hif => h (sleepDue_iff.mp hif)

theorem wakeWarden_of_asleep {k : Nat} (h : c.wState = 3) :
    c.wakeWarden k = ((c.leaveL1.setW 2).cn (wrd 0x51C) 1).wakeLast k := if_pos h
theorem wakeWarden_of_notAsleep {k : Nat} (h : c.wState ≠ 3) : c.wakeWarden k = c := if_neg h

theorem timerWake_of_due {ok : Bool} (ho : ok = true) (h : c.wState = 3) : c.timerWake ok = (c.cn (lev 0x510) 1).wakeWarden 3 :=
  if_pos (by simp [ho, h])
theorem timerWake_of_notAsleep {ok : Bool} (h : c.wState ≠ 3) : c.timerWake ok = c := if_neg (by simp [h])

theorem halfPeriod_eq : c.wdtPeriod / 2 = max 1 (c.gf (lev 0xB0C) 0 16) * 512 := by
  rw [Core.wdtPeriod]
  omega

theorem kick_of_running (h : c.wState = 2) (hz : c.rd (lev 0x228) ≠ 0) : c.kick = c.wdtReload := if_pos ⟨h, hz⟩
theorem kick_of_not (h : c.wState ≠ 2 ∨ c.rd (lev 0x228) = 0) : c.kick = c := if_neg fun hif => h.elim (· hif.1) hif.2

theorem wdtExpire_of_zero (ha : c.gb (lev 0x200) 5 = true) (hp : c.gb (lev 0x200) 6 = false) (hz : c.rd (lev 0x228) = 0) :
    c.wdtExpire = ((c.ev (lev 0x400) (bit 1)).cn (lev 0x500) 1).wardenFail 1 := if_pos (by simp [ha, hp, hz])
theorem wdtExpire_of_nonzero (hz : c.rd (lev 0x228) ≠ 0) : c.wdtExpire = c := by
  refine if_neg fun hif => hz ?_
  rw [Bool.and_eq_true, decide_eq_true_eq] at hif
  exact hif.2

end Wakes

/-! ## The Warden fails (R417, R418) -/

/-- The states and the freeze as a failure shows them: HIF_WSTATE, WRD_STATE and FROZEN. -/
def failView (c : Core) : Word × Word × Bool := (c.rd (hif 0x20C), c.rd (wrd 0x200), c.gb (rsv 0x200) 7)

section FailView

variable {c : Core}

theorem failView_wr {a : Nat} {v : Word} (h : a ∉ [hif 0x20C, wrd 0x200, rsv 0x200]) : failView (c.wr a v) = failView c := by
  simp only [List.mem_cons, List.not_mem_nil, or_false, not_or] at h
  obtain ⟨h1, h2, h3⟩ := h
  rw [failView, rd_wr_ne _ (Ne.symm h1), rd_wr_ne _ (Ne.symm h2), gb_congr (rd_wr_ne _ (Ne.symm h3)), failView]

theorem fixRegs_notView {a : Nat} (h : a ∈ fixRegs) : a ∉ [hif 0x20C, wrd 0x200, rsv 0x200] :=
  (by decide : ∀ a ∈ fixRegs, a ∉ [hif 0x20C, wrd 0x200, rsv 0x200]) a h
theorem endRegs_notView {a : Nat} (h : a ∈ endRegs) : a ∉ [hif 0x20C, wrd 0x200, rsv 0x200] :=
  (by decide : ∀ a ∈ endRegs, a ∉ [hif 0x20C, wrd 0x200, rsv 0x200]) a h

theorem failView_fixCmd {id st : Nat} {bs : List Byte} : failView (c.fixCmd id st bs) = failView c :=
  fixCmd_induct (P := fun d => failView d = failView c) (fun _ _ ha _ hd => (failView_wr (fixRegs_notView ha)).trans hd)
    (fun _ _ _ hd => hd) rfl

theorem failView_fixOpt {id : Option Nat} {st : Nat} {bs : List Byte} : failView (c.fixOpt id st bs) = failView c :=
  fixOpt_induct (P := fun d => failView d = failView c) (fun _ _ ha _ hd => (failView_wr (fixRegs_notView ha)).trans hd)
    (fun _ _ _ hd => hd) rfl

theorem failView_endReq {result cause : Nat} : failView (c.endReq result cause) = failView c := by
  refine endReq_induct (P := fun d => failView d = failView c) (fun _ _ ha _ hd => (failView_wr (endRegs_notView ha)).trans hd)
    (fun d hd => ?_) (fun _ _ hd => hd) (fun _ _ _ hd => hd) rfl
  rw [← hd, failView, rd_sb_ne _ _ (by decide), rd_sb_ne _ _ (by decide), gb_sb (by decide), if_neg (by decide), failView]

theorem failView_failReq : failView c.failReq = failView c := by
  have hs {d : Core} : failView (d.stopReq 4 7) = failView d := by
    unfold Core.stopReq
    split
    · rfl
    · exact failView_endReq
  exact failView_fixOpt.trans (hs.trans rfl)

theorem failView_noWarden : failView c.noWarden = failView c :=
  forL_induct (fun d => failView d = failView c) (fun _ _ hd => failView_fixCmd.trans hd) _ rfl

theorem failView_doeError : failView c.doeError = failView c := by
  unfold Core.doeError
  split
  · have wr {d a v} (hd : failView d = failView c) (h : a ∉ [hif 0x20C, wrd 0x200, rsv 0x200] := by decide) :
        failView (d.wr a v) = failView c := (failView_wr h).trans hd
    refine cn_induct (P := fun d => failView d = failView c) (fun v => ?_) ?_
    · exact wr (wr (wr (wr (wr rfl))))
    · exact wr (wr (wr (wr rfl)))
  · rfl

end FailView

section Fail

variable {c : Core} {cause : Nat}

/-- An automatic restart follows a failure of this cause, where the limit allows it. -/
def autoRestart (c : Core) (cause : Nat) : Bool := decide (cause ≤ 3) && c.gb (wrd 0x40) 1
/-- The limit of automatic restarts is reached (R418). -/
def restartLimit (c : Core) (cause : Nat) : Bool := autoRestart c cause && decide (3 ≤ c.recentRestarts.length)

/-- FAILED shown with its cause, its count, its event and its frame, and the planes frozen. -/
def failShown (c : Core) (cause : Nat) : Core :=
  let d := (((c.setW 4).sf (wrd 0x200) 4 3 (if restartLimit c cause then 5 else cause)).cn (wrd 0x504) 1).ev (wrd 0x400) (bit 1)
  (d.wr (wrd 0x20C) (BitVec.ofNat 32 d.frame)).sb (rsv 0x200) 7 true

/-- Requests, commands and reports ended as the Warden fails (R263, R388, R400). -/
def failEnded (d : Core) : Core := (if d.commitDue then d else d.failReq).noWarden.doeError

theorem wardenFail_eq : c.wardenFail cause =
    let d := failEnded (failShown c cause)
    Core.showRestarts { d with wrdS := { d.wrdS with
      fw := none, cap := none, left := none, staging := false
      hold := if autoRestart c cause && !restartLimit c cause then some 8 else none
      ledger := d.wrdS.ledger.filter (·.isNone)
      attest := d.wrdS.attest.filter (·.1.isNone) } } := rfl

theorem failView_failEnded : failView (failEnded c) = failView c := by
  have h : failView (if c.commitDue then c else c.failReq) = failView c := by
    split
    · rfl
    · exact failView_failReq
  rw [failEnded, failView_doeError, failView_noWarden, h]

theorem wState_failShown : (failShown c cause).wState = 4 := by
  have h : (failShown c cause).rd (hif 0x20C) = (c.setW 4).rd (hif 0x20C) := by
    rw [failShown, rd_sb_ne _ _ (by decide), rd_wr_ne _ (by decide), rd_ev_ne _ (by decide), rd_cn_ne _ (by decide),
      rd_sf_ne _ _ _ (by decide)]
  rw [wState_congr h, wState_setW (by decide)]

theorem cause_failShown (hc : cause < 8) :
    (failShown c cause).gf (wrd 0x200) 4 3 = if restartLimit c cause then 5 else cause := by
  have h : (failShown c cause).rd (wrd 0x200) =
      ((c.setW 4).sf (wrd 0x200) 4 3 (if restartLimit c cause then 5 else cause)).rd (wrd 0x200) := by
    rw [failShown, rd_sb_ne _ _ (by decide), rd_wr_ne _ (by decide), rd_ev_ne _ (by decide), rd_cn_ne _ (by decide)]
  rw [gf_congr h, Core.gf_sf _ _ _ _ _ (by decide)]
  split
  · rfl
  · exact Nat.mod_eq_of_lt hc

theorem frozen_failShown : (failShown c cause).gb (rsv 0x200) 7 = true := by
  rw [failShown, gb_sb (by decide), if_pos rfl]

/-- What a failure shows is there once its requests and commands have ended, WRD_STATE with RESTARTS_60S beside it. -/
theorem shown_wardenFail (hc : cause < 8) :
    (c.wardenFail cause).wState = 4 ∧
      (c.wardenFail cause).gf (wrd 0x200) 4 3 = (if restartLimit c cause then 5 else cause) ∧
      (c.wardenFail cause).gb (rsv 0x200) 7 = true := by
  have hv := failView_failEnded (c := failShown c cause)
  simp only [failView, Prod.mk.injEq] at hv
  obtain ⟨hstate, hcause, hfrozen⟩ := hv
  rw [wardenFail_eq]
  generalize failEnded (failShown c cause) = d at *
  refine ⟨?_, ?_, ?_⟩
  · exact (wState_congr ((rd_sf_ne _ _ _ (by decide)).trans hstate)).trans wState_failShown
  · rw [Core.showRestarts, Core.gf, Core.rd_sf, if_pos rfl, fld_setFld_ne (.inl (by decide))]
    exact (gf_congr hcause 4 3).trans (cause_failShown hc)
  · exact (gb_congr (rd_sf_ne _ _ _ (by decide)) 7).trans (hfrozen.trans frozen_failShown)

theorem ended_wardenFail : (c.wardenFail cause).wrdS.fw = none ∧ (c.wardenFail cause).wrdS.cap = none ∧
    (c.wardenFail cause).wrdS.hold = if autoRestart c cause && !restartLimit c cause then some 8 else none := by
  rw [wardenFail_eq]
  exact ⟨rfl, rfl, rfl⟩

end Fail

/-! ## Restarts (R418, R419, R420) -/

section Restarts

variable {c : Core} {m : List Host.Cell}

/-- The block that restarts from the running copy once its hold has ended. -/
def restartBegun (c : Core) : Core :=
  Core.showRestarts { c with wrdS := { c.wrdS with
    hold := none, left := some 40, staging := false, restarts := c.levS.frames :: c.recentRestarts } }

theorem holdEnd_of_due (h : c.wState = 4) (hh : c.wrdS.hold = some 0) : c.holdEnd = (restartBegun c).setW 5 := if_pos ⟨h, hh⟩
theorem holdEnd_of_holds (h : c.wrdS.hold ≠ some 0) : c.holdEnd = c := if_neg fun hif => h hif.2

/-- The block that restarts from the staging copy. -/
def updateBegun (c : Core) : Core :=
  { c with wrdS := { c.wrdS with staging := true, left := some 40 } }.sb (wrd 0xB04) 8 true

theorem wardenRestart_of_verified {q : FwJob} (hq : c.wrdS.fw = some q) (hv : q.verified = true) (h : c.wState = 2) :
    c.wardenRestart = (updateBegun c).setW 5 := by
  unfold Core.wardenRestart
  rw [hq]
  exact if_pos (by simp [hv, h])

theorem wardenRestart_of_notRunning (h : c.wState ≠ 2) : c.wardenRestart = c := by
  unfold Core.wardenRestart
  split
  · exact if_neg (by simp [h])
  · rfl

theorem restartDone_of_notRestarting (h : c.wState ≠ 5) : c.restartDone m = (c, []) := if_pos h

/-- From the running copy a restart that verifies reaches RUNNING. -/
theorem restartDone_of_running (h : c.wState = 5) (hs : c.wrdS.staging = false) (hq : c.wrdS.fw = none) :
    c.restartDone m = (if (c.copyCode m).1 = 0 then (c.showImage (c.copyCode m).2).reachRunning true else c, []) := by
  rw [Core.restartDone, if_neg (not_not_intro h)]
  by_cases hc : (c.copyCode m).1 = 0
  · simp only [hc, hs, hq, ne_eq, not_true_eq_false, if_false, if_true, Bool.false_eq_true]
  · simp only [hc, ne_eq, not_false_eq_true, if_true, if_false]

theorem restartFail_of_notRestarting (h : c.wState ≠ 5) : c.restartFail m = c := if_pos h

theorem restartFail_of_timeout (h : c.wState = 5) (hl : c.wrdS.left = some 0) (hs : c.wrdS.staging = false) :
    c.restartFail m = c.wardenFail 4 := by
  simp [Core.restartFail, h, hl, hs]

theorem restartFail_of_running (h : c.wState = 5) (hl : c.wrdS.left ≠ some 0) (hs : c.wrdS.staging = false) :
    c.restartFail m = if (c.copyCode m).1 = 0 then c else c.wardenFail 4 := by
  simp [Core.restartFail, h, hl, hs]

theorem restartFail_of_staging {q : FwJob} (h : c.wState = 5) (hl : c.wrdS.left = some 0) (hs : c.wrdS.staging = true)
    (hq : c.wrdS.fw = some q) : c.restartFail m =
      ({ c with wrdS := { c.wrdS with fw := none, staging := false, left := some 40 } }.cn (wrd 0x50C) 1).fixCmd q.cmd stRefused
        (le 4 (fieldAt q.bytes 8 4) ++ le 1 (c.copyCode m).1) := by
  simp [Core.restartFail, h, hl, hs, hq]

end Restarts

/-! ## Test access (R432) -/

section TestAccess

variable {c : Core}

theorem jtag_of_open (hs : c.sealed = false) (hu : c.gb (keyR 0x200) 7 = false) :
    c.jtag (.priv true) = (c.sb (keyR 0x200) 7 true).showFuses := if_neg (by simp [hs, hu])

theorem jtag_of_sealed (hs : c.sealed = true) (i : TapInstr) : c.jtag i = c := by
  unfold Core.jtag
  split
  · exact if_pos (by simp [hs])
  · rfl

theorem jtag_of_other {i : TapInstr} (hi : i ≠ .priv true) : c.jtag i = c := by
  unfold Core.jtag
  split
  · exact absurd rfl hi
  · rfl

/-- TEST_USED stays in KEY_MODE as the fuses are shown, and DEV_KEY follows it. -/
theorem testUsed_showFuses (h : c.gb (keyR 0x200) 7 = true) :
    c.showFuses.gb (keyR 0x200) 7 = true ∧ c.showFuses.gb (dev 0x20C) 3 = true := by
  constructor
  · have hk : c.showFuses.rd (keyR 0x200) = keyMode c := by
      obtain ⟨w, hw | hw⟩ := showFuses_cases (c := c)
      · rw [hw, rd_wr_ne _ (by decide), keyMode_showKeys]
      · rw [hw, rd_ev_ne _ (by decide), rd_wr_ne _ (by decide), keyMode_showKeys]
    rw [Core.gb, hk, keyMode, if_pos h, bitOf_eq, BitVec.getLsbD_or, getLsbD_bit]
    simp
  · unfold Core.showFuses
    dsimp only
    split
    · rw [Core.gb, Core.rd_wr, if_pos rfl, bitOf_eq, getLsbD_bitsWhere, h]
      rfl
    · rw [gb_congr (rd_ev_ne _ (by decide)), Core.gb, Core.rd_wr, if_pos rfl, bitOf_eq, getLsbD_bitsWhere, h]
      rfl

end TestAccess

/-- Settles O55, command by command: a state entered by `shown_setW`, a failure by `shown_wardenFail`, restarts by their equations. -/
theorem theWardenChangesStates : Obligations.TheWardenChangesStates := by
  unfold Obligations.TheWardenChangesStates
  intro c
  have hsleep (s) : exec .wardenSleep s = s.on (·.wardenSleep) := rfl
  have hrestart (s) : exec .wardenRestart s = s.on (·.wardenRestart) := rfl
  have hkick (s) : exec .watchdogKick s = s.on (·.kick) := rfl
  have hwake (k s) : exec (.wardenWake k) s = s.on (·.wakeWarden k.val) := rfl
  have hhalf (s) : exec .watchdogHalfWake s = s.on (·.halfWake) := rfl
  have htimer (s) : exec .wakeTimer s = s.on (·.wakeTimer) := rfl
  have hexpire (s) : exec .watchdogExpire s = s.on (·.wdtExpire) := rfl
  have hfail1 (s) : exec (.wardenFail 1) s = s.on (·.wdtExpire) := rfl
  have hfail2 (s) : exec (.wardenFail 2) s = s.on (·.wardenReset) := rfl
  have hfail3 (s) : exec (.wardenFail 3) s = s.on fun c => if c.wDown then c else c.wardenFail 3 := rfl
  have hhold (s) : exec .restartHoldEnd s = s.on (·.holdEnd) := rfl
  have hverify (s) : exec .restartVerifyEnd s = s.onMem (·.restartDone ·) := rfl
  have htimeout (s) : exec .restartTimeout s = s.onMem fun c m => (c.restartFail m, []) := rfl
  have hjtag (i s) : exec (.jtagInstruction i) s = s.on (·.jtag i) := rfl
  have verify {m d} (h : c.restartDone m = (d, [])) : GoesMem .restartVerifyEnd c m d [] :=
    goesMem_of_onMem hverify h (Core.rewrote_nil d)
  have timeout {m d} (h : c.restartFail m = d) : GoesMem .restartTimeout c m d [] :=
    goesMem_of_onMem htimeout (congrArg (·, []) h) (Core.rewrote_nil d)
  have up (h : c.wState = 2 ∨ c.wState = 3) : c.wDown = false := by
    rcases h with h | h <;> rw [wDown_of_wState h] <;> rfl
  refine ⟨fun b n hb hn => ⟨wState_setW hn, shown_setW hb hn⟩, fun h hc hr ht hl he => ?_, fun h => ?_, fun h => ⟨?_, ?_, ?_⟩,
    fun k h => ?_, fun h => ⟨fun k => ?_, ?_, ?_⟩, fun h => ?_, fun h => ?_, fun h => ⟨?_, ?_⟩, fun ha hp hz => ⟨?_, ?_⟩,
    fun hz => ⟨?_, ?_⟩, fun h hz => ?_, fun hz => ?_, fun h hr => ?_, fun h hz ht => ?_, fun h hh => ?_, fun h => ?_,
    fun q hq hv h => ?_, fun m h => ⟨?_, ?_⟩, fun m h hs hq => ?_, fun m h hl hs => ?_, fun m h hl hs => ?_,
    fun m q h hl hs hq => ?_, fun hs hu => ?_, fun hs i => ?_, fun i hi => ?_⟩
  · exact goes_of_on hsleep (wardenSleep_of_due ⟨h, hc, hr, ht, hl, he⟩)
  · refine goes_of_on hsleep (wardenSleep_of_notDue ?_)
    rintro ⟨-, hc, hr, ht, hl, he⟩
    rcases h with h | h | h | h | h
    · exact h hc
    · simp [hr] at h
    · exact ht h
    · exact h hl
    · simp [he] at h
  · exact goes_of_on hsleep (wardenSleep_of_notDue fun hd => h hd.1)
  · exact goes_of_on hrestart (wardenRestart_of_notRunning h)
  · exact goes_of_on hkick (kick_of_not (.inl h))
  · exact goes_of_on (hwake k) (wakeWarden_of_asleep h)
  · exact goes_of_on (hwake k) (wakeWarden_of_notAsleep h)
  · exact goes_of_on hhalf (timerWake_of_notAsleep h)
  · exact goes_of_on htimer (timerWake_of_notAsleep h)
  · refine reaches_of_on hfail3 ?_
    rw [if_neg (by simp [up h])]
    obtain ⟨hstate, hcause, hfrozen⟩ := shown_wardenFail (c := c) (cause := 3) (by decide)
    obtain ⟨hfw, hcap, hhold⟩ := ended_wardenFail (c := c) (cause := 3)
    exact ⟨hstate, hcause, hfrozen, hfw, hcap, hhold⟩
  · exact goes_of_on hfail2 (if_neg (by simp [up h]))
  · exact goes_of_on hfail2 (if_pos h)
  · exact goes_of_on hfail3 (if_pos h)
  · exact goes_of_on hexpire (wdtExpire_of_zero ha hp hz)
  · exact goes_of_on hfail1 (wdtExpire_of_zero ha hp hz)
  · exact goes_of_on hexpire (wdtExpire_of_nonzero hz)
  · exact goes_of_on hfail1 (wdtExpire_of_nonzero hz)
  · exact goes_of_on hkick (kick_of_running h hz)
  · exact goes_of_on hkick (kick_of_not (.inr hz))
  · exact goes_of_on hhalf (timerWake_of_due (decide_eq_true (halfPeriod_eq.trans_le hr)) h)
  · exact goes_of_on htimer (timerWake_of_due (Bool.and_eq_true_iff.mpr ⟨decide_eq_true hz, decide_eq_true ht⟩) h)
  · refine reaches_of_on hhold ?_
    rw [holdEnd_of_due h hh, wState_setW (by decide), wrdS_setW]
    exact ⟨rfl, rfl, rfl, rfl, rfl⟩
  · exact goes_of_on hhold (holdEnd_of_holds h)
  · refine reaches_of_on hrestart ?_
    rw [wardenRestart_of_verified hq hv h, wState_setW (by decide), wrdS_setW, gb_congr (rd_setW (by decide)), updateBegun,
      gb_sb (by decide), if_pos rfl]
    exact ⟨rfl, rfl, rfl, rfl⟩
  · exact verify (restartDone_of_notRestarting h)
  · exact timeout (restartFail_of_notRestarting h)
  · exact verify (restartDone_of_running h hs hq)
  · exact timeout (restartFail_of_timeout h hl hs)
  · exact timeout (restartFail_of_running h hl hs)
  · exact timeout (restartFail_of_staging h hl hs hq)
  · refine reaches_of_on (hjtag _) ?_
    rw [jtag_of_open hs hu]
    exact testUsed_showFuses ((gb_sb (by decide)).trans (if_pos rfl))
  · exact goes_of_on (hjtag i) (jtag_of_sealed hs i)
  · exact goes_of_on (hjtag i) (jtag_of_other hi)

end Sys2Proof.Proofs

/-! The obligations of the register pages (chapter 2): the queue, host accesses and the rules of each field kind, pages enabled and reset, the
guarded fallback, snapshots, table parity, and block and island resets; with the PRBS pairs of chapter 6. -/

namespace Sys2Proof.Proofs

open Sys2Proof Sys2Proof.Machine Sys2Proof.Safety

/-! ## One command, one step -/

/-- Every command completes, and its meaning is one of the block and the HBM: the queue is as it was. -/
theorem exec_keeps_pending (i : Instr) (s : State) : ∃ c m, exec i s = .next { core := c, hbm := m, pending := s.pending } := by
  cases i <;> exact ⟨_, _, rfl⟩

theorem step_of_cons {s : State} {i : Instr} {rest : List Instr} (h : s.pending = i :: rest) :
    step s = exec i { s with pending := rest } := by
  rw [step, h]

theorem step_of_nil {s : State} (h : s.pending = []) : step s = .next s := by
  rw [step, h]

/-- Settles O1: the two cases of `step`. -/
theorem aStepRunsTheFrontCommand : Obligations.AStepRunsTheFrontCommand := by
  unfold Obligations.AStepRunsTheFrontCommand
  exact fun s => ⟨fun i rest h => step_of_cons h, step_of_nil⟩

/-- Settles O2: the queue loses its front command in `step`, and no command's meaning touches what is left of it. -/
theorem everyCommandCompletesAndLeavesTheQueueInOrder : Obligations.EveryCommandCompletesAndLeavesTheQueueInOrder := by
  unfold Obligations.EveryCommandCompletesAndLeavesTheQueueInOrder
  intro s
  suffices h : ∃ t, step s = .next t ∧ t.pending = s.pending.tail by
    obtain ⟨t, hs, ht⟩ := h
    refine ⟨⟨t, hs⟩, fun u hu => ?_⟩
    rw [hs] at hu
    cases hu
    exact ht
  cases hp : s.pending with
  | nil => exact ⟨s, step_of_nil hp, hp⟩
  | cons i rest =>
    obtain ⟨c, m, he⟩ := exec_keeps_pending i { s with pending := rest }
    exact ⟨_, (step_of_cons hp).trans he, rfl⟩

/-! ## Pages and their registers -/

section Pages

variable {s o a k : Nat}

theorem pg_div (ho : o < 0x1000) : (pg s + o) / 0x1000 = s := by simp only [pg]; omega
theorem pg_mod (ho : o < 0x1000) : (pg s + o) % 0x1000 = o := by simp only [pg]; omega

/-- Every slot from 0x20 on is a port's (Table 18-1). -/
theorem pageKind_of_port (h : 0x20 ≤ s) (hs : s < 0x80) : pageKind s = some .pe :=
  (by decide : ∀ s < 0x80, 0x20 ≤ s → pageKind s = some .pe) s hs h

theorem notPrivileged_of_high (h : 0x16 ≤ s) : privileged s = false := by
  unfold privileged
  simp only [Bool.or_eq_false_iff, decide_eq_false_iff_not]
  omega

/-- Slots 0x16 to 0x1F carry no page (R35). -/
theorem pageKind_of_unassigned (h : 0x16 ≤ s) (hs : s ≤ 0x1F) : pageKind s = none :=
  (by decide : ∀ s < 0x20, 0x16 ≤ s → pageKind s = none) s (by omega) h

theorem pageKind_of_privileged (h : privileged s = true) : (pageKind s).isSome = true := by
  simp only [privileged, Bool.or_eq_true, decide_eq_true_eq] at h
  rcases h with (rfl | rfl) | rfl <;> rfl

theorem regRow_of_page {p : PageKind} (hp : pageKind s = some p) (ho : o % 4 = 0) : regRow s o = findRow p o := by
  rw [regRow, if_pos ho, hp, Option.bind_some]

/-- The reserved bits of a register, by its row. -/
theorem rvOf_of_row {r : Row} (h : regRow (a / 0x1000) (a % 0x1000) = some r) : rvOf a = r.rv := by rw [rvOf, h]

end Pages

/-! ## A host access that takes effect at once (R36) -/

section Access

variable {i : Instr} {c d : Core} {x : HostAcc} {r : LinkResp} {a : Nat} {v : Word} {left : Nat}

/-- With nothing to wait for, an access has its effect and its completion is sent. -/
theorem answers_of_access (hi : ∀ s, exec i s = s.on (·.access x)) (hl : c.gb (hif 0x200) 0 = true) (hb : c.blocked = [])
    (hs : c.snapping = false) (hn : (Arrives c).needs x = none) (hp : (Arrives c).perform x = (d, r)) : Answers i c d r := by
  refine goes_of_on hi ?_
  have hblk : (Arrives c).blocked = [] := hb
  have hhold : (Arrives c).holds x = false := by
    have h : (Arrives c).snapping = false := hs
    simp [Core.holds, h]
  change (if !c.gb (hif 0x200) 0 then c.send .noLink else ((Arrives c).serve x).msi) = _
  rw [hl, Bool.not_true, if_neg Bool.false_ne_true, Core.serve, if_neg (by simp [hblk, hhold]), hn]
  simp only [hp]

theorem span_wr (ha : a < 0x80000) : (HostAcc.wr a v left).span = (false, a, 1, false) := by
  simp [HostAcc.span, Nat.not_le.mpr ha, Nat.mod_eq_of_lt ha]
theorem span_rd (ha : a < 0x80000) : (HostAcc.rd a).span = (false, a, 1, true) := by
  simp [HostAcc.span, Nat.not_le.mpr ha, Nat.mod_eq_of_lt ha]
theorem span_rd64 (ha : a < 0x80000) : (HostAcc.rd64 a).span = (false, a, 2, true) := by
  simp [HostAcc.span, Nat.not_le.mpr ha, Nat.mod_eq_of_lt ha]
theorem span_odd {n : Nat} {w : Bool} (ha : a < 0x80000) : (HostAcc.odd false a n w).span = (false, a, 1, !w) := by
  simp [HostAcc.span, Nat.not_le.mpr ha, Nat.mod_eq_of_lt ha]

/-- An access that needs the island of a page that is on waits for nothing (R37). -/
theorem needs_of_up (h : d.islandUp (if x.span.1 then 3 else islandOf (x.span.2.1 / 0x1000)) = true) : d.needs x = none := by
  simp [Core.needs, h]

/-- Nor does an access that no island serves: to no page, or to a privileged one (R35, R50). -/
theorem needs_of_noPage (hx : x.span.1 = false) (h : pageKind (x.span.2.1 / 0x1000) = none ∨ privileged (x.span.2.1 / 0x1000) = true) :
    d.needs x = none := by
  rcases h with h | h <;> simp [Core.needs, hx, h]

/-- Nor does an access to the common registers, which lie in the register fabric (R37). -/
theorem needs_of_common (hx : x.span.1 = false) (h : x.span.2.1 % 0x1000 + 4 * x.span.2.2.1 ≤ 0x14 + x.span.2.1 % 4) :
    d.needs x = none := by
  simp [Core.needs, hx, h]

/-! ### Accesses that no page takes -/

theorem hostWrite_of_noPage (h : pageKind (a / 0x1000) = none) : d.hostWrite a v left = (d, .abort) := by simp [Core.hostWrite, h]
theorem hostRead_of_noPage (h : pageKind (a / 0x1000) = none) : d.hostRead a = (d, .abort) := by simp [Core.hostRead, h]

/-- An access of another form to no page is aborted too (R57). -/
theorem oddAcc_of_noPage {n : Nat} {w : Bool} (ha : a < 0x80000) (h : pageKind (a / 0x1000) = none) :
    d.oddAcc false a n w = (d, .abort) := by
  simp [Core.oddAcc, Nat.not_le.mpr ha, h]

/-- An access of another form to BAR2, the bit window, is aborted, and reported where it names a privileged page (R50, R60). -/
theorem oddAcc_of_alias {n : Nat} {w : Bool} (h : privileged (aliasReg a / 0x1000) = false) : d.oddAcc true a n w = (d, .abort) := by
  simp [Core.oddAcc, h]

theorem bitRead_of_noPage (h : pageKind (aliasReg a / 0x1000) = none) : d.bitRead a = (d, .abort) := by simp [Core.bitRead, h]
theorem bitWrite_of_noPage (h : pageKind (aliasReg a / 0x1000) = none) : d.bitWrite a v left = (d, .abort) := by
  simp [Core.bitWrite, h]

/-- Any access to BAR0 whose slot carries no page is aborted (R35). -/
theorem perform_wr_of_noPage (ha : a < 0x80000) (h : pageKind (a / 0x1000) = none) : d.perform (.wr a v left) = (d, .abort) := by
  simp [Core.perform, oddAcc_of_noPage ha h, hostWrite_of_noPage h, Nat.not_le.mpr ha]

theorem perform_rd_of_noPage (ha : a < 0x80000) (h : pageKind (a / 0x1000) = none) : d.perform (.rd a) = (d, .abort) := by
  simp [Core.perform, oddAcc_of_noPage ha h, hostRead_of_noPage h, Nat.not_le.mpr ha]

theorem perform_rd64_of_noPage (ha : a < 0x80000) (h : pageKind (a / 0x1000) = none) : d.perform (.rd64 a) = (d, .abort) := by
  by_cases h8 : a % 8 = 0
  · have h4 : pageKind ((a + 4) / 0x1000) = none := by rwa [show (a + 4) / 0x1000 = a / 0x1000 by omega]
    simp [Core.perform, h8, Nat.not_le.mpr ha, hostRead_of_noPage h, hostRead_of_noPage h4]
  · simp [Core.perform, h8, oddAcc_of_noPage ha h]

/-! ### Accesses that a page takes -/

theorem perform_wr_of_page (h4 : a % 4 = 0) (ha : a < 0x80000) (hk : (pageKind (a / 0x1000)).isSome = true)
    (hp : privileged (a / 0x1000) = false) : d.perform (.wr a v left) = (d.regWrite a v all32 left, .done) := by
  simp [Core.perform, Core.hostWrite, h4, Nat.not_le.mpr ha, Option.isNone_eq_false_iff.mpr hk, hp]

theorem hostRead_of_page (hk : (pageKind (a / 0x1000)).isSome = true) (hp : privileged (a / 0x1000) = false) :
    d.hostRead a = ((d.readEffect a).used a, .data (d.view a)) := by
  simp [Core.hostRead, Option.isNone_eq_false_iff.mpr hk, hp]

theorem perform_rd_of_page (h4 : a % 4 = 0) (ha : a < 0x80000) (hk : (pageKind (a / 0x1000)).isSome = true)
    (hp : privileged (a / 0x1000) = false) : d.perform (.rd a) = ((d.readEffect a).used a, .data (d.view a)) := by
  simp [Core.perform, h4, Nat.not_le.mpr ha, hostRead_of_page hk hp]

theorem bitRead_of_page (h4 : a % 4 = 0) (hk : (pageKind (aliasReg a / 0x1000)).isSome = true)
    (hp : privileged (aliasReg a / 0x1000) = false) :
    d.bitRead a = (d.used (aliasReg a), .data (if bitOf (d.view (aliasReg a)) (aliasBit a) then 1 else 0)) := by
  simp [Core.bitRead, h4, Option.isNone_eq_false_iff.mpr hk, hp]

/-- A full 32-bit write to a page that is reached answers at once. -/
theorem answers_write (hi : ∀ s, exec i s = s.on (·.access (.wr a v left))) (h4 : a % 4 = 0) (ha : a < 0x80000)
    (ho : Open c (islandOf (a / 0x1000))) (hk : (pageKind (a / 0x1000)).isSome = true) (hp : privileged (a / 0x1000) = false)
    (hd : (Arrives c).regWrite a v all32 left = d) : Answers i c d .done := by
  obtain ⟨hl, hb, hs, hu⟩ := ho
  refine answers_of_access hi hl hb hs (needs_of_up ?_) ((perform_wr_of_page h4 ha hk hp).trans (by rw [hd]))
  rw [span_wr ha]
  exact hu

/-- A full 32-bit read answers what the register shows, and has the register's read effect. -/
theorem answers_read (hi : ∀ s, exec i s = s.on (·.access (.rd a))) (h4 : a % 4 = 0) (ha : a < 0x80000)
    (ho : Open c (islandOf (a / 0x1000))) (hk : (pageKind (a / 0x1000)).isSome = true) (hp : privileged (a / 0x1000) = false)
    (hd : (Arrives c).readEffect a = d) : Answers i c (d.used a) (.data ((Arrives c).view a)) := by
  obtain ⟨hl, hb, hs, hu⟩ := ho
  refine answers_of_access hi hl hb hs (needs_of_up ?_) ((perform_rd_of_page h4 ha hk hp).trans (by rw [hd]))
  rw [span_rd ha]
  exact hu

/-- A read of the bit window answers its bit. -/
theorem answers_aliasRead {x : BitVec 24} (h4 : x.toNat % 4 = 0) (ho : Open c (islandOf (aliasReg x.toNat / 0x1000)))
    (hk : (pageKind (aliasReg x.toNat / 0x1000)).isSome = true) (hp : privileged (aliasReg x.toNat / 0x1000) = false) :
    Answers (.aliasRead x) c ((Arrives c).used (aliasReg x.toNat))
      (.data (if bitOf ((Arrives c).view (aliasReg x.toNat)) (aliasBit x.toNat) then 1 else 0)) := by
  obtain ⟨hl, hb, hs, hu⟩ := ho
  exact answers_of_access (fun _ => rfl) hl hb hs (needs_of_up hu) (bitRead_of_page h4 hk hp)

end Access

/-! ## Unassigned slots (R35) -/

section Unassigned

variable {i : Instr} {c : Core} {x : HostAcc} {a : Nat} {v : Word} {left : Nat}

theorem answers_wr_of_noPage (hi : ∀ s, exec i s = s.on (·.access (.wr a v left))) (hl : c.gb (hif 0x200) 0 = true) (hb : c.blocked = [])
    (hs : c.snapping = false) (ha : a < 0x80000) (hk : pageKind (a / 0x1000) = none) : Answers i c (Arrives c) .abort :=
  answers_of_access hi hl hb hs (needs_of_noPage (by rw [span_wr ha]) (.inl (by rw [span_wr ha]; exact hk))) (perform_wr_of_noPage ha hk)

theorem answers_rd_of_noPage (hi : ∀ s, exec i s = s.on (·.access (.rd a))) (hl : c.gb (hif 0x200) 0 = true) (hb : c.blocked = [])
    (hs : c.snapping = false) (ha : a < 0x80000) (hk : pageKind (a / 0x1000) = none) : Answers i c (Arrives c) .abort :=
  answers_of_access hi hl hb hs (needs_of_noPage (by rw [span_rd ha]) (.inl (by rw [span_rd ha]; exact hk))) (perform_rd_of_noPage ha hk)

theorem answers_rd64_of_noPage (hi : ∀ s, exec i s = s.on (·.access (.rd64 a))) (hl : c.gb (hif 0x200) 0 = true) (hb : c.blocked = [])
    (hs : c.snapping = false) (ha : a < 0x80000) (hk : pageKind (a / 0x1000) = none) : Answers i c (Arrives c) .abort :=
  answers_of_access hi hl hb hs (needs_of_noPage (by rw [span_rd64 ha]) (.inl (by rw [span_rd64 ha]; exact hk)))
    (perform_rd64_of_noPage ha hk)

/-- The row of an access to an unassigned slot is the write or the read that it names, at an address of one. -/
theorem exec_unassignedSlotAccess {a : BitVec 20} (w : Bool) (ha : a.toNat < 0x80000) (hk : pageKind (a.toNat / 0x1000) = none) (s : State) :
    exec (.unassignedSlotAccess a w) s = s.on (·.access (if w then .wr a.toNat 0 8 else .rd a.toNat)) := by
  change execUnassignedSlotAccess a w s = _
  simp only [execUnassignedSlotAccess, ha, hk, Option.isNone_none, and_self, if_true]

theorem answers_unassigned {a : BitVec 20} (w : Bool) (hl : c.gb (hif 0x200) 0 = true) (hb : c.blocked = []) (hs : c.snapping = false)
    (ha : a.toNat < 0x80000) (hk : pageKind (a.toNat / 0x1000) = none) : Answers (.unassignedSlotAccess a w) c (Arrives c) .abort := by
  cases w with
  | true => exact answers_wr_of_noPage (exec_unassignedSlotAccess true ha hk) hl hb hs ha hk
  | false => exact answers_rd_of_noPage (exec_unassignedSlotAccess false ha hk) hl hb hs ha hk

/-- Settles O5: in each form the access needs no island and finds no page. -/
theorem unassignedSlotsAbort : Obligations.UnassignedSlotsAbort := by
  unfold Obligations.UnassignedSlotsAbort
  intro c hl hb hs
  refine ⟨fun a w v left h h' => ?_, fun x v left h h' => ?_, fun x h => ?_⟩
  · have ha : a.toNat < 0x80000 := by omega
    have hk := pageKind_of_unassigned h h'
    refine ⟨answers_unassigned w hl hb hs ha hk, answers_wr_of_noPage (fun _ => rfl) hl hb hs ha hk,
      answers_rd_of_noPage (fun _ => rfl) hl hb hs ha hk, answers_rd_of_noPage (fun _ => rfl) hl hb hs ha hk, ?_⟩
    cases w with
    | true => exact answers_rd64_of_noPage (fun _ => rfl) hl hb hs ha hk
    | false => exact answers_rd_of_noPage (fun _ => rfl) hl hb hs ha hk
  · have hk := pageKind_of_unassigned h h'
    exact ⟨answers_of_access (x := .rdAlias x.toNat) (fun _ => rfl) hl hb hs (needs_of_noPage rfl (.inl hk)) (bitRead_of_noPage hk),
      answers_of_access (x := .wrAlias x.toNat v left) (fun _ => rfl) hl hb hs (needs_of_noPage rfl (.inl hk)) (bitWrite_of_noPage hk)⟩
  · obtain ⟨bar2, addr, n, w⟩ := x
    cases bar2 with
    | true =>
      exact answers_of_access (x := .odd true addr.toNat n w) (fun _ => rfl) hl hb hs (needs_of_common rfl (by simp [HostAcc.span]))
        (oddAcc_of_alias (n := n) (w := w) (notPrivileged_of_high h.1))
    | false =>
      obtain ⟨h, h'⟩ : 0x16 ≤ addr.toNat / 0x1000 ∧ addr.toNat / 0x1000 ≤ 0x1F := h
      have ha : addr.toNat < 0x80000 := by omega
      have hk := pageKind_of_unassigned h h'
      exact answers_of_access (x := .odd false addr.toNat n w) (fun _ => rfl) hl hb hs
        (needs_of_noPage (by rw [span_odd ha]) (.inl (by rw [span_odd ha]; exact hk))) (oddAcc_of_noPage ha hk)

end Unassigned

/-! ## The bit window (R60) -/

theorem aliasReg_word {n b : Nat} (hb : b < 32) : aliasReg ((n * 32 + b) * 4) = 4 * n := by unfold aliasReg; omega
theorem aliasBit_word {n b : Nat} (hb : b < 32) : aliasBit ((n * 32 + b) * 4) = b := by unfold aliasBit; omega

/-- Settles O6: the number of the word splits into register and bit, and its read is `answers_aliasRead`. -/
theorem aliasWordsNameTheirBits : Obligations.AliasWordsNameTheirBits := by
  unfold Obligations.AliasWordsNameTheirBits
  intro n b hn hb
  have hx : (BitVec.ofNat 24 ((n * 32 + b) * 4)).toNat = (n * 32 + b) * 4 := by rw [BitVec.toNat_ofNat]; omega
  refine ⟨by omega, by omega, aliasReg_word hb, aliasBit_word hb, fun c ho hk hp => ?_⟩
  have h := answers_aliasRead (c := c) (x := BitVec.ofNat 24 ((n * 32 + b) * 4)) (by omega)
  rw [hx, aliasReg_word hb, aliasBit_word hb] at h
  exact h ho hk hp
/-! ## Writes under the rules of the field kinds (R41, R45, R48) -/

section Writes

variable {i : Instr} {c d : Core} {a s o left : Nat} {v m : Word} {r : Row}

/-- A write that does not change the reserved bits it addresses, or the record of one that does (R48). -/
def rvNoted (d : Core) (a : Nat) (v m : Word) : Core := if (v ^^^ d.view a) &&& rvOf a &&& m = 0 then d else d.ign a 6

/-- The bits that a write stores of those it addresses: of a register's software fields all but command bits, bits that read zero and
EN, and in open mode its reserved bits (R48). -/
def storedBits (d : Core) (r : Row) (o : Nat) (m : Word) : Word :=
  ((r.cf ||| r.ct) &&& m &&& ~~~(r.cmd ||| r.zero ||| if o = 4 then 1 else 0)) ||| (if d.sealed then 0 else r.rv &&& m)

/-- A write that its register's kinds permit (Table 2-9). -/
def Permitted (r : Row) (m : Word) : Prop :=
  ¬if m = all32 then r.cf ||| r.ct ||| r.cn ||| r.gd = 0 else m &&& (r.lv ||| r.ev ||| r.hd ||| r.ro ||| r.cn) ≠ 0

/-- A register that takes writes as it stands: no CFG area of an enabled page, no unit held by a job, no staged entry in sealed mode. -/
def Unlocked (d : Core) (r : Row) (s o : Nat) (m : Word) : Prop :=
  ¬(0x40 ≤ o ∧ o < 0x200 ∧ (r.cf ||| r.ct) &&& m ≠ 0 ∧ d.cfgLocked s = true) ∧ d.cuHolds s o = false ∧
    (s = 8 && decide (0xB40 ≤ o) && d.sealed) = false

/-- A full write finds a bit to change where the register has a CF or CT field. -/
theorem permitted_of_soft (h : r.cf ||| r.ct ≠ 0) : Permitted r all32 := by
  rw [Permitted, if_pos rfl]
  exact fun h0 => h (BitVec.or_eq_zero_iff.mp (BitVec.or_eq_zero_iff.mp h0).1).1

theorem regWrite_of_noRow (h : regRow (a / 0x1000) (a % 0x1000) = none) : d.regWrite a v m left = d.ign a 5 := by
  simp only [Core.regWrite, h]

theorem regWrite_of_notPermitted (hr : regRow (a / 0x1000) (a % 0x1000) = some r) (h : ¬Permitted r m) :
    d.regWrite a v m left = d.ign a 3 := by
  simp only [Core.regWrite, hr]
  exact if_pos (.inl (not_not.mp h))

theorem regWrite_of_locked (hr : regRow (a / 0x1000) (a % 0x1000) = some r) (h : Permitted r m) (h40 : 0x40 ≤ a % 0x1000)
    (h200 : a % 0x1000 < 0x200) (hs : (r.cf ||| r.ct) &&& m ≠ 0) (hl : d.cfgLocked (a / 0x1000) = true) :
    d.regWrite a v m left = d.ign a 1 := by
  have hfix : ¬0xB40 ≤ a % 0x1000 := by omega
  simp only [Core.regWrite, hr]
  rw [if_neg (not_or.mpr ⟨h, by simp [hfix]⟩), if_pos ⟨h40, h200, hs, hl⟩]

/-- A write of software fields: a change of reserved bits recorded, the bits stored, and what the page maps give it as its effect. -/
theorem regWrite_of_soft (hr : regRow (a / 0x1000) (a % 0x1000) = some r) (hp : Permitted r m) (hl : Unlocked d r (a / 0x1000) (a % 0x1000) m)
    (hgd : r.gd = 0) (hcn : r.cn = 0) (hk : pageKind (a / 0x1000) ≠ some .ga) (hg : isGrd (a / 0x1000) (a % 0x1000) = false) :
    d.regWrite a v m left =
      (let f := rvNoted d a v m
       let k := storedBits f r (a % 0x1000) m
       (if k = 0 then f else f.stow a v k).writeEffect (a / 0x1000) (a % 0x1000) (f.rd a) (v &&& m) m left) := by
  obtain ⟨hcfg, hcu, hfix⟩ := hl
  simp only [Core.regWrite, hr]
  rw [if_neg (not_or.mpr ⟨hp, by simp [hfix]⟩), if_neg hcfg, if_neg (by simp [hcu])]
  simp [hgd, hcn, hg, hk, rvNoted, rvOf_of_row hr, storedBits]

/-- A write of a guarded-fallback register: only the target's bits are stored, and the sequence takes its step (R53). -/
theorem regWrite_of_grd (hr : regRow (a / 0x1000) (a % 0x1000) = some r) (hp : Permitted r m) (hl : Unlocked d r (a / 0x1000) (a % 0x1000) m)
    (hgd : r.gd = 0) (hcn : r.cn = 0) (hg : isGrd (a / 0x1000) (a % 0x1000) = true) :
    d.regWrite a v m left =
      (let f := rvNoted d a v m
       let k := if a % 0x1000 = 0x30 then storedBits f r (a % 0x1000) m else 0
       let g := if k = 0 then f else f.stow a v k
       if a % 0x1000 = 0x30 then g.grdTgt (a / 0x1000)
       else if a % 0x1000 = 0x34 then g.grdValue (a / 0x1000) v else g.grdApply (a / 0x1000) v) := by
  obtain ⟨hcfg, hcu, hfix⟩ := hl
  simp only [Core.regWrite, hr]
  rw [if_neg (not_or.mpr ⟨hp, by simp [hfix]⟩), if_neg hcfg, if_neg (by simp [hcu])]
  by_cases ho : a % 0x1000 = 0x30
  · rw [ho] at hg
    simp [hgd, hcn, hg, rvNoted, rvOf_of_row hr, storedBits, ho]
  · simp [hgd, hcn, hg, rvNoted, rvOf_of_row hr, ho]

theorem or_zero_word (w : Word) : w ||| 0 = w := BitVec.or_zero
theorem and_all32 (w : Word) : w &&& all32 = w := BitVec.and_allOnes

/-- A full write that changes reserved bits is recorded, a quiet one is not. -/
theorem rvNoted_full : rvNoted d a v all32 = if Quiet d a v then d else d.ign a 6 := by
  simp only [rvNoted, and_all32]

/-- A full write stores the software bits of its row and, in open mode, the reserved ones. -/
theorem regWrite_of_full {k : Word} (hr : regRow (a / 0x1000) (a % 0x1000) = some r) (hp : Permitted r all32)
    (hl : Unlocked d r (a / 0x1000) (a % 0x1000) all32) (hgd : r.gd = 0) (hcn : r.cn = 0) (hga : pageKind (a / 0x1000) ≠ some .ga)
    (hg : isGrd (a / 0x1000) (a % 0x1000) = false)
    (hk : (r.cf ||| r.ct) &&& ~~~(r.cmd ||| r.zero ||| if a % 0x1000 = 4 then 1 else 0) = k) :
    d.regWrite a v all32 left =
      (let f := if Quiet d a v then d else d.ign a 6
       (Stored f a v k).writeEffect (a / 0x1000) (a % 0x1000) (f.rd a) v all32 left) := by
  rw [regWrite_of_soft hr hp hl hgd hcn hga hg]
  simp only [rvNoted_full, Stored, storedBits, and_all32, rvOf_of_row hr, hk]

theorem regWrite_of_quiet {k : Word} (hr : regRow (a / 0x1000) (a % 0x1000) = some r) (hp : Permitted r all32)
    (hl : Unlocked d r (a / 0x1000) (a % 0x1000) all32) (hgd : r.gd = 0) (hcn : r.cn = 0) (hga : pageKind (a / 0x1000) ≠ some .ga)
    (hg : isGrd (a / 0x1000) (a % 0x1000) = false)
    (hk : (r.cf ||| r.ct) &&& ~~~(r.cmd ||| r.zero ||| if a % 0x1000 = 4 then 1 else 0) = k) (hq : Quiet d a v) :
    d.regWrite a v all32 left = (Stored d a v k).writeEffect (a / 0x1000) (a % 0x1000) (d.rd a) v all32 left := by
  rw [regWrite_of_full hr hp hl hgd hcn hga hg hk]
  simp only [if_pos hq]

theorem stored_of_ne {k : Word} (h : k ≠ 0) : Stored d a v k = d.stow a v (k ||| if d.sealed then 0 else rvOf a) := by
  have h' : k ||| (if d.sealed then 0 else rvOf a) ≠ 0 := fun h0 => h (BitVec.or_eq_zero_iff.mp h0).1
  simp only [Stored, if_neg h']

/-- Stored bits are registers, parity and copies. -/
theorem stored_frame {k : Word} : Stored d a v k =
    { d with regs := (Stored d a v k).regs, parMis := (Stored d a v k).parMis, ct1 := (Stored d a v k).ct1, ct2 := (Stored d a v k).ct2 } := by
  by_cases h : k ||| (if d.sealed then 0 else rvOf a) = 0
  · simp only [Stored, if_pos h]
  · simp only [Stored, if_neg h]; rfl

theorem rd_stored_ne {k : Word} {b : Nat} (h : b ≠ a) : (Stored d a v k).rd b = d.rd b := by
  by_cases h0 : k ||| (if d.sealed then 0 else rvOf a) = 0
  · simp only [Stored, if_pos h0]
  · simp only [Stored, if_neg h0]
    exact rd_wr_ne _ h

/-! ### Registers of ports -/

/-- A port's registers but PG_CTRL have no effect beyond what a write stores. -/
theorem writeEffect_of_port {old : Word} (hs : pageKind s = some .pe) (ho : o ≠ 4) : d.writeEffect s o old v m left = d := by
  simp only [Core.writeEffect, if_neg ho, hs]

theorem unlocked_of_port (hs : 0x20 ≤ s) (h : o < 0x40 ∨ d.en s = false) : Unlocked d r s o m := by
  have h9 : s ≠ 9 := by omega
  have h8 : s ≠ 8 := by omega
  have h4 : s ≠ 4 := by omega
  refine ⟨fun hc => ?_, by simp [Core.cuHolds, h9], by simp [h8]⟩
  rcases h with h | h
  · exact absurd hc.1 (by omega)
  · simp [Core.cfgLocked, h, h4] at hc

theorem isGrd_of_high (ho : 0x40 ≤ o) : isGrd s o = false := by
  have h0 : o ≠ 0x30 := by omega
  have h4 : o ≠ 0x34 := by omega
  have h8 : o ≠ 0x38 := by omega
  simp [isGrd, h0, h4, h8]

/-- A write to a CFG register of a port that is not enabled (R45, R48). -/
theorem regWrite_cfg (hr : regRow (a / 0x1000) (a % 0x1000) = some r) (hs : 0x20 ≤ a / 0x1000) (hk : pageKind (a / 0x1000) = some .pe)
    (ho : 0x40 ≤ a % 0x1000) (hcf : r.cf ≠ 0) (h0 : r.ct ||| r.cn ||| r.gd ||| r.cmd ||| r.zero = 0) (hen : d.en (a / 0x1000) = false) :
    d.regWrite a v all32 left =
      (let f := if Quiet d a v then d else d.ign a 6
       f.stow a v (r.cf ||| if f.sealed then 0 else r.rv)) := by
  obtain ⟨hct, hcn, hgd, hcmd, hz⟩ : r.ct = 0 ∧ r.cn = 0 ∧ r.gd = 0 ∧ r.cmd = 0 ∧ r.zero = 0 := by simpa [and_assoc] using h0
  have h4 : a % 0x1000 ≠ 4 := by omega
  have hk0 : (r.cf ||| r.ct) &&& ~~~(r.cmd ||| r.zero ||| if a % 0x1000 = 4 then 1 else 0) = r.cf := by
    rw [hct, hcmd, hz, if_neg h4, or_zero_word]
    exact and_all32 _
  rw [regWrite_of_full hr (permitted_of_soft fun h => hcf (BitVec.or_eq_zero_iff.mp h).1) (unlocked_of_port hs (.inr hen)) hgd hcn
    (by simp [hk]) (isGrd_of_high ho) hk0]
  simp only [writeEffect_of_port hk h4, stored_of_ne hcf, rvOf_of_row hr]

end Writes


section WriteCases

variable {i : Instr} {c d : Core} {a left : Nat} {v : Word} {w : Bool}

theorem access_of_linkDown {x : HostAcc} (h : c.gb (hif 0x200) 0 = false) : c.access x = { c with linkOut := [.noLink] } := by
  rw [Core.access, h]; rfl

/-- A BAR0 access to a privileged page is aborted and reported to the Spillway (R50). -/
theorem perform_wr_of_privileged (ha : a < 0x80000) (hp : privileged (a / 0x1000) = true) :
    d.perform (.wr a v left) = (d.report 147, .abort) := by
  have hk := pageKind_of_privileged hp
  simp [Core.perform, Core.oddAcc, Core.hostWrite, Nat.not_le.mpr ha, hp, Option.isNone_eq_false_iff.mpr hk]

theorem perform_rd_of_privileged (ha : a < 0x80000) (hp : privileged (a / 0x1000) = true) :
    d.perform (.rd a) = (d.report 147, .abort) := by
  have hk := pageKind_of_privileged hp
  simp [Core.perform, Core.oddAcc, Core.hostRead, Nat.not_le.mpr ha, hp, Option.isNone_eq_false_iff.mpr hk]

theorem exec_privilegedPageAccess {a : BitVec 20} (w : Bool) (ha : a.toNat < 0x80000) (hp : privileged (a.toNat / 0x1000) = true) (s : State) :
    exec (.privilegedPageAccess a w) s = s.on (·.access (if w then .wr a.toNat 0 8 else .rd a.toNat)) := by
  change execPrivilegedPageAccess a w s = _
  simp only [execPrivilegedPageAccess, ha, hp, and_self, if_true]

theorem answers_privileged {a : BitVec 20} (w : Bool) (hl : c.gb (hif 0x200) 0 = true) (hb : c.blocked = []) (hs : c.snapping = false)
    (ha : a.toNat < 0x80000) (hp : privileged (a.toNat / 0x1000) = true) :
    Answers (.privilegedPageAccess a w) c ((Arrives c).report 147) .abort := by
  cases w with
  | true =>
    exact answers_of_access (exec_privilegedPageAccess true ha hp) hl hb hs
      (needs_of_noPage (by simp [span_wr ha]) (.inr (by simpa [span_wr ha] using hp))) (perform_wr_of_privileged ha hp)
  | false =>
    exact answers_of_access (exec_privilegedPageAccess false ha hp) hl hb hs
      (needs_of_noPage (by simp [span_rd ha]) (.inr (by simpa [span_rd ha] using hp))) (perform_rd_of_privileged ha hp)

/-- A narrow write is recorded with cause 2 (R57). -/
theorem oddAcc_of_narrow {n : Nat} (ha : a < 0x80000) (hk : (pageKind (a / 0x1000)).isSome = true) (hp : privileged (a / 0x1000) = false)
    (hn : n = 1 ∨ n = 2 ∧ a % 2 = 0) (hg : isGrd (a / 0x1000) (a % 0x1000 / 4 * 4) = false) :
    d.oddAcc false a n true = (d.ign a 2, .done) := by
  have h : (n = 1 ∨ n = 2) ∧ a % n = 0 := by
    rcases hn with rfl | ⟨rfl, h2⟩
    · exact ⟨.inl rfl, Nat.mod_one a⟩
    · exact ⟨.inr rfl, h2⟩
  simp [Core.oddAcc, Nat.not_le.mpr ha, Option.isNone_eq_false_iff.mpr hk, hp, h, hg]

/-- An unaligned write is recorded with cause 0xB and aborted (R57). -/
theorem oddAcc_of_unaligned (ha : a < 0x80000) (hk : (pageKind (a / 0x1000)).isSome = true) (hp : privileged (a / 0x1000) = false)
    (h4 : a % 4 ≠ 0) : d.oddAcc false a 4 true = (d.ign a 0xB, .abort) := by
  simp [Core.oddAcc, Nat.not_le.mpr ha, Option.isNone_eq_false_iff.mpr hk, hp, h4]

theorem answers_odd {x : OddAccess} {r : LinkResp} (h2 : x.bar2 = false) (ha : x.addr.toNat < 0x80000) (ho : Open c (islandOf (x.addr.toNat / 0x1000)))
    (hd : (Arrives c).oddAcc false x.addr.toNat x.bytes x.write = (d, r)) : Answers (.accessWidthError x) c d r := by
  obtain ⟨bar2, addr, n, w⟩ := x
  obtain ⟨hl, hb, hs, hu⟩ := ho
  subst h2
  exact answers_of_access (x := .odd false addr.toNat n w) (fun _ => rfl) hl hb hs (needs_of_up (by rw [span_odd ha]; exact hu)) hd

/-- A write to the bit window is a write of the one bit it names (R61). -/
theorem answers_aliasWrite {x : BitVec 24} (h4 : x.toNat % 4 = 0) (ho : Open c (islandOf (aliasReg x.toNat / 0x1000)))
    (hk : (pageKind (aliasReg x.toNat / 0x1000)).isSome = true) (hp : privileged (aliasReg x.toNat / 0x1000) = false)
    (hg : isGrd (aliasReg x.toNat / 0x1000) (aliasReg x.toNat % 0x1000) = false)
    (hd : (Arrives c).regWrite (aliasReg x.toNat) (if bitOf v 0 then bit (aliasBit x.toNat) else 0) (bit (aliasBit x.toNat)) left = d) :
    Answers (.aliasWrite x v left) c d .done := by
  obtain ⟨hl, hb, hs, hu⟩ := ho
  refine answers_of_access (x := .wrAlias x.toNat v left) (fun _ => rfl) hl hb hs (needs_of_up hu) ?_
  simpa [Core.perform, Core.bitWrite, h4, Option.isNone_eq_false_iff.mpr hk, hp, hg] using hd

/-! ### One bit of a word -/

theorem aliasBit_lt (x : Nat) : aliasBit x < 32 := by unfold aliasBit; omega

theorem and_bit {w : Word} {b : Nat} : w &&& bit b = if bitOf w b then bit b else 0 := by
  apply BitVec.eq_of_getLsbD_eq
  intro j hj
  rw [BitVec.getLsbD_and, getLsbD_bit]
  by_cases h : j = b
  · subst h
    cases hb : bitOf w j <;> simp_all [bitOf, getLsbD_bit]
  · cases hb : bitOf w b <;> simp [getLsbD_bit, h]

theorem bit_ne_zero {b : Nat} (hb : b < 32) : bit b ≠ 0 := fun h => by
  have e : (bit b).getLsbD b = (0 : Word).getLsbD b := by rw [h]
  rw [getLsbD_bit] at e
  simp [hb] at e

theorem bit_ne_all32 {b : Nat} : bit b ≠ all32 := fun h => by
  have e (k : Nat) : (bit b).getLsbD k = all32.getLsbD k := by rw [h]
  have e0 := e 0
  have e1 := e 1
  rw [getLsbD_bit] at e0 e1
  have h0 : all32.getLsbD 0 = true := rfl
  have h1 : all32.getLsbD 1 = true := rfl
  simp only [h0, h1, Bool.and_eq_true, decide_eq_true_eq] at e0 e1
  omega

theorem aliasReg_lt (x : BitVec 24) : aliasReg x.toNat < 0x80000 := by
  have := x.isLt
  unfold aliasReg
  omega

/-- One bit stored as a write to the bit window gives it. -/
theorem stow_bit {b : Nat} {p : Bool} : d.stow a (if p then bit b else 0) (bit b) =
    { d.wr a ((d.voted a &&& ~~~(bit b)) ||| (if p then bit b else 0)) with
      parMis := Sparse.drop a d.parMis, ct1 := Sparse.drop a d.ct1, ct2 := Sparse.drop a d.ct2 } := by
  have h : (if p then bit b else 0) &&& bit b = if p then bit b else 0 := by
    cases p
    · exact BitVec.zero_and
    · exact BitVec.and_self
  rw [Core.stow, h]

theorem not_permitted_bit {r : Row} {b : Nat} (hb : b < 32) (h : bitOf (r.lv ||| r.ev ||| r.hd ||| r.ro ||| r.cn) b = true) :
    ¬Permitted r (bit b) := by
  rw [Permitted, if_neg bit_ne_all32, not_not, BitVec.and_comm, and_bit, if_pos h]
  exact bit_ne_zero hb

/-- A bit of a kind is no reserved bit. -/
theorem rv_and_bit {r : Row} {b : Nat} (h : bitOf r.cf b = true) : r.rv &&& bit b = 0 := by
  have hr : bitOf r.rv b = false := by
    rw [bitOf] at h ⊢
    simp [Row.rv, h]
  rw [and_bit, hr]
  rfl

/-- A write to the bit window of a CFG register of a port that is not enabled changes the one bit it names (R45, R61). -/
theorem regWrite_bit {r : Row} {b : Nat} (hb : b < 32) (hr : regRow (a / 0x1000) (a % 0x1000) = some r) (hs : 0x20 ≤ a / 0x1000)
    (hk : pageKind (a / 0x1000) = some .pe) (ho : 0x40 ≤ a % 0x1000) (hcf : bitOf r.cf b = true)
    (h0 : r.ct ||| r.lv ||| r.ev ||| r.cn ||| r.hd ||| r.gd ||| r.ro ||| r.cmd ||| r.zero = 0) (hen : d.en (a / 0x1000) = false) :
    d.regWrite a (if bitOf v 0 then bit b else 0) (bit b) left = d.stow a (if bitOf v 0 then bit b else 0) (bit b) := by
  obtain ⟨hct, hlv, hev, hcn, hhd, hgd, hro, hcmd, hz⟩ : r.ct = 0 ∧ r.lv = 0 ∧ r.ev = 0 ∧ r.cn = 0 ∧ r.hd = 0 ∧ r.gd = 0 ∧ r.ro = 0 ∧
    r.cmd = 0 ∧ r.zero = 0 := by simpa [and_assoc] using h0
  have h4 : a % 0x1000 ≠ 4 := by omega
  have hp : Permitted r (bit b) := by
    rw [Permitted, if_neg bit_ne_all32, hlv, hev, hhd, hro, hcn, not_not]
    exact BitVec.and_zero
  have hsoft : (r.cf ||| r.ct) &&& bit b = bit b := by rw [hct, or_zero_word, and_bit, if_pos hcf]
  have hrv (w : Word) : w &&& r.rv &&& bit b = 0 := by rw [BitVec.and_assoc, rv_and_bit hcf]; exact BitVec.and_zero
  have hbits (f : Core) : storedBits f r (a % 0x1000) (bit b) = bit b := by
    rw [storedBits, hsoft, hcmd, hz, if_neg h4, rv_and_bit hcf, ite_self, or_zero_word]
    exact and_all32 _
  rw [regWrite_of_soft hr hp (unlocked_of_port hs (.inr hen)) hgd hcn (by simp [hk]) (isGrd_of_high ho)]
  simp only [rvNoted, rvOf_of_row hr, hrv, if_true, hbits, if_neg (bit_ne_zero hb), writeEffect_of_port hk h4]

end WriteCases

/-- Settles O7, form by form: the cases of a register write, and the accesses that reach none. -/
theorem hostWritesObeyTheFieldKinds : Obligations.HostWritesObeyTheFieldKinds := by
  unfold Obligations.HostWritesObeyTheFieldKinds
  intro c
  refine ⟨fun hl a v left => ?_, fun a v left ha h4 => ?_, fun a w hl hb hs ha => ?_, fun x h2 hw ha => ?_, fun x v left h4 => ?_⟩
  · exact goes_of_on (f := (·.access (.wr a.toNat v left))) (fun _ => rfl) (access_of_linkDown hl)
  · intro slot o ho hk hp
    refine ⟨fun hr => ?_, fun r hr => ⟨fun h0 => ?_, fun h40 h200 hs hlock => ?_, fun hs h40 h200 hcf h0 hen => ?_⟩⟩
    · exact answers_write (fun _ => rfl) h4 ha ho hk hp (regWrite_of_noRow hr)
    · exact answers_write (fun _ => rfl) h4 ha ho hk hp (regWrite_of_notPermitted hr (not_not.mpr ((if_pos rfl).mpr h0)))
    · exact answers_write (fun _ => rfl) h4 ha ho hk hp
        (regWrite_of_locked hr (permitted_of_soft hs) h40 h200 (by rwa [and_all32]) hlock)
    · have hpe := pageKind_of_port hs (by omega)
      refine answers_write (fun _ => rfl) h4 ha ho hk hp ((regWrite_cfg hr hs hpe h40 hcf h0 hen).trans ?_)
      simp only [Quiet, rvOf_of_row hr]
      rfl
  · exact ⟨answers_unassigned w hl hb hs ha, answers_privileged w hl hb hs ha⟩
  · intro slot ho hk hp
    refine ⟨fun hn hg => ?_, fun hn h4 => ?_⟩
    · exact answers_odd h2 ha ho (by rw [hw]; exact oddAcc_of_narrow ha hk hp hn hg)
    · exact answers_odd h2 ha ho (by rw [hw, hn]; exact oddAcc_of_unaligned ha hk hp h4)
  · intro a b slot o ho hk hp hg r hr
    have hb32 : b < 32 := aliasBit_lt _
    refine ⟨fun hb => ?_, fun hs h40 h200 hcf h0 hen => ?_⟩
    · exact answers_aliasWrite h4 ho hk hp hg (regWrite_of_notPermitted hr (not_permitted_bit hb32 hb))
    · have hpe : pageKind slot = some .pe := pageKind_of_port hs (Nat.div_lt_of_lt_mul (aliasReg_lt x))
      exact answers_aliasWrite h4 ho hk hp hg ((regWrite_bit hb32 hr hs hpe h40 hcf h0 hen).trans stow_bit)

/-! ## Reads and their effects (R40, R42) -/

section Reads

variable {c d e : Core} {a b s o : Nat} {v : Word} {r : Row} {k : PageKind}

/-- The row that a register of a page is read off. -/
abbrev rowAt (a : Nat) : Option Row := (pageKind (a / 0x1000)).bind fun k => findRow k (a % 0x1000)

theorem regRow_eq_rowAt (h4 : a % 4 = 0) : regRow (a / 0x1000) (a % 0x1000) = rowAt a := by
  rw [regRow, if_pos (by omega)]

/-- A page whose kind gives reads no effect of their own. -/
def PlainPage (s : Nat) : Prop := pageKind s ∉ [some .lev, some .snp, some .dev, some .rsv, some .ga, some .wq]

/-- On such a page a read clears the event fields and does no more (R40). -/
theorem readEffect_of_plain (hr : rowAt a = some r) (hk : PlainPage (a / 0x1000)) :
    d.readEffect a = if r.ev = 0 then d else d.wr a (d.rd a &&& ~~~r.ev) := by
  simp only [PlainPage, List.mem_cons, List.not_mem_nil, or_false, not_or] at hk
  obtain ⟨hlev, hsnp, hdev, hrsv, hga, hwq⟩ := hk
  simp only [Core.readEffect, hr]

theorem readEffect_of_noEvent (hk : PlainPage (a / 0x1000)) (h : ∀ r, rowAt a = some r → r.ev = 0) : d.readEffect a = d := by
  cases hr : rowAt a with
  | some r => rw [readEffect_of_plain hr hk, if_pos (h r hr)]
  | none =>
    simp only [PlainPage, List.mem_cons, List.not_mem_nil, or_false, not_or] at hk
    obtain ⟨hlev, hsnp, hdev, hrsv, hga, hwq⟩ := hk
    simp only [Core.readEffect, hr, if_true]

/-- A holding register has no event field (Table 18-2). -/
theorem ev_of_holding (h800 : 0x800 ≤ o) (hb00 : o < 0xB00) (h : findRow k o = some r) : r.ev = 0 := by
  have h14 : ¬o < 0x14 := by omega
  have h40 : ¬o < 0x40 := by omega
  simp only [findRow, h14, h40, h800, hb00, if_false, decide_false, Bool.and_false, Bool.false_eq_true, and_self, if_true, Option.bind_eq_some_iff] at h
  obtain ⟨q, -, hq⟩ := h
  split at hq
  · contradiction
  · cases hq; rfl

/-! ### The use of a register -/

theorem used_of_right (h : Sparse.get (fun _ => 0) d.parMis (b / 4 * 4) = 0) : d.used b = d := if_pos h

/-- A use whose parity mismatches sets PAR_ERR and reports (R42). -/
theorem used_of_wrong (h : Sparse.get (fun _ => 0) d.parMis (b / 4 * 4) ≠ 0) :
    ∃ l, d.used b = { d.ev (pg (b / 0x1000) + 8) (bit 9) with reports := l } := by
  rw [Core.used, if_neg h]
  cases intSource (b / 0x1000) with
  | none => exact ⟨_, rfl⟩
  | some k => exact ⟨_, report_frame _ k⟩

theorem parErr_used (h : Sparse.get (fun _ => 0) d.parMis (b / 4 * 4) ≠ 0) : (d.used b).gb (pg (b / 0x1000) + 8) 9 = true := by
  obtain ⟨l, hu⟩ := used_of_wrong h
  rw [hu]
  exact Core.gb_ev d _ 9 _ (by decide)

/-- A use changes PG_STAT of its page and no other register, nor any copy. -/
theorem voted_used (h : a % 0x1000 ≠ 8) : (d.used b).voted a = d.voted a := by
  by_cases hp : Sparse.get (fun _ => 0) d.parMis (b / 4 * 4) = 0
  · rw [used_of_right hp]
  · obtain ⟨l, hu⟩ := used_of_wrong hp
    have hrd : (d.ev (pg (b / 0x1000) + 8) (bit 9)).rd a = d.rd a := rd_ev_ne _ (by simp only [pg]; omega)
    rw [hu, Core.voted, Core.voted]
    exact congrArg (· ^^^ _) hrd

/-- Beyond the LIVE area a port's registers show what is stored. -/
theorem view_congr_port (hk : pageKind (a / 0x1000) = some .pe) (ho : 0x400 ≤ a % 0x1000) (h : d.voted a = e.voted a) :
    d.view a = e.view a := by
  have h8 : a % 0x1000 ≠ 8 := by omega
  have h10 : a % 0x1000 ≠ 0x10 := by omega
  have h3c : a % 0x1000 ≠ 0x3C := by omega
  have hlive : ¬a % 0x1000 < 0x400 := by omega
  simp [Core.view, Core.pageView, hk, h8, h10, h3c, hlive, h]

/-- A 64-bit read of two holding registers of a port answers both (R57, R64). -/
theorem perform_rd64_holding (hs : 0x20 ≤ a / 0x1000) (ha : a < 0x80000) (h8 : a % 8 = 0) (h800 : 0x800 ≤ a % 0x1000) (hb00 : a % 0x1000 < 0xB00) :
    d.perform (.rd64 a) = ((d.used a).used (a + 4), .bytes (le 4 (d.view a).toNat ++ le 4 (d.view (a + 4)).toNat)) := by
  have hk : pageKind (a / 0x1000) = some .pe := pageKind_of_port hs (by omega)
  have hslot : (a + 4) / 0x1000 = a / 0x1000 := by omega
  have hk4 : pageKind ((a + 4) / 0x1000) = some .pe := hslot ▸ hk
  have hp := notPrivileged_of_high (s := a / 0x1000) (by omega)
  have hp4 : privileged ((a + 4) / 0x1000) = false := hslot ▸ hp
  have hplain : PlainPage (a / 0x1000) := by simp [PlainPage, hk]
  have hplain4 : PlainPage ((a + 4) / 0x1000) := hslot ▸ hplain
  have hread (e : Core) : e.readEffect a = e :=
    readEffect_of_noEvent hplain fun r hr => ev_of_holding h800 hb00 (by simpa [rowAt, hk] using hr)
  have hread4 (e : Core) : e.readEffect (a + 4) = e :=
    readEffect_of_noEvent hplain4 fun r hr =>
      ev_of_holding (o := (a + 4) % 0x1000) (by omega) (by omega) (by simpa [rowAt, hk4] using hr)
  have hview : (d.used a).view (a + 4) = d.view (a + 4) := view_congr_port hk4 (by omega) (voted_used (by omega))
  simp only [Core.perform, h8, ne_eq, not_true_eq_false, if_false, Nat.not_le.mpr ha, hostRead_of_page (Option.isSome_iff_exists.mpr ⟨_, hk⟩) hp,
    hostRead_of_page (Option.isSome_iff_exists.mpr ⟨_, hk4⟩) hp4, hread, hread4, hview]

/-! ### Reads with an effect of their own -/

/-- PG_IGN_ADDR clears as it is read, on every page (R39, R40). -/
theorem readEffect_ignAddr (hk : pageKind s = some k) : d.readEffect (pg s + 0xC) = d.wr (pg s + 0xC) (d.rd (pg s + 0xC) &&& ~~~0x1FFFF) := by
  have hrow : findRow k 0xC = some { off := 0xC, ev := 0x1FFFF } := rfl
  cases k <;> simp [Core.readEffect, pg_div, hk, hrow]

theorem readEffect_tick : d.readEffect (lev 0x208) = d.wr (lev 0x20C) (BitVec.ofNat 32 (d.tick / 2 ^ 32)) := rfl
theorem readEffect_frame : d.readEffect (snp 0x200) = d.wr (snp 0x204) (BitVec.ofNat 32 (d.frame / 2 ^ 32)) := rfl
theorem readEffect_tempPeak : d.readEffect (dev 0x224) = d.wr (dev 0x224) (d.rd (dev 0x220)) := rfl
theorem readEffect_bwPeak : d.readEffect (rsv 0x238) = d.wr (rsv 0x238) 0 := rfl

theorem view_tick : d.view (lev 0x208) = BitVec.ofNat 32 d.tick := and_all32 _
theorem view_frame : d.view (snp 0x200) = BitVec.ofNat 32 d.frame := and_all32 _

theorem noEvent_wqPeak : ∀ q : QueueNo, (findRow .wq (0x280 + 4 * q.val)).map (·.ev) = some 0 := by decide

theorem readEffect_wqPeak (q : QueueNo) :
    d.readEffect (wq (0x280 + 4 * q.val)) = d.wr (wq (0x280 + 4 * q.val)) (d.rd (wq (0x240 + 4 * q.val))) := by
  obtain ⟨r, hr, hev⟩ := Option.map_eq_some_iff.mp (noEvent_wqPeak q)
  have hdiv : wq (0x280 + 4 * q.val) / 0x1000 = 0xC := by simp only [wq]; omega
  have hmod : wq (0x280 + 4 * q.val) % 0x1000 = 0x280 + 4 * q.val := by simp only [wq]; omega
  have hk : pageKind 0xC = some .wq := rfl
  have hne : 0x280 + 4 * q.val ≠ 0xB04 := by omega
  have hin : 0x280 ≤ 0x280 + 4 * q.val ∧ 0x280 + 4 * q.val < 0x2C0 := by omega
  have hq : (0x280 + 4 * q.val - 0x280) / 4 = q.val := by omega
  simp only [Core.readEffect, hdiv, hmod, hk, Option.bind_some, hr, hev, if_true, if_neg hne, if_pos hin, hq, Core.peakRead]

/-- The registers of a Gauge, by the number of the Gauge (R343). -/
theorem gauge_place (g : GaugeNo) {off : Nat} (ho : off < 0x40) :
    gaR g.val off / 0x1000 = 0xA + g.val / 12 ∧ gaR g.val off % 0x1000 = 0xB00 + g.val % 12 * 0x40 + off := by
  simp only [gaR]
  omega

theorem pageKind_gauge : ∀ g : GaugeNo, pageKind (0xA + g.val / 12) = some .ga := by decide

theorem noEvent_gauge : ∀ g : GaugeNo, ∀ off ∈ [0x1C, 0x20], (findRow .ga (0xB00 + g.val % 12 * 0x40 + off)).map (·.ev) = some 0 := by decide

/-- The read of GA_SEQ latches GA_OUT, and that of GA_OUT ends the latch (Table 10-9). -/
theorem readEffect_gauge (g : GaugeNo) {off : Nat} (hoff : off ∈ [0x1C, 0x20]) :
    d.readEffect (gaR g.val off) =
      d.updGauge g.val (fun x => { x with latch := if off = 0x1C then some (d.rd (gaR g.val 0x20)) else none }) := by
  obtain ⟨r, hr, hev⟩ := Option.map_eq_some_iff.mp (noEvent_gauge g off hoff)
  have ho : off = 0x1C ∨ off = 0x20 := by simpa using hoff
  obtain ⟨hdiv, hmod⟩ := gauge_place g (off := off) (by omega)
  have hk := pageKind_gauge g
  have hg : 12 * (0xA + g.val / 12 - 0xA) + (0xB00 + g.val % 12 * 0x40 + off - 0xB00) / 0x40 = g.val := by omega
  have hcoef : 0xB00 + g.val % 12 * 0x40 + off ≠ 0xE04 := by omega
  have hin : ¬(0xB00 + g.val % 12 * 0x40 + off < 0xB00 ∨ 0xE00 ≤ 0xB00 + g.val % 12 * 0x40 + off) := by omega
  have hmod40 : (0xB00 + g.val % 12 * 0x40 + off) % 0x40 = off := by omega
  simp only [Core.readEffect, hdiv, hmod, hk, Option.bind_some, hr, hev, if_true, hg, if_neg hcoef, if_neg hin, hmod40]
  rcases ho with rfl | rfl <;> rfl

/-! ### The aperture (R71, R72) -/

theorem perform_apRead_one (h4 : o % 4 = 0) : d.perform (.apRead o 1) = (d.apRead o, .data (d.apView o)) := by
  have h : apForm o 1 = true := by simp [apForm, h4]
  simp only [Core.perform, h, if_true]
  rfl

theorem apRead_of_noEvent (h : ∀ q, d.apEntry o = some q → q.2.2.2.ev = 0) : d.apRead o = d := by
  unfold Core.apRead
  split
  · rfl
  · next t i w r he => exact if_pos (h _ he)

theorem apRead_of_event {q : Nat × Nat × Nat × Row} (he : d.apEntry o = some q) (h : q.2.2.2.ev ≠ 0) :
    d.apRead o = d.twr (tkey q.1 (d.apWord o)) (d.trd (tkey q.1 (d.apWord o)) &&& ~~~q.2.2.2.ev) := by
  obtain ⟨t, i, w, r⟩ := q
  simp only [Core.apRead, he]
  exact if_neg h

theorem apView_of_noEntry (h : d.apEntry o = none) : d.apView o = 0 := by simp only [Core.apView, h]

/-- Words without event fields are read in order and keep their value. -/
theorem perform_apRead_words {n : Nat} (h4 : o % 4 = 0) (hn : 3 ≤ n) (hin : o % 64 + 4 * n ≤ 64)
    (h : ∀ k < n, ∀ q, d.apEntry (o + 4 * k) = some q → q.2.2.2.ev = 0) :
    d.perform (.apRead o n) = (d, .bytes (((List.range n).map fun k => d.apView (o + 4 * k)).flatMap fun v => le 4 v.toNat)) := by
  have hform : apForm o n = true := by simp [apForm, h4, hn, hin]
  have hkept : forN n (fun k c => c.apRead (o + 4 * k)) d = d :=
    forN_induct (· = d) (fun k a hk ha => by rw [ha]; exact apRead_of_noEvent (h k hk)) rfl
  have hlen : ((List.range n).map fun k => d.apView (o + 4 * k)).length = n := by simp
  simp only [Core.perform, hform, if_true, hkept]
  generalize (List.range n).map (fun k => d.apView (o + 4 * k)) = vs at hlen
  match vs with
  | [] => rfl
  | [v] => exact absurd hlen (by simp only [List.length_cons, List.length_nil]; omega)
  | v :: w :: vs => rfl

/-- A word of a trail trace text is stored as written (R71). -/
theorem perform_apWrite_tti {i w : Nat} (h4 : o % 4 = 0) (he : d.apEntry o = some (7, i, w, { off := 0, cf := all32 })) :
    d.perform (.apWrite o [v]) = (d.twr (tti i w) v, .done) := by
  have hform : apForm o [v].length = true := by simp [apForm, h4]
  have hrv (x : Word) : x &&& ({ off := 0, cf := all32 } : Row).rv = 0 := BitVec.and_zero
  have hkind : ({ off := 0, cf := all32 } : Row).cf ||| ({ off := 0, cf := all32 } : Row).cn ≠ 0 := by decide
  have hw : d.apWrite o v = d.twr (tti i w) v := by
    simp only [Core.apWrite, he, if_neg hkind, hrv, if_true]
  simp only [Core.perform, hform, if_true]
  exact congrArg (·, LinkResp.done) hw

/-- An access to the tables waits for nothing while their island is on. -/
theorem answers_apRead {off : BitVec 19} {n : Nat} {x : LinkResp} (ho : Open c 3) (hd : (Arrives c).perform (.apRead off.toNat n) = (d, x)) :
    Answers (.apertureAccess off (.read n)) c d x := by
  obtain ⟨hl, hb, hs, hu⟩ := ho
  exact answers_of_access (x := .apRead off.toNat n) (fun _ => rfl) hl hb hs (needs_of_up hu) hd

theorem answers_apWrite {off : BitVec 19} {ws : List Word} {x : LinkResp} (ho : Open c 3)
    (hd : (Arrives c).perform (.apWrite off.toNat ws) = (d, x)) : Answers (.apertureAccess off (.write ws)) c d x := by
  obtain ⟨hl, hb, hs, hu⟩ := ho
  exact answers_of_access (x := .apWrite off.toNat ws) (fun _ => rfl) hl hb hs (needs_of_up hu) hd

/-! ### The reads that a command names -/

theorem answers_rd64_holding {x : BitVec 20} (ho : Open c (islandOf (x.toNat / 0x1000))) (hs : 0x20 ≤ x.toNat / 0x1000) (ha : x.toNat < 0x80000)
    (h8 : x.toNat % 8 = 0) (h800 : 0x800 ≤ x.toNat % 0x1000) (hb00 : x.toNat % 0x1000 < 0xB00) :
    Answers (.hldRead x true) c (((Arrives c).used x.toNat).used (x.toNat + 4))
      (.bytes (le 4 ((Arrives c).view x.toNat).toNat ++ le 4 ((Arrives c).view (x.toNat + 4)).toNat)) := by
  obtain ⟨hl, hb, hsn, hu⟩ := ho
  exact answers_of_access (x := .rd64 x.toNat) (fun _ => rfl) hl hb hsn (needs_of_up (by rw [span_rd64 ha]; exact hu))
    (perform_rd64_holding hs ha h8 h800 hb00)

/-- PG_IGN_ADDR is a common register, read with no island (R37). -/
theorem answers_ignAddr {p : PageSlot} (hl : c.gb (hif 0x200) 0 = true) (hb : c.blocked = []) (hs : c.snapping = false)
    (hk : (pageKind p.val).isSome = true) (hp : privileged p.val = false) :
    Answers (.pgIgnAddrRead p) c (((Arrives c).wr (pg p.val + 0xC) ((Arrives c).rd (pg p.val + 0xC) &&& ~~~0x1FFFF)).used (pg p.val + 0xC))
      (.data ((Arrives c).view (pg p.val + 0xC))) := by
  have hlt : pg p.val + 0xC < 0x80000 := by simp only [pg]; omega
  have h4 : (pg p.val + 0xC) % 4 = 0 := by simp only [pg]; omega
  have hdiv : (pg p.val + 0xC) / 0x1000 = p.val := pg_div (by decide)
  have hmod : (pg p.val + 0xC) % 0x1000 = 0xC := pg_mod (by decide)
  have hspan : (HostAcc.rd (pg p.val + 0xC)).span = (false, pg p.val + 0xC, 1, true) := span_rd hlt
  obtain ⟨k, hk'⟩ := Option.isSome_iff_exists.mp hk
  refine answers_of_access (fun _ => rfl) hl hb hs (needs_of_common (by rw [hspan]) (by rw [hspan]; simp only; omega)) ?_
  rw [perform_rd_of_page h4 hlt (by rwa [hdiv]) (by rwa [hdiv]), readEffect_ignAddr hk']

theorem answers_gauge (g : GaugeNo) {off : Nat} (hoff : off ∈ [0x1C, 0x20]) (ho : Open c 4) :
    Answers (.latchingRead (BitVec.ofNat 20 (gaR g.val off))) c
      (((Arrives c).updGauge g.val fun x => { x with latch := if off = 0x1C then some ((Arrives c).rd (gaR g.val 0x20)) else none }).used
        (gaR g.val off)) (.data ((Arrives c).view (gaR g.val off))) := by
  have hin : off < 0x40 ∧ off % 4 = 0 := (by decide : ∀ o ∈ [0x1C, 0x20], o < 0x40 ∧ o % 4 = 0) off hoff
  obtain ⟨hdiv, hmod⟩ := gauge_place g hin.1
  have hx : (BitVec.ofNat 20 (gaR g.val off)).toNat = gaR g.val off := by rw [BitVec.toNat_ofNat]; omega
  have hisl : ∀ g : GaugeNo, islandOf (0xA + g.val / 12) = 4 ∧ privileged (0xA + g.val / 12) = false := by decide
  obtain ⟨hi4, hpriv⟩ := hisl g
  exact answers_read
    (fun s => congrArg (fun n => s.on (·.access (.rd n))) hx) (by omega) (by omega) (by rwa [hdiv, hi4])
    (by rw [hdiv]; exact Option.isSome_iff_exists.mpr ⟨_, pageKind_gauge g⟩) (by rw [hdiv]; exact hpriv) (readEffect_gauge g hoff)

theorem answers_wqPeak (q : QueueNo) (ho : Open c 5) :
    Answers (.wqPeakRead q) c (((Arrives c).wr (wq (0x280 + 4 * q.val)) ((Arrives c).rd (wq (0x240 + 4 * q.val)))).used (wq (0x280 + 4 * q.val)))
      (.data ((Arrives c).view (wq (0x280 + 4 * q.val)))) := by
  have hdiv : wq (0x280 + 4 * q.val) / 0x1000 = 0xC := by simp only [wq]; omega
  exact answers_read (fun _ => rfl) (by simp only [wq]; omega) (by simp only [wq]; omega) (by rw [hdiv]; exact ho) (by rw [hdiv]; rfl)
    (by rw [hdiv]; rfl) (readEffect_wqPeak q)

end Reads

/-- Settles O8: each clause is the read effect of its register, or the aperture's, behind an access that waits for nothing. -/
theorem hostReadsAnswerWhatRegistersShow : Obligations.HostReadsAnswerWhatRegistersShow := by
  unfold Obligations.HostReadsAnswerWhatRegistersShow
  intro c
  refine ⟨fun a ha h4 ho hk hp => ⟨?_, ?_, fun hs h8 => answers_rd64_holding ho hs ha h8⟩, fun b => ⟨used_of_right, parErr_used⟩,
    fun p => answers_ignAddr, fun ho => ?_, fun ho => ?_,
    fun g ho => ⟨answers_gauge g (by decide) ho, answers_gauge g (by decide) ho⟩, fun ho => ?_, fun ho => ?_, fun q => answers_wqPeak q,
    fun x => answers_aliasRead, fun ho o h4 => ⟨?_, ?_, ?_, ?_, ?_⟩⟩
  · intro i hi
    have hi' : ∀ s, exec i s = s.on (·.access (.rd a.toNat)) := by
      simp only [List.mem_cons, List.not_mem_nil, or_false] at hi
      rcases hi with rfl | rfl | rfl <;> exact fun _ => rfl
    exact answers_read hi' h4 ha ho hk hp rfl
  · intro r hr hplain
    exact readEffect_of_plain (regRow_eq_rowAt h4 ▸ hr) hplain
  · exact view_tick ▸ answers_read (a := lev 0x208) (fun _ => rfl) rfl (by decide) ho rfl rfl readEffect_tick
  · exact view_frame ▸ answers_read (a := snp 0x200) (fun _ => rfl) rfl (by decide) ho rfl rfl readEffect_frame
  · exact answers_read (fun _ => rfl) rfl (by decide) ho rfl rfl readEffect_tempPeak
  · exact answers_read (fun _ => rfl) rfl (by decide) ho rfl rfl readEffect_bwPeak
  · intro q he hev
    exact answers_apRead ho ((perform_apRead_one h4).trans (by rw [apRead_of_noEvent fun p hp => by rw [he] at hp; cases hp; exact hev]))
  · intro q he hev
    exact answers_apRead ho ((perform_apRead_one h4).trans (by rw [apRead_of_event he hev]))
  · intro he
    exact answers_apRead ho ((perform_apRead_one h4).trans
      (by rw [apView_of_noEntry he, apRead_of_noEvent fun p hp => by rw [he] at hp; contradiction]))
  · exact fun n hn hin h => answers_apRead ho (perform_apRead_words h4 hn hin h)
  · exact fun i w v _ he => answers_apWrite ho (perform_apWrite_tti h4 he)

/-! ## Pages enabled, reset and repaired (R43, R44, R47, R499) -/

section PageControl

variable {i : Instr} {c d : Core} {a s t left : Nat} {v w : Word}

/-- PG_CTRL of a port's page takes a quiet write: SEAL is stored, and EN and SOFT_RST act (Table 2-5). -/
theorem regWrite_pgCtrl (h : 0x20 ≤ s) (hs : s < 0x80) (hq : Quiet d (pg s + 4) v) :
    d.regWrite (pg s + 4) v all32 left = (Stored d (pg s + 4) v 4).ctrlWrite s v all32 := by
  have hdiv : (pg s + 4) / 0x1000 = s := pg_div (by decide)
  have hmod : (pg s + 4) % 0x1000 = 4 := pg_mod (by decide)
  have hk := pageKind_of_port h hs
  have hr : regRow ((pg s + 4) / 0x1000) ((pg s + 4) % 0x1000) = some { off := 4, reset := 4, cf := 0x7, lv := 0x100, cmd := 0x2 } := by
    rw [hdiv, hmod, regRow_of_page hk rfl]; rfl
  have hlock : Unlocked d { off := 4, reset := 4, cf := 0x7, lv := 0x100, cmd := 0x2 } ((pg s + 4) / 0x1000) ((pg s + 4) % 0x1000) all32 :=
    unlocked_of_port (by rwa [hdiv]) (.inl (by rw [hmod]; decide))
  have hgrd : isGrd ((pg s + 4) / 0x1000) ((pg s + 4) % 0x1000) = false := by rw [hmod, isGrd, Bool.and_eq_false_iff]; exact .inr rfl
  have hmask : (0x7 ||| 0 : Word) &&& ~~~(0x2 ||| 0 ||| if (pg s + 4) % 0x1000 = 4 then 1 else 0) = 4 := by rw [hmod]; rfl
  rw [regWrite_of_quiet hr (permitted_of_soft (by decide)) hlock rfl rfl (by simp [hdiv, hk]) hgrd hmask hq, Core.writeEffect, hdiv,
    if_pos hmod]

/-- A write of a register of a port's page, with no wait before it. -/
theorem answers_portWrite {o : Nat} (hi : ∀ u, exec i u = u.on (·.access (.wr (pg s + o) v left))) (h : 0x20 ≤ s) (hs : s < 0x80)
    (hlt : o < 0x1000) (h4 : o % 4 = 0) (ho : Open c (islandOf s)) (hd : (Arrives c).regWrite (pg s + o) v all32 left = d) :
    Answers i c d .done := by
  have hdiv : (pg s + o) / 0x1000 = s := pg_div hlt
  exact answers_write hi (by simp only [pg]; omega) (by simp only [pg]; omega) (by rwa [hdiv])
    (by rw [hdiv, pageKind_of_port h hs]; rfl) (by rw [hdiv]; exact notPrivileged_of_high (by omega)) hd

theorem answers_pgCtrl (hi : ∀ u, exec i u = u.on (·.access (.wr (pg s + 4) v 8))) (h : 0x20 ≤ s) (hs : s < 0x80) (ho : Open c (islandOf s))
    (hq : Quiet (Arrives c) (pg s + 4) v) (hd : (Stored (Arrives c) (pg s + 4) v 4).ctrlWrite s v all32 = d) : Answers i c d .done :=
  answers_portWrite hi h hs (by decide) rfl ho ((regWrite_pgCtrl h hs hq).trans hd)

/-- A write without SOFT_RST writes EN and no more. -/
theorem ctrlWrite_of_noReset (h : bitOf v 1 = false) : d.ctrlWrite s v all32 = d.writeEn s (bitOf v 0) := by
  simp only [Core.ctrlWrite, h, Bool.and_false, if_false, Bool.false_eq_true]
  exact if_pos rfl

theorem ctrlWrite_of_reset (h : bitOf v 1 = true) :
    d.ctrlWrite s v all32 =
      (let e := d.writeEn s (bitOf v 0)
       if e.gb (pg s + 4) 8 then e.ign (pg s + 4) 8 else e.softReset s) := by
  have h0 : bitOf all32 0 = true := rfl
  have h1 : bitOf all32 1 = true := rfl
  simp only [Core.ctrlWrite, h0, h1, h, Bool.and_self, if_true]

theorem writeEn_of_stale (he : d.en s = false) (hs : s ∉ d.scans) (hst : d.stale s = true) :
    d.writeEn s true = { d with scans := d.scans ++ [s] } := by
  simp [Core.writeEn, he, hs, hst]

theorem writeEn_of_fresh (he : d.en s = false) (hs : s ∉ d.scans) (hst : d.stale s = false) : d.writeEn s true = d.pageOn s := by
  simp [Core.writeEn, he, hs, hst]

/-- EN written 0 on a page that is not enabled abandons its scan and does no more (R47). -/
theorem writeEn_off (he : d.en s = false) : d.writeEn s false = { d with scans := d.scans.filter (· ≠ s) } := by
  rw [Core.writeEn, if_neg Bool.false_ne_true]
  exact if_neg (Bool.eq_false_iff.mp he)

theorem scans_stored : (Stored d a v w).scans = d.scans := by rw [stored_frame]

theorem stale_stored : (Stored d (pg s + 4) v w).stale s = d.stale s := gb_congr (rd_stored_ne (by omega)) 1

theorem bitOf_or_two : bitOf (v ||| 2) 0 = bitOf v 0 ∧ bitOf (v ||| 2) 1 = true := by
  simp only [bitOf, BitVec.getLsbD_or]
  exact ⟨Bool.or_false _, Bool.or_true _⟩

/-! ### Enable scans and the end of a soft reset -/

/-- A page's integrity source reports (Table 15-3). -/
def integrityReported (s : Nat) (c : Core) : Core := match intSource s with | some k => c.report k | none => c

/-- The block as the vote of a page's CFG area leaves it, its scan at an end (R44, R47). -/
def scanVoted (s : Nat) (c : Core) : Core := { c with scans := c.scans.filter (· ≠ s) }.voteRange (pg s + 0x40) (pg s + 0x200)

theorem scanEnd_of_right (h : s ∈ c.scans) (hb : (scanVoted s c).parBad (pg s + 0x40) (pg s + 0x200) = []) :
    c.scanEnd s = (scanVoted s c).pageOn s := by
  rw [scanVoted] at hb
  simp only [Core.scanEnd, List.contains_iff_mem.mpr h, Bool.not_true, Bool.false_eq_true, if_false, hb]
  rfl

theorem scanEnd_of_wrong {l : List Nat} (h : s ∈ c.scans) (hb : (scanVoted s c).parBad (pg s + 0x40) (pg s + 0x200) = a :: l) :
    c.scanEnd s = integrityReported s ((scanVoted s c).ign a 9) := by
  rw [scanVoted] at hb
  simp only [Core.scanEnd, List.contains_iff_mem.mpr h, Bool.not_true, Bool.false_eq_true, if_false, hb]
  rfl

/-- A page with EN and SOFT_BUSY off and no scan. -/
def blockOff (c : Core) (s : Nat) : Core :=
  { (c.sb (pg s + 4) 0 false).sb (pg s + 4) 8 false with scans := c.scans.filter (· ≠ s) }

/-- A synchronising reset of Gauges changes no register at once (R321). -/
theorem regs_gaugesReset {n g : Nat} : (forN n (fun k c => c.gaugeReset (g + k)) d).regs = d.regs := by
  induction n with
  | zero => rfl
  | succ n ih => rw [forN_succ]; exact ih

/-- The registers of a page whose block returns, by its kind: all but the DEV page are stale (R464, R496). -/
theorem regs_blockReturn {k : PageKind} (hk : pageKind s = some k) :
    (c.blockReturn s).regs = if k = .dev then (blockOff c s).regs else ((blockOff c s).setStale s).regs := by
  cases k with
  | ga =>
    have he : c.blockReturn s = forN 12 (fun k c => c.gaugeReset (12 * (s - 0xA) + k)) ((blockOff c s).setStale s) := by
      simp only [Core.blockReturn, hk]; rfl
    rw [he, if_neg (by decide), regs_gaugesReset]
  | _ => simp only [Core.blockReturn, hk]; rfl

theorem rd_blockReturn {k : PageKind} (hk : pageKind s = some k) (h8 : a ≠ pg s + 8) : (c.blockReturn s).rd a = (blockOff c s).rd a := by
  have hr := regs_blockReturn (c := c) hk
  by_cases hd : k = .dev
  · rw [if_pos hd] at hr
    exact rd_congr hr a
  · rw [if_neg hd] at hr
    exact (rd_congr hr a).trans (rd_sb_ne _ _ h8)

/-- A block that returns is disabled, its soft reset over, and stale but for the DEV page (R464). -/
theorem blockReturn_shows {k : PageKind} (hk : pageKind s = some k) :
    (c.blockReturn s).en s = false ∧ (c.blockReturn s).gb (pg s + 4) 8 = false ∧ (k ≠ .dev → (c.blockReturn s).stale s = true) := by
  have hctrl : (c.blockReturn s).rd (pg s + 4) = ((c.sb (pg s + 4) 0 false).sb (pg s + 4) 8 false).rd (pg s + 4) :=
    rd_blockReturn hk (by omega)
  refine ⟨?_, ?_, fun hd => ?_⟩
  · rw [Core.en, gb_congr hctrl, gb_sb (by decide), gb_sb (by decide)]; rfl
  · rw [gb_congr hctrl, gb_sb (by decide)]; rfl
  · have hr := regs_blockReturn (c := c) hk
    rw [if_neg hd] at hr
    rw [Core.stale, gb_congr (rd_congr hr _)]
    exact Core.gb_sb _ _ 1 true (by decide)

theorem softDone_of_busy (h : c.gb (pg s + 4) 8 = true) : c.softDone s = c.blockReturn s := if_pos h

theorem softDone_of_idle (h : c.gb (pg s + 4) 8 = false) : c.softDone s = c := if_neg (by simp [h])

theorem scans_blockReturn_port (hk : pageKind s = some .pe) : s ∉ (c.blockReturn s).scans := by
  simp only [Core.blockReturn, hk]
  exact fun hm => by simpa using (List.mem_filter.mp hm).2

/-- The block of a port returns: beyond its PG_CTRL and PG_STAT no register changes. -/
theorem softDone_port (h : 0x20 ≤ s) (hs : s < 0x80) (hb : c.gb (pg s + 4) 8 = true) :
    (c.softDone s).gb (pg s + 4) 8 = false ∧ (c.softDone s).en s = false ∧ (c.softDone s).stale s = true ∧ s ∉ (c.softDone s).scans ∧
      ∀ a, a ≠ pg s + 4 → a ≠ pg s + 8 → (c.softDone s).rd a = c.rd a := by
  have hk := pageKind_of_port h hs
  obtain ⟨hen, hsoft, hst⟩ := blockReturn_shows (c := c) hk
  rw [softDone_of_busy hb]
  exact ⟨hsoft, hen, hst (by decide), scans_blockReturn_port hk, fun a h4 h8 =>
    (rd_blockReturn hk h8).trans ((rd_sb_ne _ _ h4).trans (rd_sb_ne _ _ h4))⟩

/-! ### The background sweep -/

/-- What the sweep does at one page. -/
def swept (s : Nat) (c : Core) : Core :=
  if !c.islandUp (islandOf s) then c
  else
    let c := c.voteRange (pg s) (pg s + 0x1000)
    if c.parBad (pg s) (pg s + 0x1000) = [] then c
    else
      integrityReported s (c.ev (pg s + 8) (bit 9))

theorem sweep_nil : c.sweep [] = forL pageSlots swept c := rfl

/-- Copies that agree need no vote. -/
theorem voteRange_of_agreed {lo hi : Nat} (h1 : c.ct1 = []) (h2 : c.ct2 = []) : c.voteRange lo hi = c := by
  rw [Core.voteRange, h1, h2]; rfl

theorem swept_of_clean (h1 : c.ct1 = []) (h2 : c.ct2 = []) (hp : c.parBad (pg s) (pg s + 0x1000) = []) : swept s c = c := by
  simp only [swept, voteRange_of_agreed h1 h2, hp, if_true, ite_self]

/-- A page that is on and whose parity mismatches shows PAR_ERR and reports; no other register changes. -/
theorem swept_of_wrong (h1 : c.ct1 = []) (h2 : c.ct2 = []) (hu : c.islandUp (islandOf s) = true) (hp : c.parBad (pg s) (pg s + 0x1000) ≠ []) :
    ∃ l, swept s c = { c.ev (pg s + 8) (bit 9) with reports := l } := by
  simp only [swept, voteRange_of_agreed h1 h2, hp, hu, if_false, Bool.not_true, Bool.false_eq_true, integrityReported]
  cases intSource s with
  | none => exact ⟨_, rfl⟩
  | some k => exact ⟨_, report_frame _ k⟩

/-- What the sweep of a block with agreeing copies keeps: copies, parity and every register but PG_STAT. -/
def SweepKeeps (c d : Core) : Prop :=
  d.ct1 = [] ∧ d.ct2 = [] ∧ d.parMis = c.parMis ∧ ∀ a, a % 0x1000 ≠ 8 → d.rd a = c.rd a

theorem sweepKeeps_swept (h : SweepKeeps c d) : SweepKeeps c (swept s d) := by
  obtain ⟨h1, h2, hp, hr⟩ := h
  by_cases hu : d.islandUp (islandOf s) = true
  · by_cases hb : d.parBad (pg s) (pg s + 0x1000) = []
    · rw [swept_of_clean h1 h2 hb]
      exact ⟨h1, h2, hp, hr⟩
    · obtain ⟨l, he⟩ := swept_of_wrong h1 h2 hu hb
      rw [he]
      refine ⟨h1, h2, hp, fun a ha => ?_⟩
      have hrd : (d.ev (pg s + 8) (bit 9)).rd a = d.rd a := rd_ev_ne _ (by simp only [pg]; omega)
      exact hrd.trans (hr a ha)
  · rw [show swept s d = d from if_pos (by simp [hu])]
    exact ⟨h1, h2, hp, hr⟩

theorem gb_ev_mono {b k : Nat} {m : Word} (h : c.gb b k = true) : (c.ev a m).gb b k = true := by
  rw [Core.gb, bitOf] at h ⊢
  rw [Core.rd_ev]
  split
  · next e => rw [BitVec.getLsbD_or, ← e, h, Bool.true_or]
  · exact h

/-- An event once shown stays shown. -/
theorem gb_swept (h : SweepKeeps c d) {b k : Nat} (hg : d.gb b k = true) : (swept s d).gb b k = true := by
  obtain ⟨h1, h2, -, -⟩ := h
  by_cases hu : d.islandUp (islandOf s) = true
  · by_cases hb : d.parBad (pg s) (pg s + 0x1000) = []
    · rwa [swept_of_clean h1 h2 hb]
    · obtain ⟨l, he⟩ := swept_of_wrong h1 h2 hu hb
      rw [he]
      exact gb_ev_mono (c := d) hg
  · rwa [show swept s d = d from if_pos (by simp [hu])]

theorem mem_pageSlots (hs : s < 0x80) (hk : (pageKind s).isSome = true) : s ∈ pageSlots :=
  List.mem_filter.mpr ⟨List.mem_range.mpr hs, hk⟩

/-- The sweep over the pages shows PAR_ERR on a page that is on with a mismatch. -/
theorem forL_swept (h1 : c.ct1 = []) (h2 : c.ct2 = []) (hs : s < 0x80) (hk : (pageKind s).isSome = true) (hu : c.islandUp (islandOf s) = true)
    (hp : c.parBad (pg s) (pg s + 0x1000) ≠ []) :
    SweepKeeps c (forL pageSlots swept c) ∧ (forL pageSlots swept c).gb (pg s + 8) 9 = true := by
  obtain ⟨l, r, hl⟩ := List.append_of_mem (mem_pageSlots hs hk)
  have hc : SweepKeeps c c := ⟨h1, h2, rfl, fun _ _ => rfl⟩
  have hbefore : SweepKeeps c (forL l swept c) := forL_induct (SweepKeeps c) (fun _ _ => sweepKeeps_swept) l hc
  have hat : SweepKeeps c (swept s (forL l swept c)) ∧ (swept s (forL l swept c)).gb (pg s + 8) 9 = true := by
    refine ⟨sweepKeeps_swept hbefore, ?_⟩
    obtain ⟨k1, k2, kp, kr⟩ := hbefore
    have hu' : (forL l swept c).islandUp (islandOf s) = true := by rw [Core.islandUp, gb_congr (kr _ (by decide))]; exact hu
    obtain ⟨r, he⟩ := swept_of_wrong k1 k2 hu' (by rwa [Core.parBad, kp])
    rw [he]
    exact Core.gb_ev _ _ 9 _ (by decide)
  have hsplit : forL pageSlots swept c = forL r swept (swept s (forL l swept c)) := by
    rw [hl, forL, List.foldl_append, List.foldl_cons]; rfl
  rw [hsplit]
  exact forL_induct (fun d => SweepKeeps c d ∧ d.gb (pg s + 8) 9 = true) (fun _ _ h => ⟨sweepKeeps_swept h.1, gb_swept h.1 h.2⟩) r hat

/-- The block as a flipped CF bit leaves it: the register changed, its parity not (R42). -/
def flipped (c : Core) (a b : Nat) : Core :=
  { c.wr a (c.rd a ^^^ bit b) with parMis := Sparse.upd (fun _ => 0) c.parMis a (· ^^^ BitVec.ofNat 4 (1 <<< (b / 8))) }

theorem sweep_one {u : Upset} {r : Row} (hu : c.islandUp (islandOf (u.addr.toNat / 0x1000)) = true)
    (hr : regRow (u.addr.toNat / 0x1000) (u.addr.toNat % 0x1000) = some r) (hb : bitOf r.cf u.bit.val = true) :
    c.sweep [u] = forL pageSlots swept (flipped c u.addr.toNat u.bit.val) := by
  simp only [Core.sweep, forL, List.foldl_cons, List.foldl_nil, hr, hu, hb, Bool.not_true, Bool.false_eq_true, if_false, if_true]
  rfl

theorem parityMark_ne_zero : ∀ b : Fin 32, (0 : BitVec 4) ^^^ BitVec.ofNat 4 (1 <<< (b.val / 8)) ≠ 0 := by decide

/-- After a single flip its register is the one that mismatches. -/
theorem parMis_flipped (b : Fin 32) (h : c.parMis = []) :
    (flipped c a b.val).parMis = [(a, (0 : BitVec 4) ^^^ BitVec.ofNat 4 (1 <<< (b.val / 8)))] := by
  have hp : (flipped c a b.val).parMis = Sparse.put (fun _ => (0 : BitVec 4)) [] a ((0 : BitVec 4) ^^^ BitVec.ofNat 4 (1 <<< (b.val / 8))) := by
    rw [flipped, h]; rfl
  rw [hp, Sparse.put, if_neg (parityMark_ne_zero b)]
  rfl

/-- PG_STAT holds no CF field (Table 2-6). -/
theorem offset_of_cf {r : Row} {o b : Nat} (hr : regRow s o = some r) (hb : bitOf r.cf b = true) : o ≠ 8 := by
  rintro rfl
  obtain ⟨k, -, hk⟩ := Option.bind_eq_some_iff.mp ((if_pos rfl).symm.trans hr)
  cases (show some _ = some r from hk)
  simp [bitOf] at hb

theorem reaches_sweep_one {u : Upset} {r : Row} (hp : c.parMis = []) (h1 : c.ct1 = []) (h2 : c.ct2 = [])
    (hs : 0x20 ≤ u.addr.toNat / 0x1000) (hu : c.islandUp (islandOf (u.addr.toNat / 0x1000)) = true)
    (hr : regRow (u.addr.toNat / 0x1000) (u.addr.toNat % 0x1000) = some r) (hb : bitOf r.cf u.bit.val = true) :
    Reaches (.configSweep [u]) c fun d => d.rd u.addr.toNat = c.rd u.addr.toNat ^^^ bit u.bit.val ∧ d.parMis ≠ [] ∧
      d.gb (pg (u.addr.toNat / 0x1000) + 8) 9 = true := by
  have hlt : u.addr.toNat / 0x1000 < 0x80 := Nat.div_lt_of_lt_mul u.addr.isLt
  have hpar := parMis_flipped (a := u.addr.toNat) u.bit hp
  have hne : u.addr.toNat ≠ lev 0x204 := fun h => by rw [h] at hs; exact absurd hs (by decide)
  have hup : (flipped c u.addr.toNat u.bit.val).islandUp (islandOf (u.addr.toNat / 0x1000)) = true :=
    (gb_congr (rd_wr_ne _ hne.symm) _).trans hu
  have hbad : (flipped c u.addr.toNat u.bit.val).parBad (pg (u.addr.toNat / 0x1000)) (pg (u.addr.toNat / 0x1000) + 0x1000) ≠ [] := by
    rw [Core.parBad, hpar, Sparse.range, if_pos (by simp only [pg]; omega)]
    exact List.cons_ne_nil _ _
  obtain ⟨⟨-, -, kp, kr⟩, hg⟩ := forL_swept (c := flipped c u.addr.toNat u.bit.val) h1 h2 hlt
    (by rw [pageKind_of_port hs hlt]; rfl) hup hbad
  refine reaches_of_on (f := (·.sweep [u])) (fun _ => rfl) ?_
  rw [sweep_one hu hr hb, kp, kr _ (offset_of_cf hr hb), hpar]
  exact ⟨(Core.rd_wr _ _ _ _).trans (if_pos rfl), List.cons_ne_nil _ _, hg⟩

end PageControl

/-- Settles O9: PG_CTRL written, its scan and its soft reset ended, and the sweep with no upset and with one. -/
theorem pagesEnableResetAndRepair : Obligations.PagesEnableResetAndRepair := by
  unfold Obligations.PagesEnableResetAndRepair
  intro c
  refine ⟨fun p h ho => ?_, fun p hp => ⟨fun hb => ?_, fun a l hb => ?_⟩, fun p hp => ?_,
    fun p h hb => reaches_of_on (f := (·.softDone p.val)) (fun _ => rfl) (softDone_port h p.isLt hb), fun p hb => ?_, fun hp h1 h2 => ?_,
    fun u hp h1 h2 hs hu r hr hb => reaches_sweep_one hp h1 h2 hs hu hr hb⟩
  · refine ⟨fun v hq h0 h1 he hs hst => ?_, fun v hq h0 h1 he hs hst => ?_, fun v hq h0 h1 he => ?_, fun v hq h0 hb he => ?_,
      fun v hq h0 hb he => ?_⟩
    · refine answers_pgCtrl (fun _ => rfl) h p.isLt ho hq ?_
      rw [ctrlWrite_of_noReset h1, h0, writeEn_of_stale he (by rwa [scans_stored]) (stale_stored.trans hst), scans_stored]
    · refine answers_pgCtrl (fun _ => rfl) h p.isLt ho hq ?_
      rw [ctrlWrite_of_noReset h1, h0, writeEn_of_fresh he (by rwa [scans_stored]) (stale_stored.trans hst)]
    · refine answers_pgCtrl (fun _ => rfl) h p.isLt ho hq ?_
      rw [ctrlWrite_of_noReset h1, h0, writeEn_off he, scans_stored]
    · refine answers_pgCtrl (fun _ => rfl) h p.isLt ho hq ?_
      rw [ctrlWrite_of_reset bitOf_or_two.2, bitOf_or_two.1, h0, writeEn_off he, scans_stored]
      exact if_neg (Bool.eq_false_iff.mp hb)
    · refine answers_pgCtrl (fun _ => rfl) h p.isLt ho hq ?_
      rw [ctrlWrite_of_reset bitOf_or_two.2, bitOf_or_two.1, h0, writeEn_off he, scans_stored]
      exact if_pos hb
  · exact goes_of_on (f := (·.scanEnd p.val)) (fun _ => rfl) (scanEnd_of_right hp hb)
  · exact goes_of_on (f := (·.scanEnd p.val)) (fun _ => rfl) (scanEnd_of_wrong hp hb)
  · exact goes_of_on (f := (·.scanEnd p.val)) (fun _ => rfl) (if_pos (by simp [hp]))
  · exact goes_of_on (f := (·.softDone p.val)) (fun _ => rfl) (softDone_of_idle hb)
  · refine goes_of_on (f := (·.sweep [])) (fun _ => rfl) (sweep_nil.trans ?_)
    refine forL_induct (· = c) (fun s d hd => ?_) pageSlots rfl
    rw [hd, swept_of_clean h1 h2 (by rw [Core.parBad, hp]; rfl)]

/-! ## The guarded fallback (R52–R56) -/

section Fallback

variable {i : Instr} {c d : Core} {s o off left cause : Nat} {v : Word} {q : Nat × Nat} {r : Row}

/-- GRD_TGT keeps the target and opens a sequence; a change of reserved bits would be recorded first (R53). -/
theorem regWrite_grdTgt (h : 0x20 ≤ s) (hs : s < 0x80) (hq : Quiet d (pg s + 0x30) v) :
    d.regWrite (pg s + 0x30) v all32 left = (Stored d (pg s + 0x30) v 0xFFC).grdTgt s := by
  have hdiv : (pg s + 0x30) / 0x1000 = s := pg_div (by decide)
  have hmod : (pg s + 0x30) % 0x1000 = 0x30 := pg_mod (by decide)
  have hk := pageKind_of_port h hs
  have hr : regRow ((pg s + 0x30) / 0x1000) ((pg s + 0x30) % 0x1000) = some (rowCF 0x030 0xFFC 0) := by
    rw [hdiv, hmod, regRow_of_page hk rfl]; rfl
  have hgrd : isGrd ((pg s + 0x30) / 0x1000) ((pg s + 0x30) % 0x1000) = true := by rw [hdiv, hmod, isGrd, hk]; rfl
  have hbits : storedBits d (rowCF 0x030 0xFFC 0) 0x30 all32 = 0xFFC ||| if d.sealed then 0 else rvOf (pg s + 0x30) := by
    rw [storedBits, and_all32, and_all32, rvOf_of_row hr]; rfl
  rw [regWrite_of_grd hr (permitted_of_soft (by decide)) (unlocked_of_port (by rwa [hdiv]) (.inl (by rw [hmod]; decide))) rfl rfl hgrd]
  simp only [rvNoted_full, if_pos hq, hmod, hdiv, if_true, hbits]
  rfl

/-- GRD_VAL and GRD_CPL keep no bit of their own (Table 2-11). -/
theorem regWrite_grdStep (h : 0x20 ≤ s) (hs : s < 0x80) (ho : o = 0x34 ∨ o = 0x38) :
    d.regWrite (pg s + o) v all32 left = if o = 0x34 then d.grdValue s v else d.grdApply s v := by
  have hlt : o < 0x1000 := by omega
  have hdiv : (pg s + o) / 0x1000 = s := pg_div hlt
  have hmod : (pg s + o) % 0x1000 = o := pg_mod hlt
  have hk := pageKind_of_port h hs
  have hr : regRow ((pg s + o) / 0x1000) ((pg s + o) % 0x1000) = some { off := o, cf := all32, zero := all32 } := by
    rw [hdiv, hmod, regRow_of_page hk (by omega)]
    rcases ho with rfl | rfl <;> rfl
  have hgrd : isGrd ((pg s + o) / 0x1000) ((pg s + o) % 0x1000) = true := by
    rw [hdiv, hmod, isGrd, hk]
    rcases ho with rfl | rfl <;> rfl
  have hrv : rvOf (pg s + o) = 0 := by rw [rvOf_of_row hr]; simp only [Row.rv]; decide
  have hquiet : Quiet d (pg s + o) v := by rw [Quiet, hrv]; exact BitVec.and_zero
  have h30 : o ≠ 0x30 := by omega
  rw [regWrite_of_grd hr (permitted_of_soft (show all32 ||| 0 ≠ 0 by decide)) (unlocked_of_port (by rwa [hdiv]) (.inl (by rw [hmod]; omega)))
    rfl rfl hgrd]
  simp only [rvNoted_full, if_pos hquiet, hmod, hdiv, if_neg h30, if_true]

theorem answers_grdTgt {p : PageSlot} (h : 0x20 ≤ p.val) (ho : Open c (islandOf p.val)) (hq : Quiet (Arrives c) (pg p.val + 0x30) v)
    (hd : (Stored (Arrives c) (pg p.val + 0x30) v 0xFFC).grdTgt p.val = d) : Answers (.grdTgtWrite p v) c d .done :=
  answers_portWrite (fun _ => rfl) h p.isLt (by decide) rfl ho ((regWrite_grdTgt h p.isLt hq).trans hd)

theorem answers_grdVal {p : PageSlot} (h : 0x20 ≤ p.val) (ho : Open c (islandOf p.val)) (hd : (Arrives c).grdValue p.val v = d) :
    Answers (.grdValWrite p v) c d .done :=
  answers_portWrite (fun _ => rfl) h p.isLt (by decide) rfl ho ((regWrite_grdStep h p.isLt (.inl rfl)).trans hd)

theorem answers_grdCpl {p : PageSlot} (h : 0x20 ≤ p.val) (ho : Open c (islandOf p.val)) (hd : (Arrives c).grdApply p.val v = d) :
    Answers (.grdCplWrite p v) c d .done :=
  answers_portWrite (fun _ => rfl) h p.isLt (by decide) rfl ho ((regWrite_grdStep h p.isLt (.inr rfl)).trans hd)

/-! ### The steps of a sequence -/

/-- A sequence of a page discarded with its cause. -/
def grdDropped (d : Core) (s off cause : Nat) : Core := (({ d with grd := none } : Core).sf (pg s + 0x3C) 0 2 0).grdRej s off cause

theorem grdDrop_of_open (hg : d.grd = some q) (hq : q.1 = s) : d.grdDrop off cause = grdDropped d s off cause := by
  subst hq
  simp only [Core.grdDrop, hg, grdDropped]

/-- A page holds one state of a sequence at a time, and the sequence is its own. -/
theorem grdAt_iff {n : Nat} : d.grdAt s n = true ↔ (∃ q, d.grd = some q ∧ q.1 = s) ∧ d.gf (pg s + 0x3C) 0 2 = n := by
  cases hg : d.grd <;> simp [Core.grdAt, hg]

theorem grdTgt_of_none (hg : d.grd = none) : d.grdTgt s = ({ d with grd := some (s, d.tick) } : Core).sf (pg s + 0x3C) 0 2 1 := by
  have h : d.grdDrop 0x30 3 = d := by simp only [Core.grdDrop, hg]
  rw [Core.grdTgt, h]

theorem grdValue_of_open (h : d.grdAt s 1 = true) : d.grdValue s v = ({ d with grdVal := v } : Core).sf (pg s + 0x3C) 0 2 2 := by
  rw [Core.grdValue, if_pos h]

theorem grdValue_of_late (h : d.grdAt s 2 = true) : d.grdValue s v = grdDropped d s 0x34 3 := by
  obtain ⟨⟨q, hg, hq⟩, h2⟩ := grdAt_iff.mp h
  have h1 : ¬d.grdAt s 1 = true := fun h1 => by have := (grdAt_iff.mp h1).2; omega
  rw [Core.grdValue, if_neg h1, if_pos h]
  exact grdDrop_of_open hg hq

/-- The third write, in the order of its checks (R54): expiry, the Warden, the target, the complement. -/
theorem grdApply_of_open (hg : d.grd = some q) (hq : q.1 = s) (h2 : d.gf (pg s + 0x3C) 0 2 = 2) (ho : d.gf (pg s + 0x30) 2 10 * 4 = o)
    (hr : regRow s o = some r) :
    d.grdApply s v =
      if q.2 + 1024 ≤ d.tick then grdDropped d s 0x38 5
      else if d.wState ≠ 4 then grdDropped d s 0x38 1
      else if r.elig = 0 then grdDropped d s 0x38 2
      else if v ≠ ~~~d.grdVal then grdDropped d s 0x38 4
      else (((({ d with grd := none } : Core).sf (pg s + 0x3C) 0 2 0).guardSet s o d.grdVal (d.grdMask r d.grdVal) 8 false).1).ev
        (pg s + 0x3C) (bit 2) := by
  have h1 : ¬d.grdAt s 1 = true := fun h1 => by have := (grdAt_iff.mp h1).2; omega
  have hat : d.grdAt s 2 = true := grdAt_iff.mpr ⟨⟨q, hg, hq⟩, h2⟩
  have hany : (!(r.elig != 0)) = true ↔ r.elig = 0 := by simp
  have hdrop (k : Nat) : d.grdDrop 0x38 k = grdDropped d s 0x38 k := grdDrop_of_open hg hq
  simp only [Core.grdApply, ho, hr, if_neg h1, hat, hdrop, hg, Bool.not_true, Bool.false_eq_true, if_false, hany]
  rfl

theorem grdExpire_of_old {t : Nat} (hg : d.grd = some (s, t)) (ht : t + 1024 ≤ d.tick) : d.grdExpire = grdDropped d s 0x30 5 := by
  simp only [Core.grdExpire, hg, if_pos ht, grdDrop_of_open hg rfl]

theorem grdExpire_of_young {t : Nat} (hg : d.grd = some (s, t)) (ht : d.tick < t + 1024) : d.grdExpire = d := by
  simp only [Core.grdExpire, hg, if_neg (Nat.not_le.mpr ht)]

end Fallback

/-- Settles O10: the three writes and the expiry, each by its step of the sequence. -/
theorem theGuardedFallbackTakesThreeWrites : Obligations.TheGuardedFallbackTakesThreeWrites := by
  unfold Obligations.TheGuardedFallbackTakesThreeWrites
  intro c p h
  refine ⟨fun ho => ⟨fun v hq hg => ?_, fun v hat => answers_grdVal h ho (grdValue_of_open hat),
    fun v hat => answers_grdVal h ho (grdValue_of_late hat), fun v q r hg hq h2 hr => ⟨fun ht hw he hv => ?_, fun ht hw he hv => ?_,
      fun ht hw => ?_, fun ht hw he => ?_, fun ht => ?_⟩⟩, fun t hg => ⟨fun ht => ?_, fun ht => ?_⟩⟩
  · refine answers_grdTgt h ho hq ?_
    rw [stored_of_ne (by decide)]
    exact grdTgt_of_none hg
  · refine answers_grdCpl h ho ((grdApply_of_open hg hq h2 rfl hr).trans ?_)
    rw [if_neg (Nat.not_le.mpr ht), if_neg (not_not.mpr hw), if_neg he, if_neg (not_not.mpr hv)]
  · refine answers_grdCpl h ho ((grdApply_of_open hg hq h2 rfl hr).trans ?_)
    rw [if_neg (Nat.not_le.mpr ht), if_neg (not_not.mpr hw), if_neg he, if_pos hv]
    rfl
  · refine answers_grdCpl h ho ((grdApply_of_open hg hq h2 rfl hr).trans ?_)
    rw [if_neg (Nat.not_le.mpr ht), if_pos hw]
    rfl
  · refine answers_grdCpl h ho ((grdApply_of_open hg hq h2 rfl hr).trans ?_)
    rw [if_neg (Nat.not_le.mpr ht), if_neg (not_not.mpr hw), if_pos he]
    rfl
  · exact answers_grdCpl h ho ((grdApply_of_open hg hq h2 rfl hr).trans (if_pos ht))
  · exact goes_of_on (f := (·.grdExpire)) (fun _ => rfl) (grdExpire_of_old hg ht)
  · exact goes_of_on (f := (·.grdExpire)) (fun _ => rfl) (grdExpire_of_young hg ht)

/-! ## Snapshots (R62–R66, R500) -/

section Snapshots

variable {i : Instr} {c d x : Core} {a b k left : Nat} {v w m : Word} {q : Nat × Nat}

/-! ### The commands -/

/-- Bits outside the reserved ones do not make a write less quiet (R48). -/
theorem quiet_of_zero (h : Quiet d a 0) (hv : v &&& rvOf a = 0) : Quiet d a v := by
  have e : (v ^^^ d.view a) &&& rvOf a = (v &&& rvOf a) ^^^ ((0 ^^^ d.view a) &&& rvOf a) := by
    have h0 : 0 ^^^ d.view a = d.view a := BitVec.zero_xor
    rw [h0]
    ext j
    simp only [BitVec.getElem_and, BitVec.getElem_xor, Bool.and_xor_distrib_right]
  rw [Quiet, e, hv, h]
  exact BitVec.xor_self

/-- The row of SNP_CMD (Table 2-14). -/
def snpCmdRow : Row := { off := 0xB00, cf := 0x7, lv := 0x300, cmd := 0x7 }

/-- A quiet write of SNP_CMD keeps no command bit: the command acts. -/
theorem regWrite_snpCmd (hq : Quiet d (snp 0xB00) 0) (hv : v &&& ~~~0x307 = 0) :
    d.regWrite (snp 0xB00) v all32 left = (Stored d (snp 0xB00) v 0).snapCmd v left := by
  have hr : regRow (snp 0xB00 / 0x1000) (snp 0xB00 % 0x1000) = some snpCmdRow := rfl
  have hq' : Quiet d (snp 0xB00) v := quiet_of_zero hq (by rw [rvOf_of_row hr]; exact hv)
  have hlock : Unlocked d snpCmdRow (snp 0xB00 / 0x1000) (snp 0xB00 % 0x1000) all32 := ⟨fun h => absurd h.2.1 (by decide), rfl, rfl⟩
  have hdiv : snp 0xB00 / 0x1000 = 0xE := rfl
  have hmod : snp 0xB00 % 0x1000 = 0xB00 := rfl
  have hk : pageKind 0xE = some .snp := rfl
  have h4 : (0xB00 : Nat) ≠ 4 := by decide
  rw [regWrite_of_quiet (k := 0) hr (permitted_of_soft (by decide)) hlock rfl rfl (by decide) rfl rfl hq', hdiv, hmod]
  simp only [Core.writeEffect, if_neg h4, hk, if_true]

theorem answers_snpCmd (hi : ∀ u, exec i u = u.on (·.access (.wr (snp 0xB00) v left))) (ho : Open c 2) (hq : Quiet (Arrives c) (snp 0xB00) 0)
    (hv : v &&& ~~~0x307 = 0) (hd : (Stored (Arrives c) (snp 0xB00) v 0).snapCmd v left = d) : Answers i c d .done :=
  answers_write hi rfl (by decide) ho rfl rfl ((regWrite_snpCmd hq hv).trans hd)

/-- Whether a request can be served: SNP is enabled and D06 runs (R66). -/
def snapServes (c : Core) : Bool := c.en 0xE && c.d06

theorem snapServes_stored : snapServes (Stored d (snp 0xB00) v w) = snapServes d := by
  have hen : (Stored d (snp 0xB00) v w).en 0xE = d.en 0xE := gb_congr (rd_stored_ne (by decide)) 0
  have hd06 : (Stored d (snp 0xB00) v w).d06 = d.d06 := by rw [stored_frame]
  rw [snapServes, hen, hd06, snapServes]

/-- A boundary asked for: SNAP_BUSY shows it (R63). -/
def snapAsked (c : Core) (q : Nat × Nat) : Core := { c with snpS := { c.snpS with req := some q } }.sb (snp 0xB00) 8 true

/-- A request withdrawn (R63). -/
def snapUnasked (c : Core) : Core := { c with snpS := { c.snpS with req := none } }.sb (snp 0xB00) 8 false

/-- The boundary that ARM names (Table 2-14). -/
def snapTarget (c : Core) : Nat := (c.rd (snp 0xB04)).toNat + (c.rd (snp 0xB08)).toNat * 2 ^ 32

theorem snapTarget_stored : snapTarget (Stored d (snp 0xB00) v w) = snapTarget d := by
  simp only [snapTarget, rd_stored_ne (a := snp 0xB00) (b := snp 0xB04) (by decide), rd_stored_ne (a := snp 0xB00) (b := snp 0xB08) (by decide)]

theorem snapCmd_all : d.snapCmd 1 left = if d.gb (snp 0xB00) 8 then d.ign (snp 0xB00) 8 else if !snapServes d then d.snapVoid
    else snapAsked d (1, d.frame + (if left < 8 then 2 else 1)) := rfl

theorem snapCmd_arm : d.snapCmd 2 left = if d.gb (snp 0xB00) 8 then d.ign (snp 0xB00) 8 else if !snapServes d then d.snapVoid
    else if snapTarget d ≤ d.frame then d.snapMiss else snapAsked d (2, snapTarget d) := by
  have h0 : bitOf 2 0 = false := rfl
  have h1 : bitOf 2 1 = true := rfl
  have h2 : bitOf 2 2 = false := rfl
  simp only [Core.snapCmd, h0, h1, h2, Bool.or_false, Bool.not_true, Bool.not_false, Bool.false_eq_true, if_false, if_true]
  rfl

theorem snapCmd_cancel : d.snapCmd 4 left = d.snapCancel left := rfl

theorem snapCancel_of_busy (h : d.gb (snp 0xB00) 9 = true) : d.snapCancel left = d.ign (snp 0xB00) 8 := by
  rw [Core.snapCancel, if_pos h]

theorem snapCancel_of_none (h : d.gb (snp 0xB00) 9 = false) (hr : d.snpS.req = none) : d.snapCancel left = d.sb (snp 0xB00) 9 true := by
  simp [Core.snapCancel, h, hr]

/-- A request is withdrawn while its boundary is far enough ahead (R63). -/
theorem snapCancel_of_req (h : d.gb (snp 0xB00) 9 = false) (hr : d.snpS.req = some q) :
    d.snapCancel left = if q.2 ≤ d.frame ∨ (q.2 = d.frame + 1 ∧ left < 8) then d.sb (snp 0xB00) 9 true
      else snapUnasked (d.sb (snp 0xB00) 9 true) := by
  simp only [Core.snapCancel, h, hr, Core.sb_snpS, Bool.false_eq_true, if_false]
  rfl

/-! ### What a snapshot captures -/

/-- A register map without the keys of a set. -/
theorem get_filter {α : Type} {z : Nat → α} {f : Nat → Bool} (l : SMap α) (a : Nat) :
    Sparse.get z (l.filter fun q => f q.1) a = if f a then Sparse.get z l a else z a := by
  induction l with
  | nil => simp [Sparse.get]
  | cons q l ih =>
    obtain ⟨j, y⟩ := q
    by_cases hj : a = j
    · subst hj
      cases hf : f a <;> simp [hf, Sparse.get, ih]
    · cases hf : f j <;> simp [hf, Sparse.get, ih, hj]

/-- The block with its counters taken away. -/
def uncounted (c : Core) (y : Option Capture) : Core := { c with regs := c.regs.filter fun q => !c.counts q.1, snpS := { c.snpS with sel := y } }

theorem rd_uncounted {y : Option Capture} : (uncounted c y).rd a = if c.counts a then regReset a else c.rd a := by
  refine (get_filter (f := fun k => !c.counts k) c.regs a).trans ?_
  cases c.counts a <;> rfl

/-- The live TRIB bank cleared. -/
def bankCleared (c : Core) : Core := if c.bank then { c with tcA := [] } else { c with tcB := [] }

theorem bankCleared_frame : bankCleared c = { c with tcA := (bankCleared c).tcA, tcB := (bankCleared c).tcB } := by
  unfold bankCleared
  split <;> rfl

/-- What a snapshot captures: the counters of the powered pages with the pages that are stale or off (R62). -/
def captured (c : Core) (src merged : Nat) : Capture :=
  { source := src, merged := merged, stale := slotSet c.stale, off := slotSet fun s => !c.islandUp (islandOf s),
    cnt := c.regs.filter fun q => c.counts q.1 }

/-- The block with its captured counts taken away and the live TRIB bank cleared. -/
def counting (c : Core) (src merged : Nat) : Core := bankCleared (uncounted c (some (captured c src merged)))

theorem capture_eq {src merged : Nat} : c.capture src merged = (counting c src merged).sb (snp 0x218) 3 (!(counting c src merged).bank) := rfl

theorem rd_counting {src merged : Nat} : (counting c src merged).rd a = if c.counts a then regReset a else c.rd a := by
  rw [counting, bankCleared_frame]
  exact rd_uncounted (y := some (captured c src merged))

theorem not_counts_of_live (h : a % 0x1000 < 0x500) : ¬c.counts a = true := by
  simp [Core.counts, Nat.not_le.mpr h]

theorem bank_counting {src merged : Nat} : (counting c src merged).bank = c.bank :=
  gb_congr (rd_counting.trans (if_neg (not_counts_of_live (by decide)))) 3

/-- A capture keeps every counter as it stands, starts it from its reset value and changes banks (R62). -/
theorem capture_spec (src merged : Nat) : (∀ a, c.counts a = true → (c.capture src merged).rd a = regReset a) ∧
    (c.capture src merged).snpS.sel = some (captured c src merged) ∧ (c.capture src merged).bank = (!c.bank) ∧
    (c.capture src merged).tbl = c.tbl ∧ (c.capture src merged).frame = c.frame := by
  have hframe := bankCleared_frame (c := uncounted c (some (captured c src merged)))
  refine ⟨fun a ha => ?_, ?_, ?_, ?_, ?_⟩
  · have hne : a ≠ snp 0x218 := fun h => not_counts_of_live (by rw [h]; decide) ha
    rw [capture_eq, rd_sb_ne _ _ hne, rd_counting, if_pos ha]
  · rw [capture_eq, Core.sb_snpS, counting, hframe]; rfl
  · rw [capture_eq, Core.bank, Core.gb_sb _ _ _ _ (by decide), bank_counting]
  · rw [capture_eq, Core.sb_tbl, counting, hframe]; rfl
  · rw [capture_eq, Core.sb_frame, counting, hframe]; rfl

/-! ### The copy -/

/-- The two blocks differ in registers only. -/
def RegistersOnly (c d : Core) : Prop := d = { c with regs := d.regs }

theorem registersOnly_wr (h : RegistersOnly c d) : RegistersOnly c (d.wr a v) := by
  rw [RegistersOnly] at h ⊢
  rw [h]
  rfl

theorem registersOnly_clearRegs {lo hi : Nat} (h : RegistersOnly c d) : RegistersOnly c (d.clearRegs lo hi) := by
  rw [RegistersOnly] at h ⊢
  rw [h]
  rfl

/-- A page's holding area cleared, and what it leaves. -/
theorem rd_clearHld (l : List Nat) : (forL l (fun s c => c.clearRegs (pg s + 0x800) (pg s + 0xB00)) x).rd a =
    if ∃ s ∈ l, pg s + 0x800 ≤ a ∧ a < pg s + 0xB00 then regReset a else x.rd a := by
  induction l generalizing x with
  | nil => simp [forL]
  | cons s l ih =>
    refine ih.trans ?_
    rw [Core.rd_clearRegs]
    by_cases hs : pg s + 0x800 ≤ a ∧ a < pg s + 0xB00
    · simp [hs]
    · simp [hs]

/-- The captured counts put into the holding registers: one that none goes to keeps its value. -/
theorem rd_hold_ne (l : List (Nat × Word)) (h : ∀ r ∈ l, r.1 + 0x300 ≠ a) :
    (forL l (fun r c => c.wr (r.1 + 0x300) r.2) x).rd a = x.rd a := by
  induction l generalizing x with
  | nil => rfl
  | cons r l ih =>
    exact (ih fun t ht => h t (.tail _ ht)).trans (rd_wr_ne _ (h r (.head _)).symm)

theorem rd_hold (l : List (Nat × Word)) (hn : (l.map (·.1)).Nodup) {r : Nat × Word} (hr : r ∈ l) :
    (forL l (fun r c => c.wr (r.1 + 0x300) r.2) x).rd (r.1 + 0x300) = r.2 := by
  induction l generalizing x with
  | nil => cases hr
  | cons t l ih =>
    obtain ⟨ht, hn⟩ := List.nodup_cons.mp hn
    rcases List.mem_cons.mp hr with rfl | hr
    · refine (rd_hold_ne l fun u hu he => ht ?_).trans ((Core.rd_wr _ _ _ _).trans (if_pos rfl))
      exact List.mem_map.mpr ⟨u, hu, Nat.add_right_cancel he⟩
    · exact ih hn hr

/-- The stale and the absent pages of a copy as the SNP page shows them (Table 2-14). -/
def slotsShown (q : Capture) (c : Core) : Core :=
  forN 4 (fun i c => (c.wr (snp (0xB10 + 4 * i)) (q.stale.getD i 0)).wr (snp (0xB20 + 4 * i)) (q.off.getD i 0)) c

/-- What the SNP page shows of a copy (Table 2-14). -/
def snapShown (q : Capture) (n : Nat) (c : Core) : Core :=
  (((slotsShown q c).wr (snp 0x208) (BitVec.ofNat 32 n)).wr (snp 0x20C) (BitVec.ofNat 32 (n / 2 ^ 32))).sf (snp 0x218) 1 2 q.source

/-- The holding registers as the copy fills them (R62). -/
def held (q : Capture) (c : Core) : Core :=
  forL q.cnt (fun r c => c.wr (r.1 + 0x300) r.2) (forL pageSlots (fun s c => c.clearRegs (pg s + 0x800) (pg s + 0xB00)) c)

theorem held_frame {q : Capture} : RegistersOnly c (held q c) :=
  forL_induct (RegistersOnly c) (fun _ _ => registersOnly_wr) _ (forL_induct (RegistersOnly c) (fun _ _ => registersOnly_clearRegs) _ rfl)

theorem slotsShown_frame {q : Capture} : RegistersOnly c (slotsShown q c) :=
  forN_induct (RegistersOnly c) (fun _ _ _ h => registersOnly_wr (registersOnly_wr h)) rfl

theorem snapShown_frame {q : Capture} {n : Nat} : RegistersOnly c (snapShown q n c) :=
  registersOnly_wr (registersOnly_wr (registersOnly_wr slotsShown_frame))

/-- Outside the SNP page and in every holding register what the SNP page shows changes nothing. -/
theorem rd_snapShown {q : Capture} {n : Nat} (h : a / 0x1000 = 0xE → 0x800 ≤ a % 0x1000 ∧ a % 0x1000 < 0xB00) : (snapShown q n c).rd a = c.rd a := by
  have h208 : a ≠ snp 0x208 := by simp only [snp]; omega
  have h20C : a ≠ snp 0x20C := by simp only [snp]; omega
  have h218 : a ≠ snp 0x218 := by simp only [snp]; omega
  refine (rd_sf_ne _ _ _ h218).trans ((rd_wr_ne _ h20C).trans ((rd_wr_ne _ h208).trans ?_))
  refine forN_induct (fun d : Core => d.rd a = c.rd a) (fun i d hi hd => ?_) rfl
  have hB10 : a ≠ snp (0xB10 + 4 * i) := by simp only [snp]; omega
  have hB20 : a ≠ snp (0xB20 + 4 * i) := by simp only [snp]; omega
  exact (rd_wr_ne _ hB20).trans ((rd_wr_ne _ hB10).trans hd)

theorem rd_snapShown_frame {q : Capture} {n : Nat} : (snapShown q n c).rd (snp 0x208) = BitVec.ofNat 32 n :=
  (rd_sf_ne _ _ _ (by decide)).trans ((rd_wr_ne _ (by decide)).trans ((Core.rd_wr _ _ _ _).trans (if_pos rfl)))

/-- The copy made: its count and that of the merged snapshots (Table 2-14). -/
def snapCounted (merged : Nat) (y : SnpSt) (c : Core) : Core := (({ c with snpS := y } : Core).cn (snp 0x500) 1).cn (snp 0x508) merged

theorem snapCounted_frame {n : Nat} {y : SnpSt} : snapCounted n y c = { c with snpS := y, regs := (snapCounted n y c).regs } := by
  rw [snapCounted, cn_frame, cn_frame (k := 1)]

theorem rd_snapCounted {n : Nat} {y : SnpSt} (h0 : a ≠ snp 0x500) (h8 : a ≠ snp 0x508) : (snapCounted n y c).rd a = c.rd a :=
  (rd_cn_ne _ h8).trans (rd_cn_ne _ h0)

theorem snapCopy_of_sel {q : Capture} (h : c.snpS.sel = some q) :
    c.snapCopy = snapCounted q.merged { c.snpS with sel := none, copied := true } (snapShown q c.frame (held q c)) := by
  have hframe : (slotsShown q (held q c)).frame = c.frame := by
    rw [show slotsShown q (held q c) = _ from slotsShown_frame, show held q c = _ from held_frame]
  have hsnp : (snapShown q c.frame (held q c)).snpS = c.snpS := by
    rw [show snapShown q c.frame (held q c) = _ from snapShown_frame, show held q c = _ from held_frame]
  calc c.snapCopy
      = snapCounted q.merged { (snapShown q (slotsShown q (held q c)).frame (held q c)).snpS with sel := none, copied := true }
          (snapShown q (slotsShown q (held q c)).frame (held q c)) := by simp only [Core.snapCopy, h]; rfl
    _ = snapCounted q.merged { c.snpS with sel := none, copied := true } (snapShown q c.frame (held q c)) := by rw [hframe, hsnp]

/-- Beyond the SNP page, and in every holding register, what the copy shows is what the holding registers' fill leaves. -/
theorem rd_snapCopy {q : Capture} (hq : c.snpS.sel = some q) (h : a / 0x1000 = 0xE → 0x800 ≤ a % 0x1000 ∧ a % 0x1000 < 0xB00) :
    c.snapCopy.rd a = (held q c).rd a := by
  rw [snapCopy_of_sel hq, rd_snapCounted (by simp only [snp]; omega) (by simp only [snp]; omega), rd_snapShown h]

theorem snapCopy_frame {q : Capture} (hq : c.snpS.sel = some q) :
    c.snapCopy = { c with snpS := { c.snpS with sel := none, copied := true }, regs := c.snapCopy.regs } := by
  rw [snapCopy_of_sel hq, snapCounted_frame, show snapShown q c.frame (held q c) = _ from snapShown_frame, show held q c = _ from held_frame]

/-- The captured counts are those of counter registers (Table 2-2). -/
def CountersOnly (q : Capture) : Prop := ∀ r ∈ q.cnt, r.1 / 0x1000 ∈ pageSlots ∧ 0x500 ≤ r.1 % 0x1000 ∧ r.1 % 0x1000 < 0x800

theorem rd_held_other {q : Capture} (hc : CountersOnly q) (h : a % 0x1000 < 0x800 ∨ 0xB00 ≤ a % 0x1000) : (held q c).rd a = c.rd a := by
  have hne : ∀ r ∈ q.cnt, r.1 + 0x300 ≠ a := fun r hr => by
    obtain ⟨-, h5, h8⟩ := hc r hr
    omega
  have hout : ¬∃ s ∈ pageSlots, pg s + 0x800 ≤ a ∧ a < pg s + 0xB00 := by
    rintro ⟨s, -, hs⟩
    simp only [pg] at hs
    omega
  rw [held, rd_hold_ne _ hne, rd_clearHld, if_neg hout]

theorem reaches_snapshot {q : Capture} (hq : c.snpS.sel = some q) (hn : (q.cnt.map (·.1)).Nodup) (hc : CountersOnly q) :
    Reaches .snapshot c fun d =>
      d.snpS = { c.snpS with sel := none, copied := true } ∧
      (∀ r ∈ q.cnt, d.rd (r.1 + 0x300) = r.2) ∧
      (∀ slot o, slot ∈ pageSlots → 0x800 ≤ o → o < 0xB00 → (∀ r ∈ q.cnt, r.1 + 0x300 ≠ pg slot + o) →
        d.rd (pg slot + o) = regReset (pg slot + o)) ∧
      (∀ slot o, slot < 0x80 → slot ≠ 0xE → o < 0x800 ∨ 0xB00 ≤ o ∧ o < 0x1000 → d.rd (pg slot + o) = c.rd (pg slot + o)) ∧
      d.rd (snp 0x208) = BitVec.ofNat 32 c.frame ∧ d.tbl = c.tbl ∧ d.frame = c.frame := by
  refine reaches_of_on (f := (·.snapCopy)) (fun _ => rfl) ⟨?_, fun r hr => ?_, fun s o hs h8 hB h => ?_, fun s o _ hs ho => ?_, ?_, ?_, ?_⟩
  · rw [snapCopy_frame hq]
  · obtain ⟨-, h5, h8⟩ := hc r hr
    rw [rd_snapCopy hq (by omega), held, rd_hold _ hn hr]
  · have hmod : (pg s + o) % 0x1000 = o := pg_mod (by omega)
    have hin : ∃ s' ∈ pageSlots, pg s' + 0x800 ≤ pg s + o ∧ pg s + o < pg s' + 0xB00 := ⟨s, hs, by omega, by omega⟩
    rw [rd_snapCopy hq (by omega), held, rd_hold_ne _ h, rd_clearHld, if_pos hin]
  · have hdiv : (pg s + o) / 0x1000 = s := pg_div (by omega)
    have hmod : (pg s + o) % 0x1000 = o := pg_mod (by omega)
    rw [rd_snapCopy hq (by omega), rd_held_other hc (by omega)]
  · rw [snapCopy_of_sel hq, rd_snapCounted (by decide) (by decide), rd_snapShown_frame]
  · rw [snapCopy_frame hq]
  · rw [snapCopy_frame hq]

/-! ### The generation and the withdrawal -/

theorem snapGen_of_copied (h : c.snpS.copied = true) (hr : c.snpS.req = none) :
    c.snapGen = ((({ c with snpS := { c.snpS with copied := false } }.wr (snp 0x10) (c.rd (snp 0x10) + 1)).ev (snp 0x400) (bit 0)).sb
      (snp 0xB00) 8 false) := by
  rw [Core.snapGen, if_pos h]
  exact if_pos (by rw [Option.isNone_iff_eq_none]; exact hr)

theorem snapGen_of_none (h : c.snpS.copied = false) : c.snapGen = c := if_neg (by simp [h])

/-- With no access waiting the rise of the generation is all that happens. -/
theorem goes_snapGen (h : c.snapGen = d) (hb : d.blocked = []) : Goes .snapGenIncrement c ({ d with linkOut := [] } : Core).msi := by
  refine goes_of_on (f := fun c => ({ c.snapGen with linkOut := [] } : Core).drain.msi) (fun _ => rfl) ?_
  rw [h, drain_of_nothingBlocked (c := { d with linkOut := [] }) hb]

theorem snapWithdraw_of_req (hr : c.snpS.req = some q) (h : snapServes c = false) :
    c.snapWithdraw = ({ c with snpS := { c.snpS with req := none } } : Core).snapMiss.sb (snp 0xB00) 8 false := by
  rw [snapServes] at h
  simp only [Core.snapWithdraw, hr, h, Option.isSome_some, Bool.not_false, Bool.and_self, if_true]

theorem snapWithdraw_of_none (hr : c.snpS.req = none) : c.snapWithdraw = c := if_neg (by simp [hr])

end Snapshots

/-- Settles O11: the commands by the cases of SNP_CMD, the capture and the copy by what they read, the generation and the withdrawal. -/
theorem snapshotsAreRequestedAndTaken : Obligations.SnapshotsAreRequestedAndTaken := by
  unfold Obligations.SnapshotsAreRequestedAndTaken
  intro c
  have hsnp (v : Word) : (Stored (Arrives c) (snp 0xB00) v 0).snpS = (Arrives c).snpS := by rw [stored_frame]
  have hframe (v : Word) : (Stored (Arrives c) (snp 0xB00) v 0).frame = (Arrives c).frame := by rw [stored_frame]
  have hall (left : Nat) (s) : exec (.snapAll left) s = s.on (·.access (.wr (snp 0xB00) 1 left)) := rfl
  have harm (s) : exec .snapArm s = s.on (·.access (.wr (snp 0xB00) 2 8)) := rfl
  have hcan (left : Nat) (s) : exec (.snapCancel left) s = s.on (·.access (.wr (snp 0xB00) 4 left)) := rfl
  refine ⟨fun ho hq _ hb => ⟨fun he hd left => ?_, fun he hd ht => ?_, fun he hd ht => ?_, fun hs left => ⟨?_, ?_⟩⟩,
    fun ho hq hb left => ⟨?_, ?_⟩,
    fun ho hq hb left => ⟨fun hr => ?_, fun q hr ht => ?_, fun q hr ht hl => ?_, fun q hr ht hl => ?_⟩, fun ho hq hb left => ?_,
    fun src merged => ?_, fun hs => ?_, fun q hq hn hc => reaches_snapshot hq hn hc, fun h hb hr => ?_, fun h hb => ?_,
    fun q hr h => ?_, fun hr => ?_⟩
  · have hs : snapServes (Arrives c) = true := by simp [snapServes, he, hd]
    refine answers_snpCmd (hall left) ho hq rfl ?_
    simp only [snapCmd_all, hb, snapServes_stored, hs, Bool.not_true, Bool.false_eq_true, if_false, snapAsked, hsnp, hframe]
  · have hs : snapServes (Arrives c) = true := by simp [snapServes, he, hd]
    refine answers_snpCmd harm ho hq rfl ?_
    simp only [snapCmd_arm, hb, snapServes_stored, snapTarget_stored, hframe, hs, Bool.not_true, Bool.false_eq_true, if_false,
      if_neg (Nat.not_le.mpr (show (Arrives c).frame < snapTarget (Arrives c) from ht)), snapAsked, hsnp]
    rfl
  · have hs : snapServes (Arrives c) = true := by simp [snapServes, he, hd]
    refine answers_snpCmd harm ho hq rfl ?_
    simp only [snapCmd_arm, hb, snapServes_stored, snapTarget_stored, hframe, hs, Bool.not_true, Bool.false_eq_true, if_false,
      if_pos (show snapTarget (Arrives c) ≤ (Arrives c).frame from ht)]
    rfl
  · have hs : snapServes (Arrives c) = false := by rcases hs with h | h <;> simp [snapServes, h]
    refine answers_snpCmd (hall left) ho hq rfl ?_
    simp only [snapCmd_all, hb, snapServes_stored, hs, Bool.not_false, Bool.false_eq_true, if_false, if_true]
    rfl
  · have hs : snapServes (Arrives c) = false := by rcases hs with h | h <;> simp [snapServes, h]
    refine answers_snpCmd harm ho hq rfl ?_
    simp only [snapCmd_arm, hb, snapServes_stored, hs, Bool.not_false, Bool.false_eq_true, if_false, if_true]
    rfl
  · exact answers_snpCmd (hall left) ho hq rfl (snapCmd_all.trans (if_pos (hb 1)))
  · exact answers_snpCmd harm ho hq rfl (snapCmd_arm.trans (if_pos (hb 2)))
  · exact answers_snpCmd (hcan left) ho hq rfl (snapCmd_cancel.trans (snapCancel_of_none hb (by rw [hsnp, hr])))
  · refine answers_snpCmd (hcan left) ho hq rfl (snapCmd_cancel.trans ((snapCancel_of_req hb (by rw [hsnp, hr])).trans ?_))
    rw [hframe, if_neg (by omega), snapUnasked, Core.sb_snpS, hsnp]
  · refine answers_snpCmd (hcan left) ho hq rfl (snapCmd_cancel.trans ((snapCancel_of_req hb (by rw [hsnp, hr])).trans ?_))
    rw [hframe, if_neg (by omega), snapUnasked, Core.sb_snpS, hsnp]
  · refine answers_snpCmd (hcan left) ho hq rfl (snapCmd_cancel.trans ((snapCancel_of_req hb (by rw [hsnp, hr])).trans ?_))
    rw [hframe, if_pos (.inr ⟨ht, hl⟩)]
  · exact answers_snpCmd (hcan left) ho hq rfl (snapCmd_cancel.trans (snapCancel_of_busy hb))
  · obtain ⟨hrd, hsel, hbank, htbl, hfr⟩ := capture_spec (c := c) src merged
    exact ⟨hrd, ⟨_, hsel, rfl, rfl, rfl⟩, hbank, htbl, hfr⟩
  · exact goes_of_on (f := (·.snapCopy)) (fun _ => rfl) (by simp only [Core.snapCopy, hs])
  · exact goes_snapGen (snapGen_of_copied h hr) hb
  · exact goes_snapGen (snapGen_of_none h) hb
  · exact goes_of_on (f := (·.snapWithdraw)) (fun _ => rfl)
      (snapWithdraw_of_req hr (by rcases h with h | h <;> simp [snapServes, h]))
  · exact goes_of_on (f := (·.snapWithdraw)) (fun _ => rfl) (snapWithdraw_of_none hr)

/-! ## PRBS pairs (R201, R203, R204) -/

section Patterns

variable {c : Core} {k code : Nat} {x : Prbs} {b : Bool}

/-- A bit that differs from the pattern's counts as errored (R204). -/
def errored (code : Nat) (x : Prbs) (b : Bool) : Nat := if (patNext code x.reg).1 = b then 0 else 1

/-- The correct bits in a row once a bit is received (R204). -/
def goodBits (code : Nat) (x : Prbs) (b : Bool) : Nat := if (patNext code x.reg).1 = b then x.good + 1 else 0

/-- Out of sync, the register loaded: the received bit counts towards sync or starts the count again. -/
theorem prbsBit_unsynced (hs : x.inSync = false) (hf : (patTaps code).1 ≤ x.fill) :
    x.bit code b = ({ x with reg := (2 * x.reg + (if b then 1 else 0)) % 2 ^ (patTaps code).1, good := goodBits code x b,
                             inSync := decide (64 ≤ goodBits code x b), cmp := 0, err := 0 }, 0, 0) := by
  simp only [Prbs.bit, hs, Bool.false_eq_true, if_false, if_neg (Nat.not_lt.mpr hf)]
  rfl

/-- In sync a received bit is compared; the 16th errored one of a block loses sync, and any other leaves the register to run on. -/
theorem prbsBit_synced (hs : x.inSync = true) :
    x.bit code b =
      if 16 ≤ x.err + errored code x b then ({ x.send with lost := true }, 1, errored code x b)
      else ({ x with reg := (patNext code x.reg).2, cmp := (x.cmp + 1) % 64, err := if x.cmp = 63 then 0 else x.err + errored code x b }, 1,
        errored code x b) := by
  simp only [Prbs.bit, hs, if_true]
  rfl

theorem compared_of_synced (hs : x.inSync = true) : (x.bit code b).2 = (1, errored code x b) := by
  rw [prbsBit_synced hs]
  split <;> rfl

theorem prbsGain_of_synced (ha : bitOf (c.trd (prbs k 4)) 2 = true) (hn : bitOf (c.trd (prbs k 4)) 0 = false) (hs : (c.pat k).inSync = true) :
    c.prbsGain k = (c.tev (prbs k 4) (bit 0)).tev (prbs k 5) (bit 0) := if_pos (by simp [ha, hn, hs])

theorem prbsGain_of_unsynced (h : bitOf (c.trd (prbs k 4)) 2 = false ∨ bitOf (c.trd (prbs k 4)) 0 = true ∨ (c.pat k).inSync = false) :
    c.prbsGain k = c := by
  refine if_neg ?_
  rcases h with h | h | h <;> simp [h]

theorem prbsLoss_of_lost (hs : bitOf (c.trd (prbs k 4)) 0 = true) (hl : (c.pat k).lost = true) :
    c.prbsLoss k = (c.setPat k { c.pat k with lost := false }).prbsLost k := if_pos (by simp [hs, hl])

theorem prbsLoss_of_kept (h : bitOf (c.trd (prbs k 4)) 0 = false ∨ (c.pat k).lost = false) : c.prbsLoss k = c := by
  refine if_neg ?_
  rcases h with h | h <;> simp [h]

end Patterns

/-- Settles O29: the two reports and SINGLE by their guards, and one received bit by the state it meets. -/
theorem prbsPairsRun : Obligations.PrbsPairsRun := by
  unfold Obligations.PrbsPairsRun
  intro c k
  have hgain (s) : exec (.prbsSyncGain k) s = s.on (·.prbsGain k.val) := rfl
  have hloss (s) : exec (.prbsSyncLoss k) s = s.on (·.prbsLoss k.val) := rfl
  have hsingle (s) : exec (.prbsSingle k) s = s.on (·.prbsSingle k.val) := rfl
  refine ⟨fun ha hn hs => goes_of_on hgain (prbsGain_of_synced ha hn hs), fun h => goes_of_on hgain (prbsGain_of_unsynced h),
    fun hs hl => goes_of_on hloss (prbsLoss_of_lost hs hl), fun h => goes_of_on hloss (prbsLoss_of_kept h),
    fun h => goes_of_on hsingle (if_neg (by simp [h])), fun h => goes_of_on hsingle (if_pos h),
    fun code x b => ⟨fun hs hf hg => ?_, fun hs hf hg => ?_, fun hs => ?_, fun hs he => ?_, fun hs he hg => ?_⟩⟩
  · rw [prbsBit_unsynced hs hf, goodBits, if_pos (of_decide_eq_true hg)]
    exact ⟨rfl, rfl⟩
  · rw [prbsBit_unsynced hs hf, goodBits, if_neg (of_decide_eq_false hg)]
    exact ⟨rfl, rfl⟩
  · rw [compared_of_synced hs, errored]
    simp only [decide_eq_true_eq]
  · have hstay : ¬16 ≤ x.err + errored code x b := by unfold errored; split <;> omega
    rw [prbsBit_synced hs, if_neg hstay]
    exact ⟨hs, rfl⟩
  · have hlose : 16 ≤ x.err + errored code x b := by rw [errored, if_neg (of_decide_eq_false hg)]; omega
    rw [prbsBit_synced hs, if_pos hlose]
    exact ⟨rfl, rfl⟩

/-! ## Table parity (R42, R269, R296) -/

section TableParity

variable {c n : Core} {a t i k : Nat}

/-- A mismatch met for the first time in a frame: counted, recorded and reported (Table 8-12). -/
def parityNoted (c : Core) (t i : Nat) : Core :=
  ((({ c with rsvS := { c.rsvS with seen := c.rsvS.seen ++ [(t, i)] } }.cn (rsv 0x520) 1).ev (rsv 0x400) (bit 5)).wr (rsv 0x24C)
    (BitVec.ofNat 32 (t + i * 16))).report 105

theorem parityNoted_frame : parityNoted c t i =
    { c with regs := (parityNoted c t i).regs, reports := (parityNoted c t i).reports,
             rsvS := { c.rsvS with seen := c.rsvS.seen ++ [(t, i)] } } := by
  rw [parityNoted, report_frame, cn_frame]
  rfl

theorem rd_parityNoted (h5 : a ≠ rsv 0x520) (h4 : a ≠ rsv 0x400) (h2 : a ≠ rsv 0x24C) : (parityNoted c t i).rd a = c.rd a := by
  rw [parityNoted, report_frame]
  exact (rd_wr_ne _ h2).trans ((rd_ev_ne _ h4).trans (rd_cn_ne _ h5))

/-- The maps in effect are read off RSV_STAT, which a mismatch does not touch. -/
theorem mapsNow_parityNoted : (parityNoted c t i).mapsNow = c.mapsNow := by
  have hrd : (parityNoted c t i).rd (rsv 0x200) = c.rd (rsv 0x200) := rd_parityNoted (by decide) (by decide) (by decide)
  rw [Core.mapsNow, gf_congr hrd, gf_congr hrd, Core.mapsNow]

/-- An entry of a map marked as wrong until it is written (R42). -/
def parityMarked (n : Core) (t i : Nat) : Core :=
  { n with rsvS := { n.rsvS with mis := if t < 3 ∨ 6 < t ∨ n.rsvS.mis.contains (t, i) = true then n.rsvS.mis else n.rsvS.mis ++ [(t, i)] } }

/-- An active XMAP entry taken from the other plane (R269). -/
def xmapRepaired (d : Core) (t i x : Nat) : Core :=
  (((d.tblGood t i).twr (xmap x i) (d.trd (xmap (1 - x) i))).sb (rsv 0x24C) 22 true).ev (rsv 0x400) (bit 6)

/-- An active PMAP entry taken from the other plane (R296). -/
def pmapRepaired (d : Core) (t i p : Nat) : Core :=
  (forN 4 (fun w e => e.twr (pmap p i w) (e.trd (pmap (1 - p) i w))) (d.tblGood t i)).sb (rsv 0x24C) 22 true

theorem tableParity_of_seen (h : t = 0 ∨ c.rsvS.seen.contains (t, i) = true) : c.tableParity t i = c := if_pos h

/-- A mismatch met for the first time, by its table and the plane that is active (R269, R296). -/
theorem tableParity_of_first (h : ¬(t = 0 ∨ c.rsvS.seen.contains (t, i) = true)) :
    c.tableParity t i =
      (let n := parityNoted c t i
       let d := parityMarked n t i
       let e := d.ev (slu 0x400) (bit 10)
       if t = 3 + n.mapsNow.x then
         if d.gb (rsv 0x200) 2 && !n.rsvS.mis.contains (4 - n.mapsNow.x, i) then
           { xmapRepaired d t i n.mapsNow.x with rsvS := { (xmapRepaired d t i n.mapsNow.x).rsvS with
               blank := (xmapRepaired d t i n.mapsNow.x).rsvS.blank ++ [i] } }
         else { d with rsvS := { d.rsvS with bad := d.rsvS.bad ++ [i] } }
       else if t = 5 + n.mapsNow.p then
         if e.gb (rsv 0x200) 3 && !n.rsvS.mis.contains (6 - n.mapsNow.p, i) then pmapRepaired e t i n.mapsNow.p
         else { e with rsvS := { e.rsvS with held := e.rsvS.held ++ [i] } }
       else d) := by
  rw [Core.tableParity, if_neg h]
  rfl

theorem mis_parityNoted : (parityNoted c t i).rsvS.mis = c.rsvS.mis := by rw [parityNoted_frame]

theorem blank_parityMarked : (parityMarked n t i).rsvS.blank = n.rsvS.blank := rfl

theorem blank_parityNoted : (parityNoted c t i).rsvS.blank = c.rsvS.blank := by rw [parityNoted_frame]

theorem gb_parityMarked : (parityMarked (parityNoted c t i) t i).gb (rsv 0x200) k = c.gb (rsv 0x200) k :=
  gb_congr (rd_parityNoted (by decide) (by decide) (by decide)) k

theorem gb_parityMarked_ev : ((parityMarked (parityNoted c t i) t i).ev (slu 0x400) (bit 10)).gb (rsv 0x200) k = c.gb (rsv 0x200) k :=
  (gb_congr (rd_ev_ne _ (by decide)) k).trans gb_parityMarked

theorem trd_parityMarked : (parityMarked (parityNoted c t i) t i).trd a = c.trd a := by
  have h : (parityMarked (parityNoted c t i) t i).tbl = c.tbl := by rw [parityMarked, parityNoted_frame]
  rw [Core.trd, h, Core.trd]

/-- Entries of the other tables carry no mark. -/
theorem parityMarked_of_plain (ht : t < 3 ∨ 6 < t) : parityMarked n t i = n := by
  rw [parityMarked, if_pos (by omega)]

theorem parityMarked_of_map (h3 : 3 ≤ t) (h6 : t ≤ 6) :
    parityMarked n t i =
      { n with rsvS := { n.rsvS with mis := if n.rsvS.mis.contains (t, i) = true then n.rsvS.mis else n.rsvS.mis ++ [(t, i)] } } := by
  simp only [parityMarked, Nat.not_lt.mpr h3, Nat.not_lt.mpr h6, false_or]

/-- The planes are two. -/
theorem plane_lt : c.mapsNow.x < 2 ∧ c.mapsNow.p < 2 := ⟨Nat.mod_lt _ (by decide), Nat.mod_lt _ (by decide)⟩

theorem pmapRepaired_blank {d : Core} {p : Nat} : (pmapRepaired d t i p).rsvS.blank = d.rsvS.blank := by
  rw [pmapRepaired, Core.sb_rsvS]
  refine forN_induct (fun e : Core => e.rsvS.blank = d.rsvS.blank) (fun w e _ he => ?_) rfl
  rw [Core.twr_rsvS, he]

theorem xmapRepaired_blank {d : Core} {x : Nat} : (xmapRepaired d t i x).rsvS.blank = d.rsvS.blank := rfl

/-- An object whose entry was repaired in the running frame is sent as all-ones (R269). -/
def sentOnes (d : Core) (i : Nat) : Core :=
  { d with rsvS := { d.rsvS with sent := d.rsvS.sent.map fun s =>
      if s.key / 4 = i then { s with bytes := if s.ais then s.bytes else onesOf (d.bytesOf s.key) } else s } }

theorem parityError_of_blank {d : Core} (hd : d.rsvS.blank = [])
    (he : c.tableParity t i = { d with rsvS := { d.rsvS with blank := d.rsvS.blank ++ [i] } }) : c.parityError t i = sentOnes d i := by
  have hi (k : Nat) : ([i].contains k = true) = (k = i) := by simp
  rw [Core.parityError, he]
  simp only [sentOnes, hd, List.nil_append, List.cons_ne_nil, if_false, hi]
  rfl

section First

variable (hb : c.rsvS.blank = []) (h : ¬(t = 0 ∨ c.rsvS.seen.contains (t, i) = true))
include hb h

theorem parityError_of_other (hx : t ≠ 3 + c.mapsNow.x) (hp : t ≠ 5 + c.mapsNow.p) :
    c.parityError t i = parityMarked (parityNoted c t i) t i := by
  have he : c.tableParity t i = parityMarked (parityNoted c t i) t i := by
    simp only [tableParity_of_first h, mapsNow_parityNoted, if_neg hx, if_neg hp]
  rw [Core.parityError, he]
  exact if_pos (blank_parityNoted.trans hb)

/-- A repaired XMAP entry has its object sent as all-ones (R269). -/
theorem parityError_of_xmapRepair (hx : t = 3 + c.mapsNow.x) (hs : c.gb (rsv 0x200) 2 = true)
    (hm : c.rsvS.mis.contains (4 - c.mapsNow.x, i) = false) :
    c.parityError t i = sentOnes (xmapRepaired (parityMarked (parityNoted c t i) t i) t i c.mapsNow.x) i := by
  refine parityError_of_blank (xmapRepaired_blank.trans (blank_parityMarked.trans (blank_parityNoted.trans hb))) ?_
  simp only [tableParity_of_first h, mapsNow_parityNoted, mis_parityNoted, gb_parityMarked, if_pos hx, hs, hm, Bool.not_false, Bool.and_self,
    if_true]

/-- An XMAP entry that cannot be repaired marks its object (R269). -/
theorem parityError_of_xmapBad (hx : t = 3 + c.mapsNow.x) (hs : c.gb (rsv 0x200) 2 = false ∨ c.rsvS.mis.contains (4 - c.mapsNow.x, i) = true) :
    c.parityError t i =
      (let d := parityMarked (parityNoted c t i) t i
       { d with rsvS := { d.rsvS with bad := d.rsvS.bad ++ [i] } }) := by
  have hno : ¬(c.gb (rsv 0x200) 2 && !c.rsvS.mis.contains (4 - c.mapsNow.x, i)) = true := by
    rcases hs with hs | hs <;> rw [hs] <;> simp
  rw [Core.parityError, tableParity_of_first h]
  simp only [mapsNow_parityNoted, mis_parityNoted, gb_parityMarked, if_pos hx, if_neg hno, blank_parityMarked, blank_parityNoted, hb, if_true]

/-- An active PMAP entry, repaired or its selector held (R296). -/
theorem parityError_of_pmapRepair (hp : t = 5 + c.mapsNow.p) (hs : c.gb (rsv 0x200) 3 = true)
    (hm : c.rsvS.mis.contains (6 - c.mapsNow.p, i) = false) :
    c.parityError t i = pmapRepaired ((parityMarked (parityNoted c t i) t i).ev (slu 0x400) (bit 10)) t i c.mapsNow.p := by
  have hx : t ≠ 3 + c.mapsNow.x := by have := plane_lt (c := c); omega
  have hblank : (pmapRepaired ((parityMarked (parityNoted c t i) t i).ev (slu 0x400) (bit 10)) t i c.mapsNow.p).rsvS.blank = [] :=
    pmapRepaired_blank.trans (blank_parityNoted.trans hb)
  rw [Core.parityError, tableParity_of_first h]
  simp only [mapsNow_parityNoted, mis_parityNoted, gb_parityMarked_ev, if_neg hx, if_pos hp, hs, hm, Bool.not_false, Bool.and_self, if_true, hblank]

theorem parityError_of_pmapHeld (hp : t = 5 + c.mapsNow.p) (hs : c.gb (rsv 0x200) 3 = false ∨ c.rsvS.mis.contains (6 - c.mapsNow.p, i) = true) :
    c.parityError t i =
      (let d := (parityMarked (parityNoted c t i) t i).ev (slu 0x400) (bit 10)
       { d with rsvS := { d.rsvS with held := d.rsvS.held ++ [i] } }) := by
  have hx : t ≠ 3 + c.mapsNow.x := by have := plane_lt (c := c); omega
  have hno : ¬(c.gb (rsv 0x200) 3 && !c.rsvS.mis.contains (6 - c.mapsNow.p, i)) = true := by
    rcases hs with hs | hs <;> rw [hs] <;> simp
  rw [Core.parityError, tableParity_of_first h]
  simp only [mapsNow_parityNoted, mis_parityNoted, gb_parityMarked_ev, if_neg hx, if_pos hp, if_neg hno, Core.ev_rsvS, blank_parityMarked,
    blank_parityNoted, hb, if_true]

end First

end TableParity

/-- Settles O35: what a first report does, by its table and the planes that are active. -/
theorem tableParityIsHandledByTable : Obligations.TableParityIsHandledByTable := by
  unfold Obligations.TableParityIsHandledByTable
  intro c t i noted mis marked good x p first hb
  have hi (s) : exec (.tableParityError t i) s = s.on (·.parityError t.val i.toNat) := rfl
  have hx2 : x < 2 := Nat.mod_lt _ (by decide)
  have hp2 : p < 2 := Nat.mod_lt _ (by decide)
  have hnew (hf : first) : ¬(t.val = 0 ∨ c.rsvS.seen.contains (t.val, i.toNat) = true) := by
    rintro (h0 | hs)
    · exact hf.1 (Fin.ext h0)
    · exact absurd (hf.2.symm.trans hs) Bool.false_ne_true
  have hmarked (h3 : 3 ≤ t.val) (h6 : t.val ≤ 6) : parityMarked (parityNoted c t.val i.toNat) t.val i.toNat = marked := parityMarked_of_map h3 h6
  refine ⟨fun h => goes_of_on hi ?_, fun hf ht => goes_of_on hi ?_, fun hf ht => goes_of_on hi ?_,
    fun hf ht => ⟨fun hs hm => goes_of_on hi ?_, fun hs => goes_of_on hi ?_⟩,
    fun hf ht => ⟨fun hs hm => goes_of_on hi ?_, fun hs => goes_of_on hi ?_⟩⟩
  · have h' : t.val = 0 ∨ c.rsvS.seen.contains (t.val, i.toNat) = true := h.imp_left (congrArg Fin.val)
    rw [Core.parityError, tableParity_of_seen h']
    exact if_pos hb
  · have hx : t.val ≠ 3 + x := by omega
    have hp : t.val ≠ 5 + p := by omega
    exact (parityError_of_other hb (hnew hf) hx hp).trans (parityMarked_of_plain ht)
  · have hx : t.val ≠ 3 + x := by omega
    have hp : t.val ≠ 5 + p := by omega
    exact (parityError_of_other hb (hnew hf) hx hp).trans (hmarked (by omega) (by omega))
  · refine (parityError_of_xmapRepair hb (hnew hf) ht hs hm).trans ?_
    rw [xmapRepaired, trd_parityMarked, hmarked (by omega) (by omega)]
    rfl
  · refine (parityError_of_xmapBad hb (hnew hf) ht hs).trans ?_
    rw [hmarked (by omega) (by omega)]
  · refine (parityError_of_pmapRepair hb (hnew hf) ht hs hm).trans ?_
    rw [hmarked (by omega) (by omega)]
    rfl
  · refine (parityError_of_pmapHeld hb (hnew hf) ht hs).trans ?_
    rw [hmarked (by omega) (by omega)]

/-! ## Block and island resets (R443, R463, R499) -/

section Resets

variable {i : Instr} {c x : Core} {a b k n o s : Nat} {r : Row}

/-! ### Requests and their companions -/

/-- The companion of each bank's reset shown (Table 16-7). -/
def bankReset (b : Nat) (c : Core) : Core := c.sb (bk b 0xB00) 8 (c.levS.resets.any (·.1 = 7 + b))

theorem showResets_eq : c.showResets = forN 6 bankReset (c.sb (dev 0xB04) 8 (c.levS.resets.any fun q => decide (q.1 < 7))) := rfl

theorem levS_bankResets : (forN n bankReset x).levS = x.levS := by
  induction n with
  | zero => rfl
  | succ n ih => rw [forN_succ]; exact ih

theorem rd_bankResets (h : ∀ b < n, a ≠ bk b 0xB00) : (forN n bankReset x).rd a = x.rd a := by
  induction n with
  | zero => rfl
  | succ n ih =>
    rw [forN_succ]
    exact (rd_sb_ne _ _ (h n (Nat.lt_succ_self n))).trans (ih fun b hb => h b (Nat.lt_succ_of_lt hb))

theorem gb_bankResets (hb : b < n) : (forN n bankReset x).gb (bk b 0xB00) 8 = x.levS.resets.any (·.1 = 7 + b) := by
  induction n with
  | zero => omega
  | succ n ih =>
    rw [forN_succ]
    by_cases h : b = n
    · subst h
      exact (Core.gb_sb _ _ _ _ (by decide)).trans (by rw [levS_bankResets])
    · have hne : bk b 0xB00 ≠ bk n 0xB00 := by simp only [bk]; omega
      exact (gb_congr (rd_sb_ne _ _ hne) 8).trans (ih (by omega))

theorem levS_showResets : c.showResets.levS = c.levS := by
  rw [showResets_eq, levS_bankResets, Core.sb_levS]

/-- The register in which an island's reset has its companion bit: DEV_BLKRST, or the bank's BK_RST. -/
def Companion (a n : Nat) : Prop := a = dev 0xB04 ∧ n < 7 ∨ ∃ b < 6, a = bk b 0xB00 ∧ n = 7 + b

/-- A reset that is asked for shows at its companion. -/
theorem gb_showResets (ha : Companion a n) {q : Nat × Nat} (hq : q ∈ c.levS.resets) (hn : q.1 = n) : c.showResets.gb a 8 = true := by
  rw [showResets_eq]
  rcases ha with ⟨rfl, h7⟩ | ⟨b, hb, rfl, rfl⟩
  · have hne : ∀ b < 6, dev 0xB04 ≠ bk b 0xB00 := by decide
    rw [gb_congr (rd_bankResets hne), Core.gb_sb _ _ _ _ (by decide)]
    exact List.any_eq_true.mpr ⟨q, hq, by simpa [hn] using h7⟩
  · rw [gb_bankResets hb, Core.sb_levS]
    exact List.any_eq_true.mpr ⟨q, hq, by simpa using hn⟩

theorem askReset_of_busy (h : c.gb a 8 = true) : c.askReset a n = c.ign a 8 := if_pos h

theorem askReset_of_idle (h : c.gb a 8 = false) :
    c.askReset a n = ({ c with levS := { c.levS with resets := c.levS.resets ++ [(n, c.frame)] } } : Core).showResets := if_neg (by simp [h])

/-- A reset bit that the Warden writes, refused while its companion reads 1 (R463, R70). -/
theorem resetAsked (hi : ∀ u, exec i u = u.on (·.byWarden (·.askReset a n))) (ha : Companion a n) :
    (c.wDown = true → Goes i c c) ∧ (c.wDown = false → c.gb a 8 = true → Goes i c (c.ign a 8)) ∧
      (c.wDown = false → c.gb a 8 = false → Reaches i c fun d => d.levS.resets = c.levS.resets ++ [(n, c.frame)] ∧ d.gb a 8 = true) := by
  refine ⟨fun h => goes_of_on hi (byWarden_of_down h), fun h hb => goes_of_on hi ((byWarden_of_up h).trans (askReset_of_busy hb)),
    fun h hb => reaches_of_on hi ?_⟩
  rw [byWarden_of_up h, askReset_of_idle hb]
  refine ⟨by rw [levS_showResets], gb_showResets ha (q := (n, c.frame)) ?_ rfl⟩
  exact List.mem_append_right _ (List.mem_singleton.mpr rfl)

theorem takeReset_of_chip (h : c.levS.chipReq ≠ none) : c.takeReset n = c := if_pos (Option.isSome_iff_ne_none.mpr h)

theorem takeReset_of_none (h : (c.levS.resets.find? fun q => q.1 = n) = none) : c.takeReset n = c := by
  simp only [Core.takeReset, h, ite_self]

theorem takeReset_of_some {q : Nat × Nat} (h : c.levS.chipReq = none) (hq : (c.levS.resets.find? fun q => q.1 = n) = some q) :
    c.takeReset n = if c.d06 && decide (c.frame = q.2) then c else (c.islandReset n).showResets := by
  simp only [Core.takeReset, h, hq, Option.isSome_none, Bool.false_eq_true, if_false]

/-- A reset that has taken effect is no longer asked for. -/
theorem resets_islandReset {q : Nat × Nat} (hq : q ∈ (c.islandReset n).levS.resets) : q.1 ≠ n := by
  rw [Core.islandReset] at hq
  exact of_decide_eq_true (List.mem_filter.mp hq).2

/-! ### What a page keeps -/

theorem mem_range_keys {α : Type} {lo hi : Nat} (m : SMap α) : a ∈ (Sparse.range lo hi m).map (·.1) ↔ a ∈ m.map (·.1) ∧ lo ≤ a ∧ a < hi := by
  induction m with
  | nil => simp [Sparse.range]
  | cons q m ih =>
    obtain ⟨j, v⟩ := q
    by_cases h : lo ≤ j ∧ j < hi
    · rw [Sparse.range, if_pos h, List.map_cons, List.mem_cons, ih, List.map_cons, List.mem_cons]
      constructor
      · rintro (rfl | ⟨hm, hr⟩)
        · exact ⟨.inl rfl, h⟩
        · exact ⟨.inr hm, hr⟩
      · rintro ⟨rfl | hm, hr⟩
        · exact .inl rfl
        · exact .inr ⟨hm, hr⟩
    · rw [Sparse.range, if_neg h, ih, List.map_cons, List.mem_cons]
      constructor
      · rintro ⟨hm, hr⟩
        exact ⟨.inr hm, hr⟩
      · rintro ⟨rfl | hm, hr⟩
        · exact absurd hr h
        · exact ⟨hm, hr⟩

/-- The bits that a mask keeps, the others at their reset values. -/
def keptBits (keep w z : Word) : Word := (w &&& keep) ||| (z &&& ~~~keep)

theorem keptBits_self {keep z : Word} : keptBits keep z z = z := by
  ext j hj
  cases h : keep[j] <;> simp [keptBits, h]

/-- The mask that a page's function gives a register of it. -/
def pageKeep (p : PageKind) (f : Nat → Row → Word) (a : Nat) : Word := f (a % 0x1000) ((findRow p (a % 0x1000)).getD { off := 0 })

theorem mapPage_eq {p : PageKind} {f : Nat → Row → Word} (hp : pageKind s = some p) :
    c.mapPage s f = forL (Sparse.range (pg s) (pg s + 0x1000) c.regs)
      (fun q d => d.wr q.1 (keptBits (pageKeep p f q.1) (c.rd q.1) (regReset q.1))) c := by
  simp only [Core.mapPage, hp]
  rfl

theorem rd_mapPage {p : PageKind} {f : Nat → Row → Word} (hp : pageKind s = some p) :
    (c.mapPage s f).rd a = if pg s ≤ a ∧ a < pg s + 0x1000 then keptBits (pageKeep p f a) (c.rd a) (regReset a) else c.rd a := by
  rw [mapPage_eq hp, rd_forL_wr fun a => keptBits (pageKeep p f a) (c.rd a) (regReset a)]
  by_cases h : pg s ≤ a ∧ a < pg s + 0x1000
  · rw [if_pos h]
    by_cases hm : a ∈ c.regs.map (·.1)
    · rw [if_pos ((mem_range_keys _).mpr ⟨hm, h⟩)]
    · have hr : c.rd a = regReset a := get_of_not_mem hm
      rw [if_neg fun h' => hm ((mem_range_keys _).mp h').1, hr, keptBits_self]
  · rw [if_neg h, if_neg fun h' => h ((mem_range_keys _).mp h').2]

/-! ### The masks (R499, R459, R463) -/

theorem softKeep_of_own (ho : 0x40 ≤ o) : softKeep s o r =
    ((r.cf ||| r.ct ||| r.gd ||| r.hd ||| r.ro) &&& ~~~r.cmd) |||
      (if staleExempt s || decide (0xB00 ≤ o) then r.lv else 0) ||| (if 0xC00 ≤ o then r.cn else 0) := by
  rw [softKeep, if_neg (by omega), if_neg (by omega), if_neg (by omega), if_neg (by omega)]

/-- A mask keeps what it was joined from. -/
theorem keeps_joined (p q t u w y z : Word) :
    (((p ||| q ||| t ||| u ||| w) &&& ~~~y) ||| z) &&& ((p ||| q ||| t) &&& ~~~y) = (p ||| q ||| t) &&& ~~~y ∧
      (((p ||| q ||| t ||| u ||| w) &&& ~~~y) ||| z) &&& u &&& ~~~y = u &&& ~~~y := by
  constructor
  · ext j hj
    simp only [BitVec.getElem_and, BitVec.getElem_or, BitVec.getElem_not]
    cases p[j] <;> cases q[j] <;> cases t[j] <;> cases y[j] <;> simp
  · ext j hj
    simp only [BitVec.getElem_and, BitVec.getElem_or, BitVec.getElem_not]
    cases u[j] <;> cases y[j] <;> simp

theorem softKeep_keeps (ho : 0x40 ≤ o) :
    softKeep s o r &&& ((r.cf ||| r.ct ||| r.gd) &&& ~~~r.cmd) = (r.cf ||| r.ct ||| r.gd) &&& ~~~r.cmd ∧
      softKeep s o r &&& r.hd &&& ~~~r.cmd = r.hd &&& ~~~r.cmd := by
  rw [softKeep_of_own ho, BitVec.or_assoc]
  exact keeps_joined ..

theorem offKeep_keeps (ho : 0x40 ≤ o) : offKeep o r &&& (r.cf ||| r.ct ||| r.gd) = r.cf ||| r.ct ||| r.gd := by
  rw [offKeep, if_neg (by omega)]
  ext j hj
  simp only [BitVec.getElem_and, BitVec.getElem_or]
  exact inf_of_le_right le_sup_left

theorem islandKeep_of_own (ho : 0x40 ≤ o) : islandKeep o r = r.gd ||| r.hd ||| r.ro := if_neg (by omega)

end Resets

/-- Settles O58: the requests by their companions, a page's registers by the mask that is kept, and the blocks that return. -/
theorem blocksAndIslandsReset : Obligations.BlocksAndIslandsReset := by
  unfold Obligations.BlocksAndIslandsReset
  intro c
  have htake (i : Fin 13) (s) : exec (.islandReset i) s = s.on (·.takeReset i.val) := rfl
  refine ⟨fun x hx => ?_, fun i h => goes_of_on (htake i) (takeReset_of_chip h), fun i h => goes_of_on (htake i) (takeReset_of_none h),
    fun i q h hq => ⟨fun hd hf => ?_, fun hdf => ?_⟩, fun s k f hk => ⟨fun o ho => ?_, fun a ha => ?_⟩,
    fun s o r ho => ⟨(softKeep_keeps ho).1, (softKeep_keeps ho).2, offKeep_keeps ho, islandKeep_of_own ho⟩,
    fun s hb => ⟨?_, ?_⟩, fun s hb => ?_, fun s k hk => blockReturn_shows hk⟩
  · rcases List.mem_append.mp hx with hx | hx
    · simp only [List.mem_cons, List.not_mem_nil, or_false] at hx
      rcases hx with rfl | rfl | rfl | rfl <;> exact resetAsked (fun _ => rfl) (.inl ⟨rfl, by decide⟩)
    · obtain ⟨b, -, rfl⟩ := List.mem_map.mp hx
      exact resetAsked (fun _ => rfl) (.inr ⟨b.val, b.isLt, rfl, rfl⟩)
  · exact goes_of_on (htake i) ((takeReset_of_some h hq).trans (if_pos (by simp [hd, hf])))
  · have hnow : ¬(c.d06 && decide (c.frame = q.2)) = true := by
      rcases hdf with hd | hf
      · simp [hd]
      · simp [hf]
    have he : c.takeReset i.val = (c.islandReset i.val).showResets := (takeReset_of_some h hq).trans (if_neg hnow)
    refine reaches_of_on (htake i) ⟨he, fun r hr => ?_⟩
    simp only [he, levS_showResets] at hr
    exact resets_islandReset hr
  · have hin : pg s ≤ pg s + o ∧ pg s + o < pg s + 0x1000 := by omega
    rw [rd_mapPage hk, if_pos hin, pageKeep, pg_mod ho, keptBits]
  · rw [rd_mapPage hk, if_neg (by omega)]
  · exact goes_of_on (f := (·.softDone s.val)) (fun _ => rfl) (softDone_of_idle hb)
  · exact goes_of_on (f := (·.softDone s.val)) (fun _ => rfl) (softDone_of_idle hb)
  · exact goes_of_on (f := (·.softDone s.val)) (fun _ => rfl) (softDone_of_busy hb)

end Sys2Proof.Proofs

/-! The obligations of ports and sensing (chapter 3): the energy of a port, the attempts of a sweep, and what an aligned port keeps. -/

namespace Sys2Proof.Proofs

open Sys2Proof Sys2Proof.Machine Sys2Proof.Safety

/-! ## ENERGY (R82, R83, R86) -/

section Energy

variable {c : Core} {p a : Nat} {v : Bool}

/-- ENERGY at a new value: its filter starts again, a fall in SENSE or later is marked, and the lane's event bit is set in LEV. -/
def energyMoved (c : Core) (p : Nat) (v : Bool) : Core :=
  ((c.setEnergy p v).updPort p fun x => { x with eFilt := 0, fell := x.fell || (!v && decide (2 ≤ c.pst p)) }).ev
    (lev (0x408 + 4 * (p / 32))) (bit (p % 32))

theorem rd_energyMoved (h : a ∉ energyRegs p) (hl : a ≠ lev (0x408 + 4 * (p / 32))) : (energyMoved c p v).rd a = c.rd a :=
  (rd_ev_ne _ hl).trans <| setEnergy_induct (P := fun d => d.rd a = c.rd a)
    (fun _ _ hb w hd => (rd_wr_ne w (ne_of_mem_of_not_mem hb h).symm).trans hd) rfl

theorem bankOn_energyMoved (hp : p < 96) : (energyMoved c p v).bankOn (p / 16) = c.bankOn (p / 16) := by
  have hlev : (energyMoved c p v).rd (lev 0x204) = c.rd (lev 0x204) :=
    rd_energyMoved (by simp [energyRegs, lev, pe, bk]; omega) (by simp only [lev]; omega)
  have hbank : (energyMoved c p v).rd (bk (p / 16) 0x200) = c.rd (bk (p / 16) 0x200) :=
    rd_energyMoved (by simp [energyRegs, lev, pe, bk]; omega) (by simp only [lev, bk]; omega)
  rw [Core.bankOn, Core.bankOn, gb_congr hlev, gb_congr hbank]

/-- What LEV_ENERGY is given, PE_STATE and BK_ENERGY do not take back. -/
theorem energy_setEnergy : (c.setEnergy p v).energy p = v := by
  have hset : (c.sb (lev (0x210 + 4 * (p / 32))) (p % 32) v).energy p = v := Core.gb_sb _ _ _ _ (Nat.mod_lt _ (by decide))
  unfold Core.setEnergy
  dsimp only
  split
  · refine Eq.trans (gb_congr ?_ _) hset
    exact (rd_sb_ne _ _ (by simp only [lev, bk]; omega)).trans (rd_sb_ne _ _ (by simp only [lev, pe]; omega))
  · exact hset

theorem energy_energyMoved : (energyMoved c p v).energy p = v := by
  refine Eq.trans (gb_congr (rd_ev_ne _ ?_) _) energy_setEnergy
  simp only [lev]; omega

/-- The filter has run against the shown value on a port that has left OFF. -/
theorem energyUp_of_due (hp : p < 96) (hl : (c.port p).live = true) (hf : 64 ≤ (c.port p).eFilt) (he : c.energy p = false) :
    c.energyUp p = if c.bankOn (p / 16) then (energyMoved c p true).ev (pe p 0x408) (bit 0) else energyMoved c p true := by
  have hm : energyMoved c p true = ((c.setEnergy p true).updPort p fun x => { x with eFilt := 0 }).ev
      (lev (0x408 + 4 * (p / 32))) (bit (p % 32)) := by simp [energyMoved]
  rw [← bankOn_energyMoved (c := c) (v := true) hp, hm, Core.energyUp, if_pos (by simp [hl, hf, he])]

theorem energyUp_of_not_due (h : (c.port p).live = false ∨ (c.port p).eFilt < 64 ∨ c.energy p = true) : c.energyUp p = c := by
  refine if_neg ?_
  rcases h with h | h | h <;> simp [h]

theorem energyDown_of_due (hp : p < 96) (hl : (c.port p).live = true) (hf : 64 ≤ (c.port p).eFilt) (he : c.energy p = true)
    (hi : c.loopInt p = false) :
    c.energyDown p = if c.bankOn (p / 16) then (energyMoved c p false).ev (pe p 0x408) (bit 1) else energyMoved c p false := by
  have hm : energyMoved c p false = ((c.setEnergy p false).updPort p fun x =>
      { x with eFilt := 0, fell := x.fell || decide (2 ≤ c.pst p) }).ev (lev (0x408 + 4 * (p / 32))) (bit (p % 32)) := by
    simp [energyMoved]
  rw [← bankOn_energyMoved (c := c) (v := false) hp, hm, Core.energyDown, if_pos (by simp [hl, hf, he, hi])]

theorem energyDown_of_not_due (h : (c.port p).live = false ∨ (c.port p).eFilt < 64 ∨ c.energy p = false ∨ c.loopInt p = true) :
    c.energyDown p = c := by
  refine if_neg ?_
  rcases h with h | h | h | h <;> simp [h]

end Energy

/-- Settles O12: the filter either is due or not, and a change of ENERGY leaves what tells whether the bank is up. -/
theorem energyFollowsItsFilter : Obligations.EnergyFollowsItsFilter := by
  unfold Obligations.EnergyFollowsItsFilter
  intro c p
  have hup (s) : exec (.energyUp p) s = s.on (·.energyUp p.val) := rfl
  have hdown (s) : exec (.energyDown p) s = s.on (·.energyDown p.val) := rfl
  refine ⟨fun hl hf => ⟨fun he hb => ?_, fun he hb => ?_, fun he hi hb => ?_, fun he hi hb => ?_⟩, fun h => ?_, fun he => ?_,
    fun h => ?_, fun v => energy_energyMoved⟩
  · exact goes_of_on hup ((energyUp_of_due p.isLt hl hf he).trans (if_neg (by simp [hb])))
  · exact goes_of_on hup ((energyUp_of_due p.isLt hl hf he).trans (if_pos hb))
  · exact goes_of_on hdown ((energyDown_of_due p.isLt hl hf he hi).trans (if_neg (by simp [hb])))
  · exact goes_of_on hdown ((energyDown_of_due p.isLt hl hf he hi).trans (if_pos hb))
  · exact ⟨goes_of_on hup (energyUp_of_not_due (h.imp_right .inl)), goes_of_on hdown (energyDown_of_not_due (h.imp_right .inl))⟩
  · exact goes_of_on hup (energyUp_of_not_due (.inr (.inr he)))
  · exact goes_of_on hdown (energyDown_of_not_due (.inr (.inr h)))

/-! ## The rate of an estimate (R88) -/

/-- The bands of ±2 % about the six rates do not meet. -/
theorem rateKbps_bands : ∀ q ∈ [1, 2, 3, 4, 5, 6], ∀ r ∈ [1, 2, 3, 4, 5, 6],
    49 * rateKbps r ≤ 51 * rateKbps q → 49 * rateKbps q ≤ 51 * rateKbps r → q = r := by decide

/-- A rate within the band of one code is classified as it, as it lies in no other band. -/
theorem classify_of_near {r kbps : Nat} (h1 : 1 ≤ r) (h6 : r ≤ 6) (hlo : 50 * (rateKbps r - kbps) ≤ kbps)
    (hhi : 50 * (kbps - rateKbps r) ≤ kbps) : classify kbps = r := by
  have hr : r ∈ [1, 2, 3, 4, 5, 6] := by simp; omega
  unfold classify
  cases hq : [1, 2, 3, 4, 5, 6].find? fun r => decide (50 * (rateKbps r - kbps) ≤ kbps) && decide (50 * (kbps - rateKbps r) ≤ kbps) with
  | none => exact absurd (List.find?_eq_none.mp hq r hr) (by simp [hlo, hhi])
  | some q =>
    have hn := List.find?_some hq
    simp only [Bool.and_eq_true, decide_eq_true_eq] at hn
    obtain ⟨hlo', hhi'⟩ := hn
    exact rateKbps_bands q (List.mem_of_find?_eq_some hq) r hr (by omega) (by omega)

/-! ## The attempts of a sweep (R88, R90–R94, R96) -/

section Attempts

variable {c : Core} {p r n : Nat} {l : List Nat} {a : Attempt}

/-- The rate of `n` transitions in 1 ms is taken as 2n kb/s: the model's reading of R88 (log 104). -/
theorem estimateEnd_of_run {k : Nat} (hs : (c.port p).stage = .estimate k) (hk : 8 ≤ k) (n : Nat) :
    c.estimateEnd p n = (c.sf (pe p 0x208) 9 3 (classify (2 * n))).nextAttempt p (c.sweepOrder p (classify (2 * n))) := by
  simp [Core.estimateEnd, hs, hk]

/-- The framing pattern as it is received: complemented on an inverted line. -/
def sentPattern (inv : Bool) : BitVec 48 := if inv then ~~~framePattern else framePattern

theorem patGood_sentPattern : ∀ inv inv' : Bool, patGood inv (sentPattern inv') = (inv == inv') := by decide

/-- Three sights of a word, each a frame after the one before. -/
def threeSights (r pos : Nat) (w : BitVec 48) : List (Nat × BitVec 48) :=
  [(pos, w), (pos + 8 * lineLen r, w), (pos + 2 * (8 * lineLen r), w)]

/-- Of three sights of the pattern, inverted or not, only the run of its own inversion is one. -/
theorem patternRun_threeSights (inv inv' : Bool) (r pos : Nat) :
    patternRun inv r (threeSights r pos (sentPattern inv')) = if inv = inv' then some (pos % (8 * lineLen r)) else none := by
  have hd : pos + 2 * (8 * lineLen r) = pos + 8 * lineLen r + 8 * lineLen r := by omega
  simp [patternRun, threeSights, patGood_sentPattern, hd]

theorem ssClear_replicate (sonet : Bool) : ssClear (List.replicate 8 (if sonet then 0 else 2)) = some (if sonet then 2 else 1) := by
  cases sonet <;> rfl

theorem attemptClient_of_clear {ss : List (Fin 4)} {k : Nat} (hr : isOtu r = false) (hs : ssClear ss = some k) :
    c.attemptClient p r ss = some (k, false) := by simp [Core.attemptClient, hr, hs]

theorem attemptClient_of_otu (hr : isOtu r = true) (ss : List (Fin 4)) :
    c.attemptClient p r ss = some (if c.gf (pe p 0x44) 6 2 = 1 then 2 else 1, true) := by
  have hu : (c.ssUnk p).getD 1 = if c.gf (pe p 0x44) 6 2 = 1 then 2 else 1 := by
    unfold Core.ssUnk
    split <;> simp_all
  simp [Core.attemptClient, hr, hu]

/-- A sense result found, to be published at the next boundary. -/
def resultFound (c : Core) (p : Nat) (f : Found) : Core := c.updPort p fun x => { x with stage := .none, found := some f }

/-- An attempt succeeds with the run of the pattern after RX_INV, or where there is none and with POL_AUTO, of its complement. -/
theorem attemptOk_of_run {pos cl : Nat} {comp prov : Bool} (hs : (c.port p).stage = .attempt r n l) (hn : n ≤ 160)
    (hl : (c.port p).locked = true) (hg : c.gb (pe p 0x200) 5 = true) (hc : c.attemptClient p r a.ss = some (cl, prov))
    (hrun : patternRun (c.gb (pe p 0x40) 0 != comp) r a.hits = some pos)
    (hcomp : comp = true → patternRun (c.gb (pe p 0x40) 0) r a.hits = none ∧ c.gb (pe p 0x44) 8 = true) :
    c.attemptOk p a = resultFound c p { rate := r, client := cl, prov := prov, inv := comp, pos := some pos } := by
  cases comp with
  | false =>
    rw [Bool.bne_false] at hrun
    simp [Core.attemptOk, resultFound, hs, hn, hl, hg, hc, hrun]
  | true =>
    obtain ⟨hnone, hauto⟩ := hcomp rfl
    rw [Bool.bne_true] at hrun
    simp [Core.attemptOk, resultFound, hs, hn, hl, hg, hc, hrun, hnone, hauto]

/-- An attempt that sees the pattern three times, each a frame after the one before. -/
theorem attemptOk_of_threeSights {pos cl : Nat} {comp prov : Bool} (hs : (c.port p).stage = .attempt r n l) (hn : n ≤ 160)
    (hl : (c.port p).locked = true) (hg : c.gb (pe p 0x200) 5 = true) (hc : c.attemptClient p r a.ss = some (cl, prov))
    (hauto : comp = true → c.gb (pe p 0x44) 8 = true)
    (hh : a.hits = threeSights r pos (sentPattern (c.gb (pe p 0x40) 0 != comp))) :
    c.attemptOk p a =
      resultFound c p { rate := r, client := cl, prov := prov, inv := comp, pos := some (pos % (8 * lineLen r)) } := by
  refine attemptOk_of_run hs hn hl hg hc ?_ fun h => ⟨?_, hauto h⟩
  · rw [hh, patternRun_threeSights, if_pos rfl]
  · rw [hh, patternRun_threeSights, if_neg (by simp [h])]

theorem attemptOk_of_unlocked (h : c.gb (pe p 0x200) 5 = false ∨ (c.port p).locked = false) : c.attemptOk p a = c := by
  have hno : ((c.port p).locked && c.gb (pe p 0x200) 5) = false := by rcases h with h | h <;> simp [h]
  unfold Core.attemptOk
  simp only [hno]
  split
  · split <;> simp
  · rfl

theorem attemptFail_of_end (hs : (c.port p).stage = .attempt r n l) (hn : 160 ≤ n) :
    c.attemptFail p = (c.sb (pe p 0x200) 5 false).nextAttempt p l := by
  simp [Core.attemptFail, hs, hn]

theorem retry_of_due (hs : (c.port p).stage = .wait) (ht : 2000 ≤ c.gf (pe p 0x200) 16 12) (he : c.energy p = true) :
    c.retry p = c.startSense p := if_pos ⟨hs, ht, he⟩

theorem forcedLock_of_lock (hs : (c.port p).stage = .forced) (hf : c.fmtOk p = true) (hg : c.gb (pe p 0x200) 5 = true) :
    c.forcedLock p = resultFound c p { rate := c.gf (pe p 0x48) 1 3, client := c.gf (pe p 0x48) 4 2, prov := false, inv := false,
                                       pos := none } :=
  if_pos ⟨hs, by simp [hf, hg]⟩

theorem forcedLock_of_unlocked (hg : c.gb (pe p 0x200) 5 = false) : c.forcedLock p = c := if_neg (by simp [hg])

end Attempts

/-- Settles O13, step by step of a sweep; that three sights of the pattern are a run is `attemptOk_of_threeSights`. -/
theorem sensingRunsItsAttempts : Obligations.SensingRunsItsAttempts := by
  unfold Obligations.SensingRunsItsAttempts
  intro c p
  have hok (a s) : exec (.rateAttemptSuccess p a) s = s.on (·.attemptOk p.val a) := rfl
  have hfail (s) : exec (.rateAttemptFail p) s = s.on (·.attemptFail p.val) := rfl
  have hlock (s) : exec (.forcedFormatLock p) s = s.on (·.forcedLock p.val) := rfl
  refine ⟨fun n k hs hk => ?_, fun r kbps => classify_of_near,
    fun r n l a pos comp hs hn hl hg hauto hh => ⟨fun sonet hr hss => ?_, fun hr hu => ?_, fun hr hu => ?_⟩,
    fun a h => ?_, fun r n r' l hs hn => ?_, fun r n hs hn => ?_, fun hs ht he => ?_, fun hs hf hg => ?_, fun hg => ?_⟩
  · exact goes_of_on (f := (·.estimateEnd p.val n)) (fun _ => rfl) (estimateEnd_of_run hs hk n)
  · have hc := attemptClient_of_clear (c := c) (p := p.val) hr (hss ▸ ssClear_replicate sonet)
    exact goes_of_on (hok a) (attemptOk_of_threeSights hs hn hl hg hc hauto hh)
  · have hc := attemptClient_of_otu (c := c) (p := p.val) hr a.ss
    rw [if_neg hu] at hc
    exact goes_of_on (hok a) (attemptOk_of_threeSights hs hn hl hg hc hauto hh)
  · have hc := attemptClient_of_otu (c := c) (p := p.val) hr a.ss
    rw [if_pos hu] at hc
    exact goes_of_on (hok a) (attemptOk_of_threeSights hs hn hl hg hc hauto hh)
  · exact goes_of_on (hok a) (attemptOk_of_unlocked h)
  · exact goes_of_on hfail (attemptFail_of_end hs hn)
  · exact goes_of_on hfail (attemptFail_of_end hs hn)
  · exact goes_of_on (f := (·.retry p.val)) (fun _ => rfl) (retry_of_due hs ht he)
  · exact goes_of_on hlock (forcedLock_of_lock hs hf hg)
  · exact goes_of_on hlock (forcedLock_of_unlocked hg)

/-! ## A port sensed again (R97, R100) -/

/-- A port that has gone back to SENSE: its state, its event bit 6, no lock, and no frames of a hunt counted. -/
structure Resensed (d : Core) (p : Nat) : Prop where
  sense : d.pst p = 2
  noted : d.gb (pe p 0x408) 6 = true
  unlocked : (d.port p).fr.lock = none
  unhunted : (d.port p).huntF = 0

section Resense

variable {c d : Core} {p : Nat}

/-- A field that a bit outside it does not touch. -/
theorem gf_sb_ne {a k lo n : Nat} {v : Bool} (hk : k < 32) (h : k < lo ∨ lo + n ≤ k) : (c.sb a k v).gf a lo n = c.gf a lo n := by
  apply Nat.eq_of_testBit_eq
  intro i
  rw [Core.gf, Core.gf, testBit_fld, testBit_fld]
  by_cases hi : i < n
  · have hb : (c.sb a k v).gb a (lo + i) = c.gb a (lo + i) := (gb_sb hk).trans (if_neg (by omega))
    exact congrArg _ hb
  · simp [hi]

/-- Updates of the port's own record that leave its lock and its hunt alone. -/
theorem Resensed.updPort {f : Prt → Prt} (h : Resensed d p) (hl : (f (d.port p)).fr.lock = (d.port p).fr.lock)
    (hh : (f (d.port p)).huntF = (d.port p).huntF) : Resensed (d.updPort p f) p := by
  refine ⟨h.sense, h.noted, ?_, ?_⟩ <;> rw [Core.port_updPort, if_pos rfl]
  · exact hl.trans h.unlocked
  · exact hh.trans h.unhunted

/-- PE_STATE may change above STATE. -/
theorem Resensed.sf_state {lo n v : Nat} (h : Resensed d p) (hlo : 3 ≤ lo) : Resensed (d.sf (pe p 0x200) lo n v) p where
  sense := by
    rw [Core.pst, Core.gf, Core.rd_sf, if_pos rfl, fld_setFld_ne (.inl hlo)]
    exact h.sense
  noted := (gb_congr (rd_sf_ne _ _ _ (by simp only [pe]; omega)) _).trans h.noted
  unlocked := h.unlocked
  unhunted := h.unhunted

theorem Resensed.sb_state {k : Nat} {v : Bool} (h : Resensed d p) (hlo : 3 ≤ k) (hk : k < 32) : Resensed (d.sb (pe p 0x200) k v) p where
  sense := (gf_sb_ne hk (.inr hlo)).trans h.sense
  noted := (gb_congr (rd_sb_ne _ _ (by simp only [pe]; omega)) _).trans h.noted
  unlocked := h.unlocked
  unhunted := h.unhunted

theorem Resensed.sf_sensed {lo n v : Nat} (h : Resensed d p) : Resensed (d.sf (pe p 0x208) lo n v) p where
  sense := (gf_congr (rd_sf_ne _ _ _ (by simp only [pe]; omega)) _ _).trans h.sense
  noted := (gb_congr (rd_sf_ne _ _ _ (by simp only [pe]; omega)) _).trans h.noted
  unlocked := h.unlocked
  unhunted := h.unhunted

theorem Resensed.ev {m : Word} (h : Resensed d p) : Resensed (d.ev (pe p 0x408) m) p where
  sense := (gf_congr (rd_ev_ne _ (by simp only [pe]; omega)) _ _).trans h.sense
  noted := gb_ev_mono h.noted
  unlocked := h.unlocked
  unhunted := h.unhunted

theorem Resensed.nextAttempt (h : Resensed d p) (l : List Nat) : Resensed (d.nextAttempt p l) p := by
  cases l with
  | nil => exact (h.ev.sf_sensed.updPort rfl rfl).sf_state (by decide)
  | cons r l => exact ((h.updPort rfl rfl).sb_state (by decide) (by decide)).sf_state (by decide)

theorem Resensed.startSense (h : Resensed d p) : Resensed (d.startSense p) p := by
  have h0 : Resensed ((d.sf (pe p 0x200) 16 12 0).updPort p fun x => { x with found := none, huntF := 0 }) p :=
    (h.sf_state (by decide)).updPort rfl h.unhunted.symm
  unfold Core.startSense
  dsimp only
  split
  · split
    · exact h0.updPort rfl rfl
    · exact (h0.updPort rfl rfl).ev
  · split
    · exact h0.updPort rfl rfl
    · exact h0.nextAttempt _

theorem port_abandon : ((c.abandon p).port p).fr.lock = none ∧ ((c.abandon p).port p).huntF = 0 := by
  rw [Core.abandon, Core.showTry, port_congr (Core.sb_ports ..), port_congr (Core.sf_ports ..), Core.port_updPort, if_pos rfl]
  exact ⟨rfl, rfl⟩

/-- What a port is before it senses again: its alignment abandoned, SENSE shown, and the event bit. -/
theorem resensed_abandon : Resensed (((c.abandon p).sf (pe p 0x200) 0 3 2).ev (pe p 0x408) (bit 6)) p := by
  obtain ⟨hlock, hhunt⟩ := port_abandon (c := c) (p := p)
  generalize c.abandon p = d at hlock hhunt ⊢
  exact ⟨(gf_congr (rd_ev_ne _ (by simp only [pe]; omega)) _ _).trans (Core.gf_sf _ _ _ _ _ (by decide)),
    Core.gb_ev _ _ _ _ (by decide), hlock, hhunt⟩

theorem resense_of_due (hst : c.pst p = 3 ∨ c.pst p = 4) (hf : c.forced p = false) (hn : c.gf (pe p 0x44) 16 8 ≠ 0)
    (hh : 8 * c.gf (pe p 0x44) 16 8 ≤ (c.port p).huntF) (hl : (c.port p).fr.lock = none) :
    c.resense p = (((c.abandon p).sf (pe p 0x200) 0 3 2).ev (pe p 0x408) (bit 6)).startSense p :=
  if_pos ⟨hst, hn, hf, hh, hl⟩

theorem resense_of_not_due
    (h : c.gf (pe p 0x44) 16 8 = 0 ∨ (c.port p).huntF < 8 * c.gf (pe p 0x44) 16 8 ∨ (c.port p).fr.lock ≠ none) : c.resense p = c := by
  refine if_neg fun ⟨_, hn, _, hh, hl⟩ => ?_
  rcases h with h | h | h
  · exact hn h
  · omega
  · exact h hl

end Resense

/-! ## The client format of an OTU port, and losses of a lane (R80, R92, R498, Table 18-6) -/

section Losses

variable {c : Core} {p : Nat}

theorem clientSet_of_clear {k : Nat} (hr : isOtu (c.rate p) = true) (hb : c.gb (pe p 0x208) 6 = true) (hf : 8 ≤ (c.port p).clientF)
    (hl : (c.port p).cl.lock.isSome = true) (hs : ssClear ((c.port p).clientSs.take 8) = some k) :
    c.clientSet p = ((c.sf (pe p 0x208) 4 2 k).sb (pe p 0x208) 6 false).ev (pe p 0x408) (bit 7) := by
  simp [Core.clientSet, hr, hb, hf, hl, hs]

theorem clientSet_of_not_due (h : (c.port p).clientF < 8 ∨ (c.port p).cl.lock = none ∨ c.gb (pe p 0x208) 6 = false) :
    c.clientSet p = c := by
  refine if_neg ?_
  rcases h with h | h | h <;> simp [h]

/-- CDR_LOCK cleared in both pages. -/
def cdrUnlocked (c : Core) (p : Nat) : Core := (c.sb (pe p 0x200) 5 false).sb (bk (p / 16) 0x208) (p % 16) false

/-- The lane shown idle in both pages. -/
def txIdled (c : Core) (p : Nat) : Core := (c.sb (pe p 0x200) 6 false).sb (bk (p / 16) 0x204) (p % 16) false

/-- The loss recorded, and counted with ENERGY 1. -/
def cdrLossNoted (c : Core) (p : Nat) : Core :=
  let g := c.ev (bk (p / 16) 0x400) (bit 2)
  if g.energy p then g.cn (bk (p / 16) 0x510) 1 else g

/-- Line loopback on an enabled port (R80). -/
def loopLine (c : Core) (p : Nat) : Bool := c.en (0x20 + p) && c.gf (pe p 0x40) 2 2 = 3

theorem cdrLoss_of_locked (h : c.gb (pe p 0x200) 5 = true) :
    c.cdrLoss p = cdrLossNoted (if loopLine (cdrUnlocked c p) p then txIdled (cdrUnlocked c p) p else cdrUnlocked c p) p := if_pos h

theorem cdrLoss_of_unlocked (h : c.gb (pe p 0x200) 5 = false) : c.cdrLoss p = c := if_neg (by simp [h])

end Losses

/-- Settles O14: each command by its two outcomes, and what a sensing that starts keeps by `Resensed.startSense`. -/
theorem alignedPortsKeepTheirFormat : Obligations.AlignedPortsKeepTheirFormat := by
  unfold Obligations.AlignedPortsKeepTheirFormat
  intro c p
  have hre (s) : exec (.resense p) s = s.on (·.resense p.val) := rfl
  have hset (ss s) : exec (.clientSet p ss) s =
      s.on fun c => if decide ((c.port p.val).clientSs.take 8 = ss) then c.clientSet p.val else c := rfl
  have hcdr (s) : exec (.cdrLoss p) s = s.on (·.cdrLoss p.val) := rfl
  refine ⟨fun n hn hst hf => ⟨fun h0 hh hl => ?_, fun h => ?_⟩, fun sonet hr hb hf hl hs => ?_, fun h => ?_, fun ss h => ?_,
    fun h => ⟨fun hx => ?_, fun hx => ?_⟩, fun h => ?_, fun _ _ => rfl⟩
  · subst hn
    have e := resense_of_due hst hf h0 hh hl
    have hd : Resensed (c.resense p.val) p.val := e ▸ resensed_abandon.startSense
    exact reaches_of_on hre ⟨e, hd.sense, hd.noted, hd.unlocked, hd.unhunted⟩
  · subst hn
    exact goes_of_on hre (resense_of_not_due h)
  · have hk := hs ▸ ssClear_replicate sonet
    exact goes_of_on (hset _) ((if_pos (decide_eq_true rfl)).trans (clientSet_of_clear hr hb hf hl hk))
  · exact goes_of_on (hset _) ((if_pos (decide_eq_true rfl)).trans (clientSet_of_not_due h))
  · exact goes_of_on (hset _) (if_neg (by simpa using h.symm))
  · exact goes_of_on hcdr ((cdrLoss_of_locked h).trans (congrArg (cdrLossNoted · p.val) (if_neg (ne_true_of_eq_false hx))))
  · exact goes_of_on hcdr ((cdrLoss_of_locked h).trans (congrArg (cdrLossNoted · p.val) (if_pos hx)))
  · exact goes_of_on hcdr (cdrLoss_of_unlocked h)

end Sys2Proof.Proofs

/-! The obligations of frame and multiframe alignment (chapter 4): the hunt, leaving SYNC, the defects of alignment, the multiframe
machines, and the E1 monitor. -/

namespace Sys2Proof.Proofs

open Sys2Proof Sys2Proof.Machine Sys2Proof.Safety

/-! ## Framers and the bits they see (R103, R104) -/

section Framers

variable {c d : Core} {p : Nat} {cl : Bool} {k : PatCheck}

theorem framer_congr (h : c.port p = d.port p) (cl : Bool) : c.framer p cl = d.framer p cl := by rw [Core.framer, h, Core.framer]

theorem framer_updFramer (f : Framer → Framer) : (c.updFramer p cl f).framer p cl = f (c.framer p cl) := by
  cases cl <;> simp [Core.framer, Core.updFramer, Core.port_updPort]

/-- An update of a framer is known by what it makes of that framer. -/
theorem updFramer_congr {f g : Framer → Framer} (h : f (c.framer p cl) = g (c.framer p cl)) :
    c.updFramer p cl f = c.updFramer p cl g := by
  cases cl with
  | false => exact congrArg (fun y => c.updPort p fun x => { x with fr := y }) h
  | true => exact congrArg (fun y => c.updPort p fun x => { x with cl := y }) h

/-- Which objects a port receives does not depend on what it has received. -/
theorem onPort_updPort {q : Nat} (f : Prt → Prt) : (c.updPort q f).onPort p = c.onPort p := rfl

/-- The pattern is good where the bits are those sent, complemented on an inverted line. -/
theorem patGood_eq (inv : Bool) (bits : BitVec 48) : patGood inv bits = decide (bits = sentPattern inv) := by
  cases inv with
  | false => rfl
  | true => exact decide_eq_decide.mpr BitVec.not_eq_comm

theorem patOk_eq : c.patOk p cl k = decide (c.bitsAt p cl k = sentPattern (!cl && c.rxInv p)) := patGood_eq _ _

end Framers

/-! ## A line frame while the framer hunts (R103, R104, R110, R114, R120, R125) -/

section Hunt

variable {c : Core} {p : Nat} {cl : Bool} {li : LineIn} {k : PatCheck}

theorem check_lock (n : Nat) (f : Framer) (pos : Nat) (good : Bool) : (Framer.check n f pos good).lock = f.lock := by
  unfold Framer.check
  split
  · rfl
  · split <;> rfl

/-- A hunting framer after a line frame with these checks: its candidates driven, and the frame counted. -/
def hunted (n : Nat) (ks : List (Nat × Bool)) (f : Framer) : Framer :=
  { ks.foldl (fun f k => Framer.check n f k.1 k.2) f with cyc := f.cyc + 1 }

theorem lineFrame_of_hunting {f : Framer} (h : f.lock = none) (n : Nat) (ks : List (Nat × Bool)) (good : Bool) :
    f.lineFrame n ks good = hunted n ks f := by rw [Framer.lineFrame, h, hunted]

/-- Candidates that are driven take no lock. -/
theorem hunted_lock (n : Nat) (ks : List (Nat × Bool)) (f : Framer) : (hunted n ks f).lock = f.lock := by
  show (ks.foldl (fun f k => Framer.check n f k.1 k.2) f).lock = f.lock
  induction ks generalizing f with
  | nil => rfl
  | cons k ks ih => exact (ih _).trans (check_lock ..)

/-- What a framer finds at its candidates' positions. -/
def seenAt (c : Core) (p : Nat) (cl : Bool) (li : LineIn) : List (Nat × Bool) :=
  li.checks.map fun k => (k.pos, decide (c.bitsAt p cl k = sentPattern (!cl && c.rxInv p)))

theorem seenAt_eq : (li.checks.map fun k => (k.pos, c.patOk p cl k)) = seenAt c p cl li := by simp only [seenAt, patOk_eq]

/-- Whose own signal the line carries makes no difference to the framer. -/
theorem framer_heardLine : (c.heardLine p li).1.framer p false = c.framer p false := by
  unfold Core.heardLine
  split <;> simp [Core.framer, Core.port_updPort]

theorem portLine_of_hunting (h : (c.framer p false).lock = none) :
    c.portLine p li = ((c.heardLine p li).1.updFramer p false (hunted (c.ifN p) (seenAt c p false li))).firstMfas p false
      (invert (c.rxInv p) (c.heardLine p li).2) := by
  have hf := framer_heardLine (c := c) (p := p) (li := li)
  unfold Core.portLine
  simp only [seenAt_eq]
  generalize patGood _ _ = good
  rw [updFramer_congr (lineFrame_of_hunting (hf ▸ h) _ _ good)]
  have hl : (((c.heardLine p li).1.updFramer p false (hunted (c.ifN p) (seenAt c p false li))).framer p false).lock = none := by
    rw [framer_updFramer, hunted_lock, hf, h]
  exact if_pos (Option.isNone_iff_eq_none.mpr hl)

theorem clientLine_of_hunting {fr : List Byte} {rest : List Bool} (h : (c.framer p true).lock = none)
    (hq : c.clientFrame p = some (fr, rest)) :
    c.clientLine p li = (c.updFramer p true (hunted (c.ifN p) (seenAt c p true li))).updPort p fun x => { x with client := rest } := by
  have hl : (c.port p).cl.lock = none := h
  have hk : (hunted (c.ifN p) (seenAt c p true li) (c.port p).cl).lock = none := (hunted_lock ..).trans h
  unfold Core.clientLine
  simp only [hq, seenAt_eq, hl]
  generalize patGood _ _ = good
  rw [updFramer_congr (lineFrame_of_hunting h _ _ good)]
  have hp : (c.updFramer p true (hunted (c.ifN p) (seenAt c p true li))).port p =
      { c.port p with cl := hunted (c.ifN p) (seenAt c p true li) (c.port p).cl } := (Core.port_updPort ..).trans (if_pos rfl)
  rw [if_neg (by rw [Core.port_updPort, if_pos rfl, hp, hk]; decide), Core.updPort, Core.updPort, hp]

theorem clientLine_of_short (hq : c.clientFrame p = none) : c.clientLine p li = c := by rw [Core.clientLine, hq]

theorem lineFrame_of_port (h : c.framerOn p false = true) : c.lineFrame p false li = c.portLine p li := by simp [Core.lineFrame, h]
theorem lineFrame_of_client (h : c.framerOn p true = true) : c.lineFrame p true li = c.clientLine p li := by simp [Core.lineFrame, h]
theorem lineFrame_of_off (h : c.framerOn p cl = false) : c.lineFrame p cl li = c := by simp [Core.lineFrame, h]

/-! ### Detections (R104, R109, R111) -/

theorem detection_of_new (ho : c.framerOn p cl = true) (hl : (c.framer p cl).lock = none) (hp : k.pos < c.frameBits p cl)
    (hc : (c.framer p cl).cands.any (fun q => q.1 = k.pos) = false) (he : (c.framer p cl).excl.contains k.pos = false)
    (hn : (c.framer p cl).cands.length < 8) (h1 : c.ifN p ≠ 1) (hb : c.bitsAt p cl k = sentPattern (!cl && c.rxInv p)) :
    c.detection p cl k = c.updFramer p cl fun f => { f with cands := f.cands ++ [(k.pos, 1)] } := by
  unfold Core.detection
  simp only [ho, hl, hp, patOk_eq, hb, hc, he, h1, Nat.not_le.mpr hn, Option.isNone_none, decide_true, decide_false, Bool.and_self,
    Bool.or_self, false_and, ↓reduceIte, Bool.false_eq_true]

theorem detection_of_wrong (hb : c.bitsAt p cl k ≠ sentPattern (!cl && c.rxInv p)) : c.detection p cl k = c :=
  if_neg (by simp [patOk_eq, hb])

theorem detection_of_off (h : c.framerOn p cl = false) : c.detection p cl k = c := if_neg (by simp [h])

/-! ### The end of a hunt cycle (R114) -/

theorem huntCycleEnd_of_due (ho : c.framerOn p cl = true) (hl : (c.framer p cl).lock = none) (h : 64 ≤ (c.framer p cl).cyc) :
    c.huntCycleEnd p cl = c.updFramer p cl fun f => { f with excl := [], cyc := 0 } := if_pos (by simp [ho, hl, h])

theorem huntCycleEnd_of_early (h : (c.framer p cl).cyc < 64) : c.huntCycleEnd p cl = c := if_neg (by simp [h])

theorem huntCycleEnd_of_off (h : c.framerOn p cl = false) : c.huntCycleEnd p cl = c := if_neg (by simp [h])

end Hunt

/-! ## H4 machines of a port changed together (R112, R116) -/

section PortH4

variable {c : Core} {p : Nat} {f : Multi → Multi}

/-- Showing H4_STATE writes table words only. -/
theorem showH4_keeps (k : Nat) : (c.showH4 k).ports = c.ports ∧ (c.showH4 k).regs = c.regs := by
  refine forL_induct (fun d : Core => d.ports = c.ports ∧ d.regs = c.regs) (fun j d hd => ?_) _ ⟨rfl, rfl⟩
  exact hd

theorem portH4_keeps : (c.portH4 p f).ports = c.ports ∧ (c.portH4 p f).regs = c.regs := by
  refine forL_induct (fun d : Core => d.ports = c.ports ∧ d.regs = c.regs) (fun k d hd => ?_) _ ⟨rfl, rfl⟩
  obtain ⟨hp, hr⟩ := showH4_keeps (c := d.updObj k fun x => { x with h4 := f x.h4 }) k
  exact ⟨hp.trans hd.1, hr.trans hd.2⟩

theorem framer_portH4 (cl : Bool) : (c.portH4 p f).framer p cl = c.framer p cl := framer_congr (port_congr portH4_keeps.1) cl

theorem portH4_of_none (h : (c.onPort p).filter (fun k => isPath (k / 4)) = []) : c.portH4 p f = c := by rw [Core.portH4, h]; rfl

end PortH4

/-! ## A candidate confirmed (R110, R112, R114) -/

section Confirm

variable {c : Core} {p q : Nat} {cl : Bool}

/-- A framer that takes position `q` as SYNC: probation begins, the hunt is over. -/
def syncedAt (q : Nat) (f : Framer) : Framer :=
  { f with lock := some q, ready := none, cands := [], excl := [], cyc := 0, errRun := 0, prob := 32, fresh := true }

/-- The framer in SYNC at its candidate's position, and the multiframe values recorded before counted no more. -/
def confirmed (c : Core) (p : Nat) (cl : Bool) (q : Nat) : Core :=
  let d := c.updFramer p cl (syncedAt q)
  if cl then d else d.updPort p fun x => { x with mfas := { x.mfas with bad := 0, failed := false } }

theorem framer_confirmed : (confirmed c p cl q).framer p cl = syncedAt q (c.framer p cl) := by
  cases cl <;> simp [confirmed, Core.updFramer, Core.framer, Core.port_updPort]

theorem regs_confirmed : (confirmed c p cl q).regs = c.regs := by cases cl <;> rfl

theorem onPort_confirmed : (confirmed c p cl q).onPort p = c.onPort p := by
  cases cl <;> simp only [confirmed, Core.updFramer, onPort_updPort, ↓reduceIte, Bool.false_eq_true]

theorem confirm_of_ready (ho : c.framerOn p cl = true) (hl : (c.framer p cl).lock = none) (hr : (c.framer p cl).ready = some q) :
    c.confirm p cl = (confirmed c p cl q).portH4 p fun m => { m with bad := 0, failed := false } := by
  rw [Core.confirm, if_pos ho, hr, hl]
  rfl

theorem confirm_of_off (h : c.framerOn p cl = false) : c.confirm p cl = c := if_neg (by simp [h])

end Confirm

/-- Settles O15: what a hunting framer makes of a line frame is `hunted`, and of a confirmed candidate `confirmed`. -/
theorem huntingFindsAPosition : Obligations.HuntingFindsAPosition := by
  unfold Obligations.HuntingFindsAPosition
  intro c p cl hl checks hunt
  have hline (li s) : exec (.lineFrame p cl li) s = s.on (·.lineFrame p.val cl li) := rfl
  have hdet (k s) : exec (.detection p cl k) s = s.on (·.detection p.val cl k) := rfl
  have hconf (s) : exec (.candidateConfirm p cl) s = s.on (·.confirm p.val cl) := rfl
  have hend (s) : exec (.huntCycleEnd p cl) s = s.on (·.huntCycleEnd p.val cl) := rfl
  refine ⟨fun ho => ⟨fun h li => ?_, fun h li fr rest hq => ?_, fun h hq li => ?_, fun k hp hc he hn h1 => ⟨fun hb => ?_, fun hb => ?_⟩,
      fun q hr hz => ?_, fun q hr => ?_, fun h => ?_, fun h => ?_⟩, fun ho li k => ⟨?_, ?_, ?_, ?_⟩⟩
  · subst h
    exact goes_of_on (hline li) ((lineFrame_of_port ho).trans (portLine_of_hunting hl))
  · subst h
    exact goes_of_on (hline li) ((lineFrame_of_client ho).trans (clientLine_of_hunting hl hq))
  · subst h
    exact goes_of_on (hline li) ((lineFrame_of_client ho).trans (clientLine_of_short hq))
  · exact goes_of_on (hdet k) (detection_of_new ho hl hp hc he hn h1 hb)
  · exact goes_of_on (hdet k) (detection_of_wrong hb)
  · refine goes_of_on hconf ((confirm_of_ready ho hl hr).trans (portH4_of_none ?_))
    rw [onPort_confirmed, hz]
  · refine reaches_of_on hconf ?_
    simp only [confirm_of_ready ho hl hr, framer_portH4, framer_confirmed]
    exact ⟨rfl, rfl, rfl, portH4_keeps.2.trans regs_confirmed⟩
  · exact goes_of_on hend (huntCycleEnd_of_due ho hl h)
  · exact goes_of_on hend (huntCycleEnd_of_early h)
  · exact goes_of_on (hline li) (lineFrame_of_off ho)
  · exact goes_of_on (hdet k) (detection_of_off ho)
  · exact goes_of_on hconf (confirm_of_off ho)
  · exact goes_of_on hend (huntCycleEnd_of_off ho)

/-! ## Leaving SYNC (R112, R113, R115, R116) -/

section LeaveSync

variable {c : Core} {p pos : Nat} {cl : Bool}

theorem oof_of_due (hl : (c.framer p cl).lock = some pos) (he : c.oofN p ≤ (c.framer p cl).errRun) (hp : (c.framer p cl).prob = 0) :
    c.oof p cl = c.leaveSync p cl none := if_pos (by simp [hl, he, hp])

theorem falseLock_of_errors (hl : (c.framer p cl).lock = some pos) (he : c.oofN p ≤ (c.framer p cl).errRun)
    (hp : 0 < (c.framer p cl).prob) : c.falseLock p cl = c.leaveSync p cl (some pos) := by
  simp [Core.falseLock, hl, he, hp]

/-- A framer back in HUNT, its exit counted and `e` the last of its exclusions. -/
def leftSync (e : Option Nat) (f : Framer) : Framer :=
  { f with
    lock := none, ready := none, cands := [], cyc := 0, errRun := 0, prob := 0, exits := f.exits + 1
    excl := match e with
      | some q => (f.excl.filter (· ≠ q) ++ [q]).drop ((f.excl.filter (· ≠ q)).length + 1 - 4)
      | none => f.excl }

/-- Of what else changes with it, nothing is the framer's own. -/
theorem framer_leaveSync (e : Option Nat) : (c.leaveSync p cl e).framer p cl = leftSync e (c.framer p cl) := by
  have hd : ((c.updFramer p cl (leftSync e)).portH4 p fun m => { m.out with last := none, failed := false }).framer p cl =
      leftSync e (c.framer p cl) := (framer_portH4 cl).trans (framer_updFramer _)
  rw [← hd]
  unfold Core.leaveSync
  cases cl <;> simp only [Core.framer, Core.port_updPort, ↓reduceIte, Bool.false_eq_true] <;> rfl

end LeaveSync

/-- Settles O16: a due framer leaves SYNC by `leaveSync`, and what that makes of the framer is `leftSync`. -/
theorem alignedFramerLeavesSync : Obligations.AlignedFramerLeavesSync := by
  unfold Obligations.AlignedFramerLeavesSync
  intro c p cl pos hl he
  refine ⟨fun hp => ?_, fun hp => ?_, fun e => ?_⟩
  · exact goes_of_on (f := (·.oof p.val cl)) (fun _ => rfl) (oof_of_due hl he hp)
  · exact goes_of_on (f := (·.falseLock p.val cl)) (fun _ => rfl) (falseLock_of_errors hl he hp)
  · rw [framer_leaveSync]
    exact ⟨rfl, rfl⟩

/-! ## Defects of alignment (R117, R121, R126, R131) -/

section AlignmentDefects

variable {c : Core} {p : Port} {o : ObjRef}

/-- LOF of a framer: C_LOF for the carried STM-N. -/
def lofOf (cl : Bool) : Defect := if cl then .cLof else .lof

theorem lof_of_out {cl : Bool} (hd : (c.port p.val).present.contains (lofOf cl) = false) (hr : c.lofSet p.val ≤ (c.framer p.val cl).outRun) :
    c.lof p cl true = c.setDefect (.port p) (lofOf cl) true := if_pos (by simpa [lofOf, hr] using hd)

theorem lof_of_in {cl : Bool} (hd : (c.port p.val).present.contains (lofOf cl) = true) (hr : c.lofClr p.val ≤ (c.framer p.val cl).inRun) :
    c.lof p cl false = c.setDefect (.port p) (lofOf cl) false := if_pos (by simpa [lofOf, hr] using hd)

theorem otuLom_of_out (ho : isOtu (c.rate p.val) = true) (hd : (c.port p.val).present.contains .otuLom = false)
    (hr : c.mfLom p.val ≤ (c.port p.val).mfas.oomF) : c.otuLom p true = c.setDefect (.port p) .otuLom true :=
  if_pos (by simpa [ho, hr] using hd)

theorem otuLom_of_in (hd : (c.port p.val).present.contains .otuLom = true) (hr : c.mfLom p.val ≤ (c.port p.val).mfas.mfF) :
    c.otuLom p false = c.setDefect (.port p) .otuLom false := if_pos (by simpa [hr] using hd)

theorem tuLom_of_out (hs : (c.obj o.key).svc = true) (hh : c.hasH4 o.key = true) (hd : (c.obj o.key).present.contains .tuLom = false)
    (hr : c.mfLom (c.portOf o.idx.val) ≤ (c.obj o.key).h4.oomF) : c.tuLom o true = c.setDefect (.obj o) .tuLom true :=
  if_pos (by simpa [hs, hh, hr] using hd)

theorem tuLom_of_in (hd : (c.obj o.key).present.contains .tuLom = true) (hr : c.mfLom (c.portOf o.idx.val) ≤ (c.obj o.key).h4.mfF) :
    c.tuLom o false = c.setDefect (.obj o) .tuLom false := if_pos (by simpa [hr] using hd)

end AlignmentDefects

/-- Settles O17, defect by defect. -/
theorem alignmentDefectsFollowTheirRuns : Obligations.AlignmentDefectsFollowTheirRuns := by
  unfold Obligations.AlignmentDefectsFollowTheirRuns
  intro c p o
  refine ⟨fun cl => ⟨fun hd hr => ?_, fun hd hr => ?_⟩, fun ho hd hr => ?_, fun hd hr => ?_, fun hs hh hd hr => ?_, fun hd hr => ?_⟩
  · exact goes_of_on (f := (·.lof p cl true)) (fun _ => rfl) (lof_of_out hd hr)
  · exact goes_of_on (f := (·.lof p cl false)) (fun _ => rfl) (lof_of_in hd hr)
  · exact goes_of_on (f := (·.otuLom p true)) (fun _ => rfl) (otuLom_of_out ho hd hr)
  · exact goes_of_on (f := (·.otuLom p false)) (fun _ => rfl) (otuLom_of_in hd hr)
  · exact goes_of_on (f := (·.tuLom o true)) (fun _ => rfl) (tuLom_of_out hs hh hd hr)
  · exact goes_of_on (f := (·.tuLom o false)) (fun _ => rfl) (tuLom_of_in hd hr)

/-! ## Multiframe machines (R120, R129, R130) -/

section Multiframes

variable {c : Core} {p : Nat} {o : ObjRef} {x : Multi} {m n v l : Nat}

theorem align_of_last (h : x.last = some l) :
    x.align m = { x with inMf := true, run := 0, bad := 0, thru := false, want := (l + 1) % m } := by rw [Multi.align, h]

theorem mfasAlign_of_run (hl : (c.port p).fr.lock.isSome = true) (hm : (c.port p).mfas.inMf = false)
    (hr : c.mfIfN p ≤ (c.port p).mfas.run) :
    c.mfasAlign p = c.updPort p fun z => { z with mfas := (c.port p).mfas.align 256 } := if_pos (by simp [hl, hm, hr])

theorem mfasAlign_of_not_due (h : (c.port p).fr.lock = none ∨ (c.port p).mfas.inMf = true ∨ (c.port p).mfas.run < c.mfIfN p) :
    c.mfasAlign p = c := by
  refine if_neg ?_
  rcases h with h | h | h <;> simp [h]

theorem mfasOom_of_bad (hm : (c.port p).mfas.inMf = true) (hb : c.mfOomN p ≤ (c.port p).mfas.bad) :
    c.mfasOom p = c.updPort p fun z => { z with mfas := (c.port p).mfas.out } := if_pos (by simp [hm, hb])

theorem mfasOom_of_not_due (h : (c.port p).mfas.inMf = false ∨ (c.port p).mfas.bad < c.mfOomN p) : c.mfasOom p = c := by
  refine if_neg ?_
  rcases h with h | h <;> simp [h]

theorem h4Align_of_run (hs : (c.obj o.key).svc = true) (hh : c.hasH4 o.key = true) (hn : (c.obj o.key).itp = .norm)
    (hm : (c.obj o.key).h4.inMf = false) (hr : c.mfIfN (c.portOf o.idx.val) ≤ (c.obj o.key).h4.run) :
    c.h4Align o = (c.updObj o.key fun z => { z with h4 := (c.obj o.key).h4.align 4 }).showH4 o.key :=
  if_pos (by simp [hs, hh, hn, hm, hr])

theorem h4Align_of_not_due (h : c.hasH4 o.key = false ∨ (c.obj o.key).h4.inMf = true ∨
    (c.obj o.key).h4.run < c.mfIfN (c.portOf o.idx.val)) : c.h4Align o = c := by
  refine if_neg ?_
  rcases h with h | h | h <;> simp [h]

theorem h4Oom_of_due (hm : (c.obj o.key).h4.inMf = true)
    (h : c.mfOomN (c.portOf o.idx.val) ≤ (c.obj o.key).h4.bad ∨ (c.obj o.key).itp ≠ .norm) :
    c.h4Oom o = (c.updObj o.key fun z => { z with h4 := (c.obj o.key).h4.out }).showH4 o.key := if_pos (by simpa [hm] using h)

theorem h4Oom_of_not_due (h : (c.obj o.key).h4.inMf = false ∨
    ((c.obj o.key).h4.bad < c.mfOomN (c.portOf o.idx.val) ∧ (c.obj o.key).itp = .norm)) : c.h4Oom o = c := by
  refine if_neg ?_
  rcases h with h | ⟨hb, hn⟩
  · simp [h]
  · simp [hb, hn]

/-- A value is noted, and the expected one advances, in and out of multiframe alike. -/
theorem value_last : (x.value m n v).last = some v ∧ (x.value m n v).inMf = x.inMf ∧ (x.value m n v).want = (x.want + 1) % m := by
  unfold Multi.value
  dsimp only
  split
  · exact ⟨rfl, rfl, rfl⟩
  · split
    · exact ⟨rfl, rfl, rfl⟩
    · split <;> exact ⟨rfl, rfl, rfl⟩

theorem value_bad (h : x.inMf = true) : (x.value m n v).bad = if v = x.want then 0 else x.bad + 1 := by simp [Multi.value, h]

theorem value_run (h : x.inMf = false) (hl : x.last = some l) : (x.value m n v).run = if v = (l + 1) % m then x.run + 1 else 0 := by
  rw [Multi.value, if_neg (ne_true_of_eq_false h), hl]
  exact apply_ite Multi.run ..

end Multiframes

/-- Settles O18: each machine's two commands by whether they are due, and what a value counts as. -/
theorem multiframesAlign : Obligations.MultiframesAlign := by
  unfold Obligations.MultiframesAlign
  intro c p o x y q out
  have hmf (s) : exec (.mfasAlign p) s = s.on (·.mfasAlign p.val) := rfl
  have hmo (s) : exec (.mfasOom p) s = s.on (·.mfasOom p.val) := rfl
  have hha (s) : exec (.h4MfAlign o) s = s.on (·.h4Align o) := rfl
  have hho (s) : exec (.h4MfOom o) s = s.on (·.h4Oom o) := rfl
  refine ⟨fun hl hm hr l h => ?_, fun h => ?_, fun hm hb => ?_, fun h => ?_, fun hs hh hn hm hr l h => ?_, fun h => ?_, fun hm h => ?_,
    fun h => ?_, fun m n v l z hl => ?_⟩
  · rw [← align_of_last h]
    exact goes_of_on hmf (mfasAlign_of_run hl hm hr)
  · exact goes_of_on hmf (mfasAlign_of_not_due h)
  · exact goes_of_on hmo (mfasOom_of_bad hm hb)
  · exact goes_of_on hmo (mfasOom_of_not_due h)
  · rw [← align_of_last h]
    exact goes_of_on hha (h4Align_of_run hs hh hn hm hr)
  · exact goes_of_on hha (h4Align_of_not_due h)
  · exact goes_of_on hho (h4Oom_of_due hm h)
  · exact goes_of_on hho (h4Oom_of_not_due h)
  · obtain ⟨hlast, hin, hwant⟩ := value_last (x := z) (m := m) (n := n) (v := v)
    exact ⟨hlast, hin, hwant, value_bad, fun h => value_run h hl⟩

/-! ## The E1 monitor (R132–R135) -/

section E1

variable {c : Core} {i : Nat} {src : List E1St} {dst : E1St} {ok crc : Bool} {x : E1Rx} {thr : Nat} {fr : List Bool}

theorem aligned_of_found {st : E1St} (h : st = .basic ∨ st = .noCrc4 ∨ st = .crc4) : st.aligned = true := by
  rcases h with rfl | rfl | rfl <;> rfl

theorem e1Go_of_made (ho : c.e1On i = true) (hs : (c.obj (okey i 0)).e1 ∈ src) (hk : ok = true) :
    c.e1Go i src dst ok = c.setE1 i dst := if_pos (by simp [ho, hs, hk])

theorem e1Go_of_not_made (h : c.e1On i = false ∨ (c.obj (okey i 0)).e1 ∉ src ∨ ok = false) : c.e1Go i src dst ok = c := by
  refine if_neg ?_
  rcases h with h | h | h <;> simp [h]

/-- The loss that the machine holds, of CRC-4 alignment or of the FAS. -/
def lossHeld (crc : Bool) (x : E1Rx) : Bool := if crc then x.lostCrc else x.lostFas

/-- Losses taken notice of. -/
def lossSeen (c : Core) (i : Nat) : Core :=
  c.updObj (okey i 0) fun z => { z with e1rx := { z.e1rx with lostFas := false, lostCrc := false } }

theorem e1Lost_of_loss (ho : c.e1On i = true) (hs : (c.obj (okey i 0)).e1 ∈ src)
    (hl : lossHeld crc (c.obj (okey i 0)).e1rx = true) : c.e1Lost i src crc = (lossSeen c i).setE1 i .search :=
  if_pos (by simpa [lossHeld, ho, hs] using hl)

theorem e1Lost_of_none (h : c.e1On i = false ∨ (c.obj (okey i 0)).e1 ∉ src ∨
    lossHeld crc (c.obj (okey i 0)).e1rx = false) : c.e1Lost i src crc = c := by
  refine if_neg ?_
  rw [lossHeld] at h
  rcases h with h | h | h <;> simp [h]

/-- The third errored FAS in a row (R133). -/
theorem frame_of_third_error (ho : x.odd = false) (hf : isFas (fr.take 8) = false) (he : x.errs = 2) :
    x.frame thr fr = E1Rx.search { x with buf := fr } true false := by
  simp [E1Rx.frame, ho, hf, he]

/-- The blocks after a frame depend on the CRC alone. -/
theorem blocks_crcFrame (b : List Bool) (od : Bool) (er ag : Nat) (nf : List Bool) :
    (E1Rx.crcFrame { x with buf := b, odd := od, errs := er, age := ag, nfas := nf } fr).blocks = (x.crcFrame fr).blocks := by
  unfold E1Rx.crcFrame
  dsimp only
  split
  · split <;> rfl
  · rfl

/-- As many errored blocks as the threshold (R135). -/
theorem frame_of_crc_errors (h : (x.odd = true ∧ x.errs < 3) ∨ (x.odd = false ∧ isFas (fr.take 8) = true)) (hs : x.st = .crc4)
    (ht : thr ≤ (x.crcFrame fr).blocks.countP id) : (x.frame thr fr).st = .search ∧ (x.frame thr fr).lostCrc = true := by
  have hn : ¬ 3 ≤ (if x.odd then x.errs else if isFas (fr.take 8) then 0 else x.errs + 1) := by
    rcases h with ⟨ho, he⟩ | ⟨ho, hf⟩
    · simpa [ho] using he
    · simp [ho, hf]
  unfold E1Rx.frame
  dsimp only
  rw [if_neg hn, if_pos hs, if_pos (by rw [blocks_crcFrame]; exact ht)]
  exact ⟨rfl, rfl⟩

/-- The 64th frame of basic alignment, one with FAS, brings no multiframe alignment signal (R134). -/
theorem frame_of_late (ho : x.odd = false) (hf : isFas (fr.take 8) = true) (hs : x.st = .basic) (ha : x.age = 63) :
    (x.frame thr fr).st = .noCrc4 := by
  simp [E1Rx.frame, ho, hf, hs, ha]

end E1

/-- Settles O19: each transition by whether the machine has made it, and the machine by its three outcomes. -/
theorem e1MonitorMoves : Obligations.E1MonitorMoves := by
  unfold Obligations.E1MonitorMoves
  intro c i x go lost
  have hba (s) : exec (.e1BasicAlign i) s = s.on fun c => c.e1Go i.val [.search] .basic (c.obj (okey i.val 0)).e1rx.st.aligned := rfl
  have hca (s) : exec (.e1Crc4Align i) s =
      s.on fun c => c.e1Go i.val [.basic, .noCrc4] .crc4 ((c.obj (okey i.val 0)).e1rx.st = .crc4) := rfl
  have hnc (s) : exec (.noCrc4 i) s = s.on fun c => c.e1Go i.val [.basic] .noCrc4 ((c.obj (okey i.val 0)).e1rx.st = .noCrc4) := rfl
  have hbl (s) : exec (.e1BasicLoss i) s = s.on (·.e1Lost i.val [.basic, .noCrc4, .crc4] false) := rfl
  have hcl (s) : exec (.e1Crc4Loss i) s = s.on (·.e1Lost i.val [.crc4] true) := rfl
  refine ⟨fun ho => ⟨fun he hs => ?_, fun h => ?_, fun he hs => ?_, fun h => ?_, fun he hs => ?_, fun h => ?_, fun he hl => ?_, fun h => ?_,
    fun he hl => ?_, fun h => ?_⟩, fun ho => ?_, fun thr y fr => ⟨fun ho hf he => ?_, fun h hs ht => frame_of_crc_errors h hs ht,
    fun ho hf hs ha => frame_of_late ho hf hs ha⟩⟩
  · exact goes_of_on hba (e1Go_of_made ho (List.mem_singleton.mpr he) (aligned_of_found hs))
  · exact goes_of_on hba (e1Go_of_not_made (.inr (h.imp (mt List.mem_singleton.mp) fun h => congrArg E1St.aligned h)))
  · exact goes_of_on hca (e1Go_of_made ho (by simpa using he) (decide_eq_true hs))
  · exact goes_of_on hca (e1Go_of_not_made (.inr (.inr (decide_eq_false h))))
  · exact goes_of_on hnc (e1Go_of_made ho (List.mem_singleton.mpr he) (decide_eq_true hs))
  · exact goes_of_on hnc (e1Go_of_not_made (.inr (h.imp (mt List.mem_singleton.mp) decide_eq_false)))
  · exact goes_of_on hbl (e1Lost_of_loss ho (by simpa using he) hl)
  · exact goes_of_on hbl (e1Lost_of_none (.inr (.inr h)))
  · exact goes_of_on hcl (e1Lost_of_loss ho (List.mem_singleton.mpr he) hl)
  · exact goes_of_on hcl (e1Lost_of_none (.inr (h.imp_left (mt List.mem_singleton.mp))))
  · have hgo {src dst ok} : c.e1Go i.val src dst ok = c := e1Go_of_not_made (.inl ho)
    have hlost {src crc} : c.e1Lost i.val src crc = c := e1Lost_of_none (.inl ho)
    intro j hj
    simp only [List.mem_cons, List.not_mem_nil, or_false] at hj
    obtain rfl | rfl | rfl | rfl | rfl := hj
    · exact goes_of_on hba hgo
    · exact goes_of_on hca hgo
    · exact goes_of_on hnc hgo
    · exact goes_of_on hbl hlost
    · exact goes_of_on hcl hlost
  · rw [frame_of_third_error ho hf he]
    exact ⟨rfl, rfl⟩

end Sys2Proof.Proofs

/-! The obligations of overhead and defects (chapter 5): suppression, accepted traces and values, defects, PM seconds, the DCC channels, and
the protocol failures of MSP pairs. -/

namespace Sys2Proof.Proofs

open Sys2Proof Sys2Proof.Machine Sys2Proof.Safety

/-! ## What a reported defect suppresses (R154, Table 5-10) -/

section Suppression

variable {cq : Word} {present ranks : List Defect} {exc : Bool} {d e : Defect}

/-- The defects reported of the ranks still to come, where `exc` says that an EXC has been reported before them and nothing wide has. -/
def reportFrom (cq : Word) (present : List Defect) : Bool → List Defect → List Defect
  | _, [] => []
  | exc, d :: l =>
    if present.contains d && !(exc && d.isDeg) then
      if d.wide cq then [d] else d :: reportFrom cq present (exc || d.isExc) l
    else reportFrom cq present exc l

/-- One rank of `cutRanks`: what is reported so far, whether a wide defect is among it, and whether an EXC is. -/
def rankStep (cq : Word) (present : List Defect) (acc : List Defect × Bool × Bool) (d : Defect) : List Defect × Bool × Bool :=
  if acc.2.1 || !(present.contains d) || (acc.2.2 && d.isDeg) then acc else (acc.1 ++ [d], d.wide cq, acc.2.2 || d.isExc)

theorem rankStep_eq (l : List Defect) : rankStep cq present (l, false, exc) d =
    if present.contains d && !(exc && d.isDeg) then (l ++ [d], d.wide cq, exc || d.isExc) else (l, false, exc) := by
  unfold rankStep
  cases present.contains d <;> cases exc && d.isDeg <;> rfl

theorem foldl_rankStep_of_wide (l : List Defect) : ranks.foldl (rankStep cq present) (l, true, exc) = (l, true, exc) := by
  induction ranks with
  | nil => rfl
  | cons d ranks ih => exact ih

theorem foldl_rankStep (l : List Defect) :
    (ranks.foldl (rankStep cq present) (l, false, exc)).1 = l ++ reportFrom cq present exc ranks := by
  fun_induction reportFrom cq present exc ranks generalizing l with
  | case1 => exact (List.append_nil l).symm
  | case2 exc d ranks h hw => rw [List.foldl_cons, rankStep_eq, if_pos h, hw, foldl_rankStep_of_wide]
  | case3 exc d ranks h hw ih =>
    rw [List.foldl_cons, rankStep_eq, if_pos h, Bool.eq_false_iff.mpr hw, ih, List.append_assoc, List.singleton_append]
  | case4 exc d ranks h ih => rw [List.foldl_cons, rankStep_eq, if_neg h, ih]

theorem cutRanks_eq : cutRanks cq present ranks = reportFrom cq present false ranks := foldl_rankStep []

theorem reportFrom_sublist : (reportFrom cq present exc ranks).Sublist (ranks.filter present.contains) := by
  fun_induction reportFrom cq present exc ranks with
  | case1 => exact List.nil_sublist _
  | case2 exc d ranks h hw =>
    rw [List.filter_cons_of_pos (Bool.and_eq_true_iff.mp h).1]
    exact List.singleton_sublist.mpr List.mem_cons_self
  | case3 exc d ranks h hw ih =>
    rw [List.filter_cons_of_pos (Bool.and_eq_true_iff.mp h).1]
    exact ih.cons_cons d
  | case4 exc d ranks h ih => exact ih.trans ((List.sublist_cons_self d ranks).filter _)

/-- Once an EXC is reported no DEG is. -/
theorem isDeg_of_mem_reportFrom (hx : exc = true) (h : e ∈ reportFrom cq present exc ranks) : e.isDeg = false := by
  fun_induction reportFrom cq present exc ranks with
  | case1 => exact absurd h List.not_mem_nil
  | case2 exc d ranks hd hw =>
    obtain rfl := List.mem_singleton.mp h
    simpa [hx] using (Bool.and_eq_true_iff.mp hd).2
  | case3 exc d ranks hd hw ih =>
    rcases List.mem_cons.mp h with rfl | h
    · simpa [hx] using (Bool.and_eq_true_iff.mp hd).2
    · exact ih (by simp [hx]) h
  | case4 exc d ranks hd ih => exact ih hx h

/-- Whether `e` may be reported after a reported defect: that one is not wide and, where it is an EXC, `e` is no DEG. -/
def Admits (cq : Word) (d e : Defect) : Prop := d.wide cq = false ∧ (d.isExc = true → e.isDeg = false)

theorem reportFrom_pairwise : (reportFrom cq present exc ranks).Pairwise (Admits cq) := by
  fun_induction reportFrom cq present exc ranks with
  | case1 => exact List.Pairwise.nil
  | case2 exc d ranks h hw => exact List.pairwise_singleton _ _
  | case3 exc d ranks h hw ih =>
    exact List.pairwise_cons.mpr
      ⟨fun e he => ⟨Bool.eq_false_iff.mpr hw, fun hx => isDeg_of_mem_reportFrom (by simp [hx]) he⟩, ih⟩
  | case4 exc d ranks h ih => exact ih

/-- A reported defect admits what is reported after it. -/
theorem admits_of_cutRanks {a b : List Defect} (h : cutRanks cq present ranks = a ++ d :: b) (he : e ∈ b) : Admits cq d e := by
  have hp : (a ++ d :: b).Pairwise (Admits cq) := h ▸ cutRanks_eq ▸ reportFrom_pairwise
  exact List.rel_of_pairwise_cons (List.pairwise_append.mp hp).2.1 he

/-- The first of the defects present is reported, as no EXC comes before it. -/
theorem head_reportFrom (h : (ranks.filter present.contains).head? = some d) : (reportFrom cq present false ranks).head? = some d := by
  induction ranks with
  | nil => exact h
  | cons e ranks ih =>
    rw [reportFrom]
    cases he : present.contains e
    · rw [List.filter_cons_of_neg (by simpa using he)] at h
      exact ih h
    · rw [List.filter_cons_of_pos he] at h
      cases hw : e.wide cq <;> exact h

end Suppression

/-- Settles O23: the defects reported lie among those present in rank order, and each admits those after it. -/
theorem wideDefectsSuppress : Obligations.WideDefectsSuppress := by
  unfold Obligations.WideDefectsSuppress
  intro cq present ranks _ rep
  have hr : rep = reportFrom cq present false ranks := cutRanks_eq
  have hs : rep.Sublist (ranks.filter present.contains) := hr ▸ reportFrom_sublist
  refine ⟨hs.trans List.filter_sublist, fun d hd => ?_, fun a b d h hw => ?_, fun a b d e h hx he => ?_, fun d hd => ?_⟩
  · simpa using List.of_mem_filter (hs.subset hd)
  · refine List.eq_nil_iff_forall_not_mem.mpr fun e he => ?_
    obtain ⟨hn, _⟩ := admits_of_cutRanks h he
    exact Bool.noConfusion (hn.symm.trans hw)
  · obtain ⟨_, hdeg⟩ := admits_of_cutRanks h he
    exact hdeg hx
  · rw [hr]
    exact head_reportFrom hd

/-! ## Commands that name what the block has found -/

section Seen

variable {i : Instr} {c c' : Core} {seen : Core → Bool} {f : Core → Core}

theorem goes_of_seen (hi : ∀ s, exec i s = s.onSeen seen f) (hs : seen c = true) (h : f c = c') : Goes i c c' :=
  goes_of_on hi ((if_pos hs).trans h)

theorem goes_of_unseen (hi : ∀ s, exec i s = s.onSeen seen f) (hs : seen c = false) : Goes i c c :=
  goes_of_on hi (if_neg (by simp [hs]))

end Seen

/-! ## Accepted traces (R147–R149) -/

section Traces

variable {c : Core} {p : Port} {o : ObjRef} {e t w : Nat} {bs : List Byte}

/-- A word of ACCEPTED: four bytes of the trace, zeros beyond it. -/
def acceptedWord (bs : List Byte) (w : Nat) : Word :=
  BitVec.ofNat 32 (sumL ((List.range 4).map fun k => (bs.getD (4 * w + k) 0).toNat * 2 ^ (8 * k)))

theorem trd_forN_twr (f : Nat → Word) (n : Nat) :
    (forN n (fun w c => c.twr (tti e (16 + w)) (f w)) c).trd (tti e (16 + w)) = if w < n then f w else c.trd (tti e (16 + w)) := by
  induction n with
  | zero => rfl
  | succ n ih =>
    have hk : tti e (16 + w) = tti e (16 + n) ↔ w = n := by simp only [tti, tkey]; omega
    rw [forN_succ, Core.trd_twr, ih]
    by_cases h : w = n
    · simp [h]
    · rw [if_neg (mt hk.mp h)]
      simp only [Nat.lt_succ_iff_lt_or_eq, h, or_false]

theorem trd_setAccepted (hw : w < 16) : (c.setAccepted e bs).trd (tti e (16 + w)) = acceptedWord bs w :=
  (trd_forN_twr (acceptedWord bs) 16).trans (if_pos hw)

theorem sumL_range_four (f : Nat → Nat) : sumL ((List.range 4).map f) = f 0 + f 1 + f 2 + f 3 := by
  simp [sumL, List.range_succ]

/-- Four bytes as a word, least significant first, byte by byte. -/
theorem byte_of_four {f : Nat → Nat} {k : Nat} (hf : ∀ k, f k < 2 ^ 8) (hk : k < 4) :
    sumL ((List.range 4).map fun k => f k * 2 ^ (8 * k)) % 2 ^ 32 / 2 ^ (8 * k) % 2 ^ 8 = f k := by
  have h0 := hf 0
  have h1 := hf 1
  have h2 := hf 2
  have h3 := hf 3
  rw [sumL_range_four]
  interval_cases k <;> omega

theorem extractLsb_acceptedWord {k : Nat} (hk : k < 4) : (acceptedWord bs w).extractLsb' (8 * k) 8 = bs.getD (4 * w + k) 0 := by
  apply BitVec.eq_of_toNat_eq
  rw [acceptedWord, BitVec.extractLsb'_toNat, BitVec.toNat_ofNat, Nat.shiftRight_eq_div_pow]
  exact byte_of_four (f := fun k => (bs.getD (4 * w + k) 0).toNat) (fun k => (bs.getD (4 * w + k) 0).isLt) hk

/-- ACCEPTED reads as the trace that was set, zeros beyond its length. -/
theorem ttiBytes_setAccepted (h : bs.length ≤ 64) :
    (c.setAccepted e bs).ttiBytes e 64 64 = bs ++ List.replicate (64 - bs.length) 0 := by
  refine List.ext_getElem (by simp [Core.ttiBytes]; omega) fun k hk _ => ?_
  have hk : k < 64 := by simpa [Core.ttiBytes] using hk
  have hw : (64 + k) / 4 = 16 + k / 4 := by omega
  have hb : (64 + k) % 4 = k % 4 := by omega
  have hsum : 4 * (k / 4) + k % 4 = k := by omega
  simp only [Core.ttiBytes, List.getElem_map, List.getElem_range]
  rw [hw, hb, trd_setAccepted (by omega), extractLsb_acceptedWord (Nat.mod_lt _ (by decide)), hsum]
  by_cases hl : k < bs.length
  · simp [hl]
  · simp [hl, List.getElem_append_right (Nat.le_of_not_lt hl)]

/-- A J0 trace accepted, its event set where it is a new one. -/
def j0Accepted (c : Core) (p : Nat) (bs : List Byte) : Core :=
  let d := c.setAccepted p bs
  if c.ttiBytes p 64 64 = bs ++ List.replicate (64 - bs.length) 0 then d else d.peEv p (bit 25)

/-- An SM trace accepted, its event set where it is a new one. -/
def smAccepted (c : Core) (p : Nat) (bs : List Byte) : Core :=
  let d := c.setAccepted (192 + p) bs
  if c.ttiBytes (192 + p) 64 64 = bs then d else d.peEv p (bit 26)

/-- The trace of an object accepted into its receive buffer, its event set where it is a new one. -/
def pathAccepted (c : Core) (i t : Nat) (bs : List Byte) : Core :=
  let d := c.setAccepted t bs
  if c.ttiBytes t 64 64 = bs ++ List.replicate (64 - bs.length) 0 then d
  else d.tev (trib i 6) (if d.ttype i = 2 ∧ isPath i = true then bit 28 else bit 10)

theorem ttiAccept_j0 (hr : c.ttiAcc p.val ≤ (c.port p.val).j0.run) (hs : 5 ≤ c.pst p.val) :
    let bs := (c.port p.val).j0.last
    let e := j0Accepted c p.val bs
    c.ttiAccept (.j0 p) = e.updPort p.val fun y => { y with j0Bad := e.gb (pe p.val 0x54) 0 && e.ttiBad p.val none bs.length } := by
  refine (if_pos ⟨hr, hs⟩).trans ?_
  simp only [bne_iff_ne, ne_eq, ite_not, j0Accepted]

theorem ttiAccept_sm (hr : c.ttiAcc p.val ≤ (c.port p.val).sm.run) (ho : isOtu (c.rate p.val) = true) (hs : 5 ≤ c.pst p.val) :
    let e := smAccepted c p.val (c.port p.val).sm.last
    c.ttiAccept (.sm p) = e.updPort p.val fun y =>
      { y with smBad := e.gb (pe p.val 0x54) 4 && e.ttiBad (192 + p.val) (some (e.gf (pe p.val 0x54) 5 2)) 64 } := by
  refine (if_pos ⟨hr, ho, hs⟩).trans ?_
  simp only [bne_iff_ne, ne_eq, ite_not, smAccepted]

theorem ttiAccept_path (hb : c.rxBuf o = some t) (hr : c.ttiAcc (c.portOf o.idx.val) ≤ (c.obj o.key).rx.trace.run)
    (hs : (c.obj o.key).svc = true) :
    let bs := (c.obj o.key).rx.trace.last
    let e := pathAccepted c o.idx.val t bs
    c.ttiAccept (.path o) = e.updObj o.key fun y =>
      { y with timBad := bitOf (e.trc (trib o.idx.val 0)) 14 && e.ttiBad t none bs.length } := by
  rw [Core.ttiAccept, hb]
  refine (if_pos ⟨hr, hs⟩).trans ?_
  simp only [bne_iff_ne, ne_eq, ite_not, pathAccepted]

theorem ttiAccept_j0_of_not (h : (c.port p.val).j0.run < c.ttiAcc p.val ∨ c.pst p.val < 5) : c.ttiAccept (.j0 p) = c :=
  if_neg fun ⟨hr, hs⟩ => by omega

theorem ttiAccept_sm_of_not (h : (c.port p.val).sm.run < c.ttiAcc p.val ∨ isOtu (c.rate p.val) = false ∨ c.pst p.val < 5) :
    c.ttiAccept (.sm p) = c := by
  refine if_neg ?_
  rcases h with h | h | h <;> simp [h]

theorem ttiAccept_path_of_not (hb : c.rxBuf o = some t)
    (h : (c.obj o.key).rx.trace.run < c.ttiAcc (c.portOf o.idx.val) ∨ (c.obj o.key).svc = false) : c.ttiAccept (.path o) = c := by
  rw [Core.ttiAccept, hb]
  refine if_neg ?_
  rcases h with h | h <;> simp [h]

theorem ttiAccept_path_of_none (hb : c.rxBuf o = none) : c.ttiAccept (.path o) = c := by rw [Core.ttiAccept, hb]

end Traces

/-- Settles O20: trail by trail, whether the command names the trace heard and whether that is accepted. -/
theorem tracesAreAccepted : Obligations.TracesAreAccepted := by
  unfold Obligations.TracesAreAccepted
  intro c p o
  have hi (t bs s) : exec (.ttiAccept t bs) s = s.onSeen (fun c => decide (c.traceHeard t = bs)) (·.ttiAccept t) := rfl
  have heard {t d} (h : c.ttiAccept t = d) : Goes (.ttiAccept t (c.traceHeard t)) c d := goes_of_seen (hi t _) (decide_eq_true rfl) h
  refine ⟨⟨fun hr hs => ?_, fun h => ?_⟩, ⟨fun hr ho hs => ?_, fun h => ?_⟩, fun t hb => ⟨fun hr hs => ?_, fun h => ?_⟩,
    fun hb bs => ?_, fun t bs h => ?_, fun t bs => ttiBytes_setAccepted⟩
  · exact heard (ttiAccept_j0 hr hs)
  · exact heard (ttiAccept_j0_of_not h)
  · exact heard (ttiAccept_sm hr ho hs)
  · exact heard (ttiAccept_sm_of_not h)
  · exact heard (ttiAccept_path hb hr hs)
  · exact heard (ttiAccept_path_of_not hb h)
  · exact goes_of_on (hi (.path o) bs) (ite_eq_right_iff.mpr fun _ => ttiAccept_path_of_none hb)
  · exact goes_of_unseen (hi t bs) (decide_eq_false (Ne.symm h))

/-! ## Accepted overhead values (R151, R152, section 5.5) -/

section Accepted

variable {c : Core} {p : Nat} {o : ObjRef}

theorem ssmAccept_of_run (h : max 3 (c.gf (pe p 0x50) 11 4) ≤ (c.port p).sRun) :
    let old := c.rd (pe p 0x214)
    let d := c.wr (pe p 0x214) (setFld (setFld old 4 4 (c.port p).sVal.toNat) 8 1 1)
    c.ssmAccept p = if fld old 4 4 = (c.port p).sVal.toNat then d else d.peEv p (bit 24) := if_pos h

/-- A K1/K2 pair shown as accepted: K1 in the low byte, K2 above it. -/
def kShown (c : Core) (p : Nat) : Core :=
  let v := (c.port p).kVal
  c.wr (pe p 0x210) (setFld (setFld (c.rd (pe p 0x210)) 0 8 (v.extractLsb' 8 8).toNat) 8 8 (v.extractLsb' 0 8).toNat)

theorem kAccept_of_run (h : max 3 (c.gf (pe p 0x50) 8 3) ≤ (c.port p).kRun) : c.kAccept p = kShown c p := if_pos h

/-- The accepted pair with its event, set where the pair is a new one. -/
def kNoted (c : Core) (p : Nat) : Core :=
  let d := c.kAccept p
  if c.gf (pe p 0x210) 0 16 = d.gf (pe p 0x210) 0 16 then d else d.ev (pe p 0x410) 1

theorem sluS_kNoted : (kNoted c p).sluS = c.sluS := by
  unfold kNoted Core.kAccept
  dsimp only
  split <;> split <;> rfl

theorem mspOf_congr {d : Core} (h : c.sluS = d.sluS) (q : Nat) : c.mspOf q = d.mspOf q := by
  unfold Core.mspOf Core.msp
  rw [h]

theorem k1k2Accept_of_unpaired (h : c.mspOf p = none) : c.k1k2Accept p = kNoted c p := by
  have hk : (kNoted c p).mspOf p = none := (mspOf_congr sluS_kNoted p).trans h
  unfold Core.k1k2Accept
  simp only [kNoted] at hk ⊢
  rw [hk]

theorem labelAccept_of_run (hs : (c.obj o.key).svc = true) (hr : 5 ≤ (c.obj o.key).slRun) :
    let v := (c.obj o.key).slVal.toNat
    let d := c.tsf (c.statKey o.key) 14 8 v
    c.labelAccept o = if fld (c.trd (c.statKey o.key)) 14 8 = v then d
      else d.tev (trib o.idx.val 6) (if d.ttype o.idx.val = 2 ∧ isPath o.idx.val = true then bit 29 else bit 11) :=
  if_pos (by simp [hs, hr])

end Accepted

/-- Settles O21, value by value. -/
theorem overheadValuesAreAccepted : Obligations.OverheadValuesAreAccepted := by
  unfold Obligations.OverheadValuesAreAccepted
  intro c p o
  refine ⟨fun h => ?_, fun h hm => ?_, fun hs hr => ?_⟩
  · exact goes_of_on (f := (·.ssmAccept p.val)) (fun _ => rfl) (ssmAccept_of_run h)
  · refine goes_of_on (f := (·.k1k2Accept p.val)) (fun _ => rfl) ((k1k2Accept_of_unpaired hm).trans ?_)
    rw [kNoted, kAccept_of_run h]
    rfl
  · exact goes_of_on (f := (·.labelAccept o)) (fun _ => rfl) (labelAccept_of_run hs hr)

/-! ## Defects, windows and remote indications (R143, R153, Tables 5-10 and 5-11) -/

section Detection

variable {c : Core} {p : Port} {o : ObjRef} {d : Defect} {on : Bool} {w : Word} {n : Nat}

theorem declare_of_port (h : c.portDetect p.val d = some on) : c.declare (.port p) d on = c.setDefect (.port p) d on := if_pos h
theorem declare_of_obj (h : c.objDetect o d = some on) : c.declare (.obj o) d on = c.setDefect (.obj o) d on := if_pos h

/-- A window with enough errors and no signal fail (R143). -/
theorem judgeExc_of_many {k : Nat} (h0 : fld w 0 8 ≠ 0) (h : excSet w n ≤ k) : judgeExc w n (k, false) = some true := by
  simp [judgeExc, h0, h]

theorem judgeExc_of_few {k : Nat} (h0 : fld w 0 8 ≠ 0) (hs : k < excSet w n) (hc : k < excClr w n) :
    judgeExc w n (k, false) = some false := by
  simp [judgeExc, h0, hs, hc]

/-- The block once the ended window of a port is taken. -/
def windowTaken (c : Core) (p : Nat) : Core := c.updPort p fun x => { x with judge := { x.judge with due := none } }

theorem excWindowEnd_of_judged {q : Nat × Bool} (hd : (c.port p.val).judge.due = some q)
    (hj : judgeExc (c.rd (pe p.val 0x6C)) (rateN (c.rate p.val)) q = some on) :
    c.excWindowEnd (.port p) = (windowTaken c p.val).setDefect (.port p) .msExc on := by
  simp only [Core.excWindowEnd, hd, hj, windowTaken, Core.updPort]

/-- A remote indication marked present or absent, or left as it is. -/
def marked (r : Remote) (l : List Remote) : Option Bool → List Remote
  | some true => if l.contains r then l else l ++ [r]
  | some false => l.filter (· ≠ r)
  | none => l

/-- What the K2 of a port says of MS-RDI, and the blocks of a Path of HP-RDI. -/
def msRdiSeen (x : Prt) : Option Bool := if x.k2Val = 6 ∧ 5 ≤ x.k2Run then some true else if 5 ≤ x.notRdiRun then some false else none
def hpRdiSeen (path : Bool) (x : Obj) : Option Bool := if path && decide (5 ≤ x.rdiRun) then some x.rdiVal else none

theorem remoteChange_msRdi : c.remoteChange (.port p) .msRdi =
    (c.setPort p.val { c.port p.val with remote := marked .msRdi (c.port p.val).remote (msRdiSeen (c.port p.val)) }).refresh p.val := rfl

theorem remoteChange_hpRdi : c.remoteChange (.obj o) .hpRdi =
    (c.setObj o.key { c.obj o.key with
      remote := marked .hpRdi (c.obj o.key).remote (hpRdiSeen (isPath o.idx.val) (c.obj o.key)) }).refresh (c.rxPort o.idx.val) := rfl

theorem remoteChange_msRdi_first (hv : (c.port p.val).k2Val = 6) (hr : 5 ≤ (c.port p.val).k2Run) (hn : (c.port p.val).remote = []) :
    c.remoteChange (.port p) .msRdi = (c.updPort p.val fun x => { x with remote := [.msRdi] }).refresh p.val := by
  have hs : msRdiSeen (c.port p.val) = some true := if_pos ⟨hv, hr⟩
  rw [remoteChange_msRdi, hs, hn]
  rfl

theorem remoteChange_hpRdi_first (hp : isPath o.idx.val = true) (hr : 5 ≤ (c.obj o.key).rdiRun) (hv : (c.obj o.key).rdiVal = true)
    (hn : (c.obj o.key).remote = []) :
    c.remoteChange (.obj o) .hpRdi = (c.updObj o.key fun x => { x with remote := [.hpRdi] }).refresh (c.rxPort o.idx.val) := by
  have hs : hpRdiSeen (isPath o.idx.val) (c.obj o.key) = some true := by simp [hpRdiSeen, hp, hr, hv]
  rw [remoteChange_hpRdi, hs, hn]
  rfl

end Detection

/-- Settles O22: each change by what its detection, its window or its run says. -/
theorem defectsFollowTheirDetection : Obligations.DefectsFollowTheirDetection := by
  unfold Obligations.DefectsFollowTheirDetection
  intro c p o d
  have hset (t s) : exec (.defectDeclare t d) s = s.on (·.declare t d true) := rfl
  have hclr (t s) : exec (.defectClear t d) s = s.on (·.declare t d false) := rfl
  have hexc (s) : exec (.excWindowEnd (.port p)) s = s.on (·.excWindowEnd (.port p)) := rfl
  refine ⟨fun h => ?_, fun h => ?_, fun h => ?_, fun h => ?_, fun n w hd hw h0 => ⟨fun hn => ?_, fun hs hc => ?_⟩, fun hv hr hn => ?_,
    fun hp hr hv hn => ?_⟩
  · exact goes_of_on (hset _) (declare_of_port h)
  · exact goes_of_on (hclr _) (declare_of_port h)
  · exact goes_of_on (hset _) (declare_of_obj h)
  · exact goes_of_on (hclr _) (declare_of_obj h)
  · exact goes_of_on hexc (excWindowEnd_of_judged hd (hw ▸ judgeExc_of_many h0 hn))
  · exact goes_of_on hexc (excWindowEnd_of_judged hd (hw ▸ judgeExc_of_few h0 hs hc))
  · exact goes_of_on (f := (·.remoteChange (.port p) .msRdi)) (fun _ => rfl) (remoteChange_msRdi_first hv hr hn)
  · exact goes_of_on (f := (·.remoteChange (.obj o) .hpRdi)) (fun _ => rfl) (remoteChange_hpRdi_first hp hr hv hn)

/-! ## The protocol failures of MSP pairs (R301–R303, Table 9-6) -/

section Msps

variable {c : Core} {x : Msp} {p k : Nat}

/-- PSBF, or CH_MM, of a pair at a new value: what the pair sends follows it, and both ports' events and the pair's status show it. -/
def psbfMoved (c : Core) (k : Nat) (v : Bool) : Core :=
  ((c.setMsp k { c.msp k with psbf := v }.govern).apsEv (c.msp k).eff 2).showMsp k
def chMmMoved (c : Core) (k : Nat) (v : Bool) : Core :=
  ((c.setMsp k { c.msp k with chMm := v }.govern).apsEv (c.msp k).eff 3).showMsp k

theorem psbf_of_late (hv : mspV (c.msp k).eff = true) (h : (c.msp k).psbf = false) (hn : 12 ≤ (c.msp k).noK) :
    c.psbf k = psbfMoved c k true := by
  simp [Core.psbf, psbfMoved, hv, h, hn]

theorem psbf_of_heard (hv : mspV (c.msp k).eff = true) (h : (c.msp k).psbf = true) (hn : (c.msp k).noK = 0) :
    c.psbf k = psbfMoved c k false := by
  simp [Core.psbf, psbfMoved, hv, h, hn]

theorem psbf_of_early (h : (c.msp k).psbf = false) (hn : (c.msp k).noK < 12) : c.psbf k = c := by
  simp [Core.psbf, h, hn]

theorem chMm_of_late (hv : mspV (c.msp k).eff = true) (h : (c.msp k).chMm = false) (hn : 400 ≤ (c.msp k).chRun) :
    c.chMm k = chMmMoved c k true := by
  simp [Core.chMm, chMmMoved, hv, h, hn]

theorem chMm_of_agreed (hv : mspV (c.msp k).eff = true) (h : (c.msp k).chMm = true) (hn : (c.msp k).chRun = 0) :
    c.chMm k = chMmMoved c k false := by
  simp [Core.chMm, chMmMoved, hv, h, hn]

theorem chMm_of_early (h : (c.msp k).chMm = false) (hn : (c.msp k).chRun < 400) : c.chMm k = c := by
  simp [Core.chMm, h, hn]

/-- Request codes have four bits, and there are two channels. -/
theorem localReq_lt (r : Bool) : (x.localReq r).1 < 16 ∧ (x.localReq r).2 < 2 := by
  unfold Msp.localReq
  split
  case h_11 => split <;> decide
  all_goals decide

/-- Without a protocol failure a bidirectional pair weighs the far request against its own. -/
theorem govern_next (hb : bitOf x.eff 15 = true) (hc : x.chMm = false) (hm : x.modeMm = false) :
    x.govern.p = { x.p with next :=
      if x.psbf = false ∧ (x.localReq (bitOf x.eff 16)).1 < x.far then decide (x.k1.toNat % 16 = 1) else x.p.next } := by
  simp [Msp.govern, hb, hc, hm]

theorem govern_tx1 (hb : bitOf x.eff 15 = true) (hp : x.psbf = false) (hc : x.chMm = false) (hm : x.modeMm = false) :
    let l := x.localReq (bitOf x.eff 16)
    x.govern.tx1.toNat = if l.1 < x.far ∨ (x.k1.toNat / 16 = 4 ∧ l.1 < 4) then 32 + x.k1.toNat % 16 else l.1 * 16 + l.2 := by
  obtain ⟨h1, h2⟩ := localReq_lt (x := x) (bitOf x.eff 16)
  simp only [Msp.govern, hb, hp, hc, hm, BitVec.toNat_ofNat, Bool.not_false, Bool.and_true, Bool.true_and, Bool.or_eq_true,
    Bool.and_eq_true, decide_eq_true_eq]
  rw [Nat.mod_eq_of_lt]
  split <;> omega

theorem rd_showMsp {a : Nat} (hk : k < 48) (ha : slu 0x1000 ≤ a) : (c.showMsp k).rd a = c.rd a := by
  simp only [slu] at ha
  unfold Core.showMsp
  dsimp only
  split
  · rfl
  · rw [rd_ev_ne _ (by simp only [slu]; omega), rd_ev_ne _ (by simp only [slu]; omega), rd_wr_ne _ (by simp only [slu]; omega)]

theorem sluS_showMsp : (c.showMsp k).sluS = c.sluS := by
  unfold Core.showMsp
  dsimp only
  split <;> rfl

theorem rd_apsEv {a b : Nat} {w : Word} (ha : a % 0x1000 ≠ 0x410) : (c.apsEv w b).rd a = c.rd a := by
  unfold Core.apsEv
  rw [rd_ev_ne _ (by simp only [pe]; omega), rd_ev_ne _ (by simp only [pe]; omega)]

/-- K1 and K2 of an accepted pair `new`, and whether they tell of another mode. -/
def heardK1 (new : Nat) : Byte := BitVec.ofNat 8 (new % 256)
def heardK2 (new : Nat) : Byte := BitVec.ofNat 8 (new / 256)
def otherMode (x : Msp) (k2 : Byte) : Bool := k2.getLsbD 3 || (k2.toNat % 8 = 4 && bitOf x.eff 15)

theorem toNat_heardK1 {new : Nat} : (heardK1 new).toNat = new % 256 := by simp [heardK1]
theorem toNat_heardK2 {new : Nat} (h : new < 2 ^ 16) : (heardK2 new).toNat = new / 256 := by
  rw [heardK2, BitVec.toNat_ofNat]
  omega

/-- The pair once it has been given an accepted K1/K2. -/
def pairGiven (x : Msp) (new : Nat) : Msp :=
  let y := { x with k1 := heardK1 new, k2 := heardK2 new, noK := 0, modeMm := otherMode x (heardK2 new) }
  { y with p := y.p.settle (mspCfg y.eff) }.govern

/-- An accepted K1/K2 handed to the Sluice: MODE_MM shows on both ports where it changes. -/
def pairHears (c : Core) (k new : Nat) : Core :=
  let x := c.msp k
  ((if otherMode x (heardK2 new) = x.modeMm then c else c.apsEv x.eff 4).setMsp k (pairGiven x new)).showMsp k

theorem rd_pairHears {a new : Nat} (hk : k < 48) (ha : slu 0x1000 ≤ a) (hm : a % 0x1000 ≠ 0x410) :
    (pairHears c k new).rd a = c.rd a := by
  refine (rd_showMsp hk ha).trans ?_
  change (if _ then c else _).rd a = _
  split
  · rfl
  · exact rd_apsEv hm

theorem msp_pairHears {new : Nat} : (pairHears c k new).msp k = pairGiven (c.msp k) new := by
  rw [pairHears, Core.msp, sluS_showMsp]
  exact (Core.msp_setMsp ..).trans (if_pos rfl)

theorem ports_kNoted : (kNoted c p).ports = c.ports := by
  unfold kNoted Core.kAccept
  dsimp only
  split <;> split <;> rfl

theorem rd_kAccept {a : Nat} (h : a ≠ pe p 0x210) : (c.kAccept p).rd a = c.rd a := by
  unfold Core.kAccept
  dsimp only
  split
  · exact rd_wr_ne _ h
  · rfl

theorem rd_kNoted {a : Nat} (h : a ≠ pe p 0x410) : (kNoted c p).rd a = (c.kAccept p).rd a := by
  unfold kNoted
  dsimp only
  split
  · rfl
  · exact rd_ev_ne _ h

theorem k1k2Accept_of_paired (h : c.mspOf p = some k) (hr : max 3 (c.gf (pe p 0x50) 8 3) ≤ (c.port p).kRun) :
    c.k1k2Accept p = pairHears (kNoted c p) k ((c.kAccept p).gf (pe p 0x210) 0 16) := by
  have hk : (kNoted c p).mspOf p = some k := (mspOf_congr sluS_kNoted p).trans h
  have hg : (kNoted c p).gf (pe p 0x50) 8 3 = c.gf (pe p 0x50) 8 3 :=
    gf_congr ((rd_kNoted (by simp only [pe]; omega)).trans (rd_kAccept (by simp only [pe]; omega))) _ _
  have hrun : ¬((kNoted c p).port p).kRun < max 3 ((kNoted c p).gf (pe p 0x50) 8 3) := by
    rw [hg, port_congr ports_kNoted]
    exact Nat.not_lt.mpr hr
  unfold Core.k1k2Accept
  dsimp only [kNoted] at hk hrun ⊢
  rw [hk]
  exact if_neg hrun

end Msps

/-- Settles O42: PSBF and CH_MM by their counts, the choice of a pair by `govern_next` and `govern_tx1`, and an accepted pair by
what it gives the Sluice. -/
theorem mspPairsReportProtocolFailures : Obligations.MspPairsReportProtocolFailures := by
  unfold Obligations.MspPairsReportProtocolFailures
  intro c
  have hps (k : MspNo) (s) : exec (.psbf k) s = s.on (·.psbf k.val) := rfl
  have hch (k : MspNo) (s) : exec (.chMm k) s = s.on (·.chMm k.val) := rfl
  refine ⟨fun k hv => ⟨fun h hn => ?_, fun h hn => ?_, fun h hn => ?_, fun h hn => ?_, fun h hn => ?_, fun h hn => ?_⟩,
    fun x hb hc hm => ⟨fun hp => ?_, fun hp hl => ⟨?_, ?_⟩, fun hp hl => ⟨?_, fun h4 => ?_⟩⟩, fun p k h hr => ?_⟩
  · exact goes_of_on (hps k) (psbf_of_late hv h hn)
  · exact goes_of_on (hps k) (psbf_of_heard hv h hn)
  · exact goes_of_on (hps k) (psbf_of_early h hn)
  · exact goes_of_on (hch k) (chMm_of_late hv h hn)
  · exact goes_of_on (hch k) (chMm_of_agreed hv h hn)
  · exact goes_of_on (hch k) (chMm_of_early h hn)
  · rw [govern_next hb hc hm, if_neg (by simp [hp])]
  · rw [govern_next hb hc hm, if_pos ⟨hp, hl⟩]
  · rw [govern_tx1 hb hp hc hm, if_pos (.inl hl)]
  · rw [govern_next hb hc hm, if_neg (by omega)]
  · rw [govern_tx1 hb hp hc hm, if_neg (by omega)]
  · have hk : k < 48 := List.mem_range.mp (List.mem_of_find?_eq_some h)
    refine reaches_of_on (f := (·.k1k2Accept p.val)) (fun _ => rfl) ?_
    rw [k1k2Accept_of_paired h hr, msp_pairHears]
    refine ⟨gf_congr ?_ _ _, rfl, toNat_heardK1, toNat_heardK2 (Nat.mod_lt _ (by decide))⟩
    exact (rd_pairHears hk (by simp only [slu, pe]; omega) (by simp only [pe]; omega)).trans (rd_kNoted (by simp only [pe]; omega))

/-! ## The end of a PM second (R164) -/

section PmSecond

variable {c d : Core} {k p q sec : Nat} {m : Word}

/-- What refreshing the reported defects leaves: the frame, and of each port the PM counts of the running second and of the one under
harvest. -/
def pmView (c : Core) : Nat × (Nat → PmAcc × PmAcc) := (c.frame, fun q => ((c.port q).pm, (c.port q).pmHeld))

theorem keeps_of_pmView (h : pmView d = pmView c) :
    d.frame = c.frame ∧ (d.port q).pm = (c.port q).pm ∧ (d.port q).pmHeld = (c.port q).pmHeld :=
  ⟨congrArg Prod.fst h, congrArg (fun v => (v.2 q).1) h, congrArg (fun v => (v.2 q).2) h⟩

theorem pmView_setPort {x : Prt} (h : (x.pm, x.pmHeld) = ((c.port p).pm, (c.port p).pmHeld)) : pmView (c.setPort p x) = pmView c := by
  refine Prod.ext rfl (funext fun q => ?_)
  simp only [pmView, Core.port_setPort]
  split
  · next hq => rw [hq, h]
  · rfl

theorem pmView_wr {a : Nat} : pmView (c.wr a m) = pmView c := rfl
theorem pmView_ev {a : Nat} : pmView (c.ev a m) = pmView c := rfl
theorem pmView_twr : pmView (c.twr k m) = pmView c := rfl
theorem pmView_tsf {lo n v : Nat} : pmView (c.tsf k lo n v) = pmView c := rfl
theorem pmView_setObj {x : Obj} : pmView (c.setObj k x) = pmView c := rfl
theorem pmView_updObj {f : Obj → Obj} : pmView (c.updObj k f) = pmView c := rfl
theorem pmView_report : pmView (c.report k) = pmView c := by
  rw [report_frame]
  rfl

theorem pmView_updPort {f : Prt → Prt} (h : ∀ x, ((f x).pm, (f x).pmHeld) = (x.pm, x.pmHeld)) : pmView (c.updPort p f) = pmView c :=
  pmView_setPort (h _)

theorem pmView_peEv : pmView (c.peEv p m) = pmView c := pmView_updPort fun _ => rfl

theorem pmView_tev : pmView (c.tev k m) = pmView c := by
  simp only [Core.tev, apply_ite pmView, pmView_twr, pmView_ev, ite_self]

theorem pmView_defChg {ch : Nat} {rfi lom : Bool} : pmView (c.defChg k ch rfi lom) = pmView c := by
  simp only [Core.defChg, apply_ite pmView, pmView_tev, ite_self]

theorem pmView_refreshObj : pmView (c.refreshObj k) = pmView c := by
  simp only [Core.refreshObj, apply_ite pmView, pmView_updObj, pmView_ev, pmView_defChg, pmView_tsf, pmView_twr, pmView_setObj, ite_self]

theorem pmView_refresh : pmView (c.refresh p) = pmView c := by
  unfold Core.refresh
  dsimp only
  refine forL_induct (pmView · = pmView c) (fun k d h => pmView_refreshObj.trans h) _
    (forL_induct (pmView · = pmView c) (fun k d h => pmView_refreshObj.trans h) _ ?_)
  refine (pmView_updPort ?_).trans ?_
  · exact fun _ => rfl
  rw [apply_ite pmView, pmView_peEv, pmView_wr, ite_self]
  exact pmView_setPort rfl

/-- A port at the end of a second, judged as `r` says: the second's counts wait for the harvest. -/
def portJudged (r : Judge × Option Bool) (x : Prt) : Prt :=
  { x with
    judge := r.1, pmHeld := x.pmDone, pmDone := {}
    present := match r.2 with | some on => markDefect x.present .msDeg on | none => x.present }

/-- An object at the end of a second, judged as `r` says of its DEG. -/
def objJudged (deg : Defect) (r : Judge × Option Bool) (x : Obj) : Obj :=
  { x with
    judge := r.1, pmHeld := x.pmDone, pmDone := {}
    present := match r.2 with | some on => markDefect x.present deg on | none => x.present }

def portSecond (p : Nat) (c : Core) : Core :=
  c.setPort p (portJudged (judgeDeg (c.rd (pe p 0x6C)) (rateN (c.rate p)) (c.port p).judge) (c.port p))

def objSecond (k : Nat) (c : Core) : Core :=
  c.setObj k (objJudged (if isPath (k / 4) then .hpDeg else .lpDeg) (judgeDeg (c.trc (trib (k / 4) 2)) 1 (c.obj k).judge) (c.obj k))

/-- The rate thresholds of the Reservoir compared with the counts of the second that ended (R270). -/
def ratesCompared (c : Core) : Core :=
  let ce := c.gf (rsv 0x48) 0 16
  let late := c.gf (rsv 0x48) 16 16
  let c := if ce ≠ 0 ∧ ce ≤ c.ceDone then (c.ev (rsv 0x408) (bit 3)).report 103 else c
  if late ≠ 0 ∧ late ≤ c.lateDone then (c.ev (rsv 0x408) (bit 4)).report 104 else c

/-- Every port and object at the end of a second, and what is then reported. -/
def secondJudged (c : Core) : Core :=
  let d := forN 96 portSecond c
  ratesCompared (forN 96 (fun p c => c.refresh p) (forL (d.objs.map (·.1)) objSecond d))

theorem pmSecondEnd_of_due (h : c.secondDue = some sec) :
    c.pmSecondEnd = { secondJudged c with pmSec := sec + 1, harvest := some sec, ceDone := 0, lateDone := 0 } := by
  rw [Core.pmSecondEnd, h]
  rfl

theorem pmSecondEnd_of_not (h : c.secondDue = none) : c.pmSecondEnd = c := by rw [Core.pmSecondEnd, h]

theorem pmView_ratesCompared : pmView (ratesCompared c) = pmView c := by
  simp only [ratesCompared, apply_ite pmView, pmView_report, pmView_ev, ite_self]

theorem pmView_secondJudged : pmView (secondJudged c) = pmView (forN 96 portSecond c) := by
  refine pmView_ratesCompared.trans ?_
  exact forN_induct (pmView · = pmView (forN 96 portSecond c)) (fun p d _ h => pmView_refresh.trans h)
    (forL_induct (pmView · = pmView (forN 96 portSecond c)) (fun k d h => pmView_setObj.trans h) _ rfl)

theorem port_portSecond_ne (h : q ≠ p) : (portSecond p c).port q = c.port q := (Core.port_setPort ..).trans (if_neg h)

theorem port_portSecond : ((portSecond p c).port p).pm = (c.port p).pm ∧ ((portSecond p c).port p).pmHeld = (c.port p).pmDone := by
  rw [portSecond, Core.port_setPort, if_pos rfl]
  exact ⟨rfl, rfl⟩

/-- After `n` ports, the counts that the second left behind are held for each of them, and the other ports are as they were. -/
theorem port_portsSecond (n : Nat) : (q < n → ((forN n portSecond c).port q).pm = (c.port q).pm ∧
    ((forN n portSecond c).port q).pmHeld = (c.port q).pmDone) ∧ (n ≤ q → (forN n portSecond c).port q = c.port q) := by
  induction n with
  | zero => exact ⟨fun h => absurd h (Nat.not_lt_zero q), fun _ => rfl⟩
  | succ n ih =>
    obtain ⟨hlt, hge⟩ := ih
    rw [forN_succ]
    by_cases hq : q = n
    · subst hq
      exact ⟨fun _ => hge (Nat.le_refl q) ▸ port_portSecond, fun h => by omega⟩
    · rw [port_portSecond_ne hq]
      exact ⟨fun h => hlt (by omega), fun h => hge (by omega)⟩

theorem frame_portsSecond {n : Nat} : (forN n portSecond c).frame = c.frame :=
  forN_induct (f := portSecond) (fun d : Core => d.frame = c.frame) (fun _ _ _ h => h) rfl

theorem frame_secondJudged : (secondJudged c).frame = c.frame := by
  obtain ⟨hf, _⟩ := keeps_of_pmView (q := 0) (pmView_secondJudged (c := c))
  exact hf.trans frame_portsSecond

/-- The end of a second holds the counts of the second that ended, and leaves those of the running one. -/
theorem port_secondJudged (hp : p < 96) :
    ((secondJudged c).port p).pmHeld = (c.port p).pmDone ∧ ((secondJudged c).port p).pm = (c.port p).pm := by
  obtain ⟨_, hpm, hheld⟩ := keeps_of_pmView (q := p) (pmView_secondJudged (c := c))
  obtain ⟨hpm', hheld'⟩ := (port_portsSecond 96).1 hp
  exact ⟨hheld.trans hheld', hpm.trans hpm'⟩

end PmSecond

/-! ## The harvest (R166, R167, Table 5-13) -/

section Harvest

variable {c : Core} {m : List Host.Cell} {sec n w st r : Nat}

/-- A harvest that ends, and the self-refresh that its access to the stack ends. -/
def harvested (c : Core) : Core := ({ c with harvest := none } : Core).srExit

theorem harvestAll_of_none (h : c.harvest = none) : c.harvestAll m = (c, []) := by rw [Core.harvestAll, h]

theorem harvestAll_of_running (h : c.harvest = some sec) (ht : c.frame < (sec + 2) * 8000) :
    c.harvestAll m = (harvested c, c.harvestOps sec 137312 2) := by
  rw [Core.harvestAll, h]
  exact if_neg (Nat.not_le.mpr ht)

theorem harvestAll_of_overtaken (h : c.harvest = some sec) (ht : (sec + 2) * 8000 ≤ c.frame) : c.harvestAll m = (c, []) := by
  rw [Core.harvestAll, h]
  exact if_pos ht

theorem harvestLate_of_none (h : c.harvest = none) : c.harvestLate m w = (c, []) := by rw [Core.harvestLate, h]

theorem harvestLate_of_running (h : c.harvest = some sec) (ht : c.frame < (sec + 2) * 8000) : c.harvestLate m w = (c, []) := by
  rw [Core.harvestLate, h]
  exact if_neg fun ⟨hle, _⟩ => Nat.not_le.mpr ht hle

/-- The block with another count of late harvests. -/
def withLate (n : Nat) (c : Core) : Core := { c with lateCount := n }

theorem showPstate_of_same (h : c.gf (lev 0x200) 0 2 = c.pstate) : c.showPstate = c := if_pos h
theorem showPstate_of_change (h : c.gf (lev 0x200) 0 2 ≠ c.pstate) :
    c.showPstate = (c.sf (lev 0x200) 0 2 c.pstate).ev (lev 0x400) (bit 0) := if_neg h

theorem showPstate_withLate : (withLate n c).showPstate = withLate n c.showPstate := by
  by_cases h : c.gf (lev 0x200) 0 2 = c.pstate
  · rw [showPstate_of_same h]
    exact showPstate_of_same h
  · rw [showPstate_of_change h]
    exact showPstate_of_change h

theorem leaveL1_withLate : (withLate n c).leaveL1 = withLate n c.leaveL1 := by
  cases h : c.levS.inL1
  · rw [leaveL1_of_notInL1 h]
    exact leaveL1_of_notInL1 h
  · rw [leaveL1_of_inL1 h, ← showPstate_withLate]
    exact leaveL1_of_inL1 h

/-- The stack accessed: L1 left, and the idle frames toward self-refresh counted anew. -/
def stackAccessed (c : Core) : Core := { c.leaveL1 with rsvS := { c.leaveL1.rsvS with idle := 0 } }

theorem srExit_of_refreshing (h : (stackAccessed c).selfRefresh = true) :
    c.srExit = (((stackAccessed c).sb (rsv 0x200) 8 false).sb (hif 0x204) 2 false).ev (rsv 0x400) (bit 11) := if_pos h
theorem srExit_of_notRefreshing (h : (stackAccessed c).selfRefresh = false) : c.srExit = stackAccessed c := if_neg (ne_true_of_eq_false h)

theorem stackAccessed_withLate : stackAccessed (withLate n c) = withLate n (stackAccessed c) := by
  rw [stackAccessed, leaveL1_withLate]
  rfl

theorem selfRefresh_withLate : (withLate n c).selfRefresh = c.selfRefresh := rfl
theorem sb_withLate {a k : Nat} {v : Bool} : (withLate n c).sb a k v = withLate n (c.sb a k v) := rfl
theorem ev_withLate {a : Nat} {v : Word} : (withLate n c).ev a v = withLate n (c.ev a v) := rfl

/-- The count of late harvests has no part in the end of self-refresh. -/
theorem srExit_withLate : (withLate n c).srExit = withLate n c.srExit := by
  have hs : (stackAccessed (withLate n c)).selfRefresh = (stackAccessed c).selfRefresh := by
    rw [stackAccessed_withLate, selfRefresh_withLate]
  cases h : (stackAccessed c).selfRefresh
  · rw [srExit_of_notRefreshing h, srExit_of_notRefreshing (hs.trans h), stackAccessed_withLate]
  · rw [srExit_of_refreshing h, srExit_of_refreshing (hs.trans h), stackAccessed_withLate, sb_withLate, sb_withLate, ev_withLate]

/-- The writes of a harvest overtaken after `w` records: STATUS LATE, and the count of late harvests. -/
def lateOps (c : Core) (sec w n : Nat) : List MemOp :=
  c.harvestOps sec w 4 ++ if c.orReady then [.write (orBase + 0x1000000C) (le 4 n)] else []

theorem harvestLate_of_overtaken (h : c.harvest = some sec) (ht : (sec + 2) * 8000 ≤ c.frame) (hw : w < 137312) :
    let n := min (c.lateCount + 1) 0xFFFFFFFF
    c.harvestLate m w = (withLate n (harvested c), lateOps c sec w n) := by
  rw [Core.harvestLate, h]
  refine (if_pos ⟨ht, hw⟩).trans ?_
  rw [harvested, ← srExit_withLate, lateOps]
  dsimp only [withLate]

theorem harvestOps_of_notReady (h : c.orReady = false) : c.harvestOps sec n st = [] := if_pos (by simp [h])

/-- The slot of a second, and its descriptor. -/
def slotAt (sec : Nat) : Nat := orBase + 0x10001000 + sec % 64 * 0x240000
def descrAt (sec : Nat) : Nat := orBase + 0x10000100 + sec % 64 * 16

theorem harvestOps_of_ready (h : c.orReady = true) : c.harvestOps sec n st =
    ((List.range n).map fun r => .write (slotAt sec + (c.pmRecord sec r).1) (c.pmRecord sec r).2) ++
      [.write (descrAt sec) (le 8 sec ++ le 4 st ++ le 4 n), .write (orBase + 0x10000000) (le 8 sec),
        .write (orBase + 0x10000008) (le 4 1)] := by
  unfold Core.harvestOps
  dsimp only
  rw [if_neg (by simp [h])]
  rfl

theorem record_mem_harvestOps (h : c.orReady = true) (hr : r < n) :
    .write (slotAt sec + (c.pmRecord sec r).1) (c.pmRecord sec r).2 ∈ c.harvestOps sec n st := by
  rw [harvestOps_of_ready h]
  exact List.mem_append_left _ (List.mem_map.mpr ⟨r, List.mem_range.mpr hr, rfl⟩)

end Harvest

/-- Settles O24: the end of a second by whether one is due, the harvest by whether it runs and by the boundary that overtakes it. -/
theorem pmSecondsAreHarvested : Obligations.PmSecondsAreHarvested := by
  unfold Obligations.PmSecondsAreHarvested
  intro c m sec d
  have hs (s) : exec .pmSecondEnd s = s.on (·.pmSecondEnd) := rfl
  have ha (s) : exec .harvest s = s.onMem (·.harvestAll ·) := rfl
  have hl (w s) : exec (.harvestLate w) s = s.onMem (·.harvestLate · w) := rfl
  refine ⟨fun h => ?_, fun h => ?_, fun h => ⟨?_, fun w => ?_⟩, fun h ht => ⟨?_, fun w => ?_⟩, fun h ht => ⟨?_, fun w hw => ?_⟩,
    fun n st h => ?_, fun n st h => ⟨fun r hr => ?_, ?_, ?_⟩⟩
  · refine reaches_of_on hs ?_
    rw [pmSecondEnd_of_due h]
    exact ⟨rfl, rfl, rfl, rfl, frame_secondJudged, fun p hp => port_secondJudged hp⟩
  · exact goes_of_on hs (pmSecondEnd_of_not h)
  · exact goesMem_of_onMem ha (harvestAll_of_none h) (Core.rewrote_nil c)
  · exact goesMem_of_onMem (hl w) (harvestLate_of_none h) (Core.rewrote_nil c)
  · exact goesMem_of_onMem ha (harvestAll_of_running h ht) rfl
  · exact goesMem_of_onMem (hl w) (harvestLate_of_running h ht) (Core.rewrote_nil c)
  · exact goesMem_of_onMem ha (harvestAll_of_overtaken h ht) (Core.rewrote_nil c)
  · exact goesMem_of_onMem (hl w) (harvestLate_of_overtaken h ht hw) rfl
  · exact harvestOps_of_notReady h
  · exact record_mem_harvestOps h hr
  · rw [harvestOps_of_ready h]
    exact List.mem_append_right _ (.head _)
  · rw [harvestOps_of_ready h]
    exact List.mem_append_right _ (.tail _ (.head _))

/-! ## Frames received on the DCC channels (R170, R352, R353) -/

section DccReceived

variable {c : Core} {p : Nat} {ms bad : Bool} {oct body : List Byte} {rest : List (List Byte × Bool)} {f : List Byte × Bool}

/-- The source number of a channel. -/
def chan (p : Nat) (ms : Bool) : Nat := 2 * p + (if ms then 1 else 0)

/-- The block once the oldest frame has left the tap. -/
def frameTaken (c : Core) (p : Nat) (ms : Bool) (rest : List (List Byte × Bool)) : Core :=
  c.updPort p fun x => if ms then { x with dccM := { x.dccM with done := rest } } else { x with dccR := { x.dccR with done := rest } }

/-- The block that files a taken frame: a frame that waited at the tail has given way. -/
def frameFiling (c : Core) (p : Nat) (ms : Bool) (rest : List (List Byte × Bool)) : Core :=
  (frameTaken c p ms rest).dropWaiting (chan p ms)

/-- Octets that are a payload of 2 to 4,096 bytes with its FCS. -/
def IsFrame (c : Core) (p : Nat) (oct body : List Byte) : Prop := oct = body ++ c.fcs p body ∧ 2 ≤ body.length ∧ body.length ≤ 4096

/-- The octets before the place of the FCS, and whether the FCS and the length are right. -/
def frameBody (c : Core) (p : Nat) (oct : List Byte) : List Byte := oct.take (oct.length - c.fcsLen p)
def frameGood (c : Core) (p : Nat) (oct : List Byte) (bad : Bool) : Bool :=
  let body := frameBody c p oct
  !bad && decide (c.fcsLen p ≤ oct.length) && decide (2 ≤ body.length) && decide (body.length ≤ 4096) &&
    oct.drop body.length = c.fcs p body

theorem length_fcs : (c.fcs p body).length = c.fcsLen p := by
  unfold Core.fcs Core.fcsLen
  split <;> exact length_le _ _

theorem frameBody_of_isFrame (h : IsFrame c p oct body) : frameBody c p oct = body := by
  obtain ⟨rfl, _⟩ := h
  simp [frameBody, length_fcs]

theorem frameGood_of_isFrame (h : IsFrame c p oct body) : frameGood c p oct false = true := by
  have hb := frameBody_of_isFrame h
  obtain ⟨rfl, h2, h4096⟩ := h
  simp [frameGood, hb, length_fcs, h2, h4096]

theorem frameGood_of_not (h : bad = true ∨ ¬∃ body, IsFrame c p oct body) : frameGood c p oct bad = false := by
  rw [Bool.eq_false_iff]
  intro hg
  simp only [frameGood, Bool.and_eq_true, Bool.not_eq_true', decide_eq_true_eq] at hg
  obtain ⟨⟨⟨⟨hbad, hn⟩, h2⟩, h4096⟩, hfcs⟩ := hg
  refine h.elim (fun hb => Bool.noConfusion (hb.symm.trans hbad)) fun hno => hno ⟨frameBody c p oct, ?_, h2, h4096⟩
  have hl : (frameBody c p oct).length = oct.length - c.fcsLen p := by simp [frameBody]
  rw [← hfcs, hl]
  exact (List.take_append_drop _ _).symm

/-- The header of a channel's packet. -/
def frameHdr (d : Core) (p : Nat) (ms : Bool) (body : List Byte) : Word :=
  pktHdr body.length (d.gf (wq 0x40) (if ms then 11 else 8) 3) 1 p (if ms then 1 else 0)

/-- A frame that completes the packet its beginning opened. -/
def frameEnded (d : Core) (j : Nat) (k : Pkt) (hdr : Word) (body : List Byte) : Core :=
  ((d.putQueue j { d.queue j with pkts := (d.queue j).pkts.map fun i =>
    if i.id = k.id then { i with hdr := hdr, bytes := body, ended := true } else i }).growPkt j k.id body.length).commitFit j k.id

/-- A frame counted as bad in its queue. -/
def frameBad (d : Core) (q : Nat) : Core := (d.qEv q (bit 3)).cn (wq (0x540 + 4 * q)) 1

/-- A frame filed in the packet that its source has open or else in queue `q`, where it is good; a bad one counted, and the packet
it opened discarded. -/
def frameFiled (d : Core) (q src : Nat) (good : Bool) (hdr : Word) (body : List Byte) : Core :=
  match d.openOf src with
  | some (j, k) => if good then frameEnded d j k hdr body else d.discard j k.id false
  | none => if good then d.receivePkt q src hdr body false else frameBad d q

theorem dccRx_of_done (hd : (c.tap p ms).done = (oct, bad) :: rest) : c.dccRx p ms =
    if !c.en 0xC then frameTaken c p ms rest
    else if c.weirS.skip.contains (chan p ms) then
      { frameTaken c p ms rest with weirS := { c.weirS with skip := c.weirS.skip.filter (· ≠ chan p ms) } }
    else
      let d := frameFiling c p ms rest
      let body := frameBody c p oct
      frameFiled d (c.dccQ p ms) (chan p ms) (frameGood c p oct bad) (frameHdr d p ms body) body := by
  rw [Core.dccRx, hd]
  rfl

theorem dccRx_of_off (hd : (c.tap p ms).done = (oct, bad) :: rest) (he : c.en 0xC = false) : c.dccRx p ms = frameTaken c p ms rest :=
  (dccRx_of_done hd).trans (if_pos (by simp [he]))

theorem dccRx_of_skip (hd : (c.tap p ms).done = (oct, bad) :: rest) (he : c.en 0xC = true) (hs : chan p ms ∈ c.weirS.skip) :
    c.dccRx p ms = { frameTaken c p ms rest with weirS := { c.weirS with skip := c.weirS.skip.filter (· ≠ chan p ms) } } :=
  (dccRx_of_done hd).trans ((if_neg (by simp [he])).trans (if_pos (by simp [hs])))

theorem dccRx_of_filed (hd : (c.tap p ms).done = (oct, bad) :: rest) (he : c.en 0xC = true) (hs : chan p ms ∉ c.weirS.skip) :
    c.dccRx p ms =
      let d := frameFiling c p ms rest
      let body := frameBody c p oct
      frameFiled d (c.dccQ p ms) (chan p ms) (frameGood c p oct bad) (frameHdr d p ms body) body :=
  (dccRx_of_done hd).trans ((if_neg (by simp [he])).trans (if_neg (by simp [hs])))

/-- A good frame filed under its payload, a bad one as it is counted. -/
theorem dccRx_of_good (hd : (c.tap p ms).done = (oct, false) :: rest) (he : c.en 0xC = true) (hs : chan p ms ∉ c.weirS.skip)
    (hf : IsFrame c p oct body) :
    let d := frameFiling c p ms rest
    c.dccRx p ms = frameFiled d (c.dccQ p ms) (chan p ms) true (frameHdr d p ms body) body := by
  rw [dccRx_of_filed hd he hs, frameGood_of_isFrame hf, frameBody_of_isFrame hf]

theorem dccRx_of_bad (hd : (c.tap p ms).done = (oct, bad) :: rest) (he : c.en 0xC = true) (hs : chan p ms ∉ c.weirS.skip)
    (hf : bad = true ∨ ¬∃ body, IsFrame c p oct body) :
    let d := frameFiling c p ms rest
    let body := frameBody c p oct
    c.dccRx p ms = frameFiled d (c.dccQ p ms) (chan p ms) false (frameHdr d p ms body) body := by
  rw [dccRx_of_filed hd he hs, frameGood_of_not hf]

section Filed

variable {d : Core} {q src j : Nat} {k : Pkt} {hdr : Word}

theorem frameFiled_new_good (ho : d.openOf src = none) : frameFiled d q src true hdr body = d.receivePkt q src hdr body false := by
  rw [frameFiled, ho]
  exact if_pos rfl

theorem frameFiled_new_bad (ho : d.openOf src = none) : frameFiled d q src false hdr body = frameBad d q := by
  rw [frameFiled, ho]
  exact if_neg Bool.false_ne_true

theorem frameFiled_open_good (ho : d.openOf src = some (j, k)) : frameFiled d q src true hdr body = frameEnded d j k hdr body := by
  rw [frameFiled, ho]
  exact if_pos rfl

theorem frameFiled_open_bad (ho : d.openOf src = some (j, k)) : frameFiled d q src false hdr body = d.discard j k.id false := by
  rw [frameFiled, ho]
  exact if_neg Bool.false_ne_true

end Filed

end DccReceived

/-! ## Packets sent on the DCC channels (R171, R359) -/

section DccSent

variable {c : Core} {p q a j : Nat} {ms : Bool} {x : Queue} {k : Pkt}

/-- What every register write of the queue page keeps, showing the selected queue keeps. -/
theorem showHead_induct {P : Core → Prop} (hw : ∀ d o v, o < 0x1000 → P d → P (d.wr (wq o) v)) (h : P c) : P c.showHead :=
  hw _ _ _ (by decide) (hw _ _ _ (by decide) (hw _ _ _ (by decide) (hw _ _ _ (by decide) h)))

/-- The new contents of a queue: the tail has passed what is free, and the crossings of the watermarks are noted (R351, R363). -/
def tidied (c : Core) (q : Nat) (x : Queue) : Queue :=
  let a := c.gf (wq (0x240 + 4 * q)) 0 17
  let bs := x.blocks.dropWhile (·.isNone)
  let w := c.rd (wq (0xC0 + 4 * q))
  { x with
    blocks := bs
    hiDue := x.hiDue || (decide (fld w 0 16 ≠ 0) && decide (a < fld w 0 16) && decide (fld w 0 16 ≤ bs.length))
    loDue := x.loDue || (decide (fld w 16 16 < a) && decide (bs.length ≤ fld w 16 16)) }

/-- A queue given new contents, which the queue page then shows. -/
theorem setQueue_induct {P : Core → Prop} (hq : q < 16) (hw : ∀ d o v, o < 0x1000 → P d → P (d.wr (wq o) v))
    (h : P (c.putQueue q (tidied c q x))) : P (c.setQueue q x) :=
  showHead_induct hw (hw _ _ _ (by omega) (hw _ _ _ (by omega) (hw _ _ _ (by omega) h)))

theorem rd_setQueue (hq : q < 16) (ha : wq 0x1000 ≤ a) : (c.setQueue q x).rd a = c.rd a :=
  setQueue_induct (P := fun d => d.rd a = c.rd a) hq (fun d o v ho h => (rd_wr_ne v (by simp only [wq] at ha ⊢; omega)).trans h) rfl

theorem ports_setQueue (hq : q < 16) : (c.setQueue q x).ports = c.ports :=
  setQueue_induct (P := fun d => d.ports = c.ports) hq (fun d o v _ h => (Core.wr_ports d (wq o) v).trans h) (Core.putQueue_ports ..)

theorem weirS_setQueue (hq : q < 16) : (c.setQueue q x).weirS = (c.putQueue q (tidied c q x)).weirS :=
  setQueue_induct (P := fun d => d.weirS = (c.putQueue q (tidied c q x)).weirS) hq
    (fun d o v _ h => (Core.wr_weirS d (wq o) v).trans h) rfl

theorem queue_congr {d : Core} (h : c.weirS = d.weirS) : c.queue j = d.queue j := by rw [Core.queue, h, Core.queue]

theorem queue_setQueue (hq : q < 16) : (c.setQueue q x).queue j = if j = q then tidied c q x else c.queue j :=
  (queue_congr (weirS_setQueue hq)).trans (Core.queue_putQueue ..)

theorem ports_qEv {m : Word} : (c.qEv q m).ports = c.ports := by
  unfold Core.qEv
  dsimp only
  split <;> rfl

theorem queue_qEv {m : Word} : (c.qEv q m).queue j = c.queue j := by
  unfold Core.qEv
  dsimp only
  split <;> rfl

theorem rd_qEv {m : Word} (hq : q < 16) (ha : wq 0x1000 ≤ a) : (c.qEv q m).rd a = c.rd a := by
  simp only [wq] at ha
  unfold Core.qEv
  dsimp only
  split
  · exact rd_ev_ne _ (by simp only [wq]; omega)
  · exact (rd_ev_ne _ (by simp only [wq]; omega)).trans (rd_ev_ne _ (by simp only [wq]; omega))

/-- A queue without a packet. -/
def queueWithout (x : Queue) (k : Pkt) : Queue :=
  { x with
    pkts := x.pkts.filter (·.id ≠ k.id), claim := if x.claim = some k.id then none else x.claim
    blocks := x.blocks.map fun b => if b = some k.id then none else b }

/-- A packet popped from the transmit queue, with the event of a queue that has become empty. -/
def pktPopped (c : Core) (k : Pkt) : Core :=
  let d := c.setQueue c.txq (queueWithout (c.queue c.txq) k)
  if (d.queue c.txq).pkts.any (·.done) then d else d.qEv c.txq (bit 5)

theorem txq_lt : c.txq < 16 := Nat.mod_lt _ (by decide)

theorem rd_pktPopped (ha : wq 0x1000 ≤ a) : (pktPopped c k).rd a = c.rd a := by
  unfold pktPopped
  dsimp only
  split
  · exact rd_setQueue txq_lt ha
  · exact (rd_qEv txq_lt ha).trans (rd_setQueue txq_lt ha)

theorem ports_pktPopped : (pktPopped c k).ports = c.ports := by
  unfold pktPopped
  dsimp only
  split
  · exact ports_setQueue txq_lt
  · exact ports_qEv.trans (ports_setQueue txq_lt)

theorem queue_pktPopped : (pktPopped c k).queue j =
    if j = c.txq then tidied c c.txq (queueWithout (c.queue c.txq) k) else c.queue j := by
  unfold pktPopped
  dsimp only
  split
  · exact queue_setQueue txq_lt
  · exact queue_qEv.trans (queue_setQueue txq_lt)

theorem fcs_congr {d : Core} (h : c.rd (pe p 0x50) = d.rd (pe p 0x50)) (bs : List Byte) : c.fcs p bs = d.fcs p bs := by
  rw [Core.fcs, gb_congr h, Core.fcs]

theorem chanBits_congr {d : Core} (h : c.ports = d.ports) : c.chanBits p ms = d.chanBits p ms := by
  rw [Core.chanBits, port_congr h, Core.chanBits]

theorem chanBits_setChan {l : List Bool} : (c.setChan p ms l).chanBits p ms = l := by
  unfold Core.chanBits Core.setChan
  rw [Core.port_updPort, if_pos rfl]
  cases ms <;> rfl

/-- A channel that starts to send a frame. -/
def frameSent (c : Core) (p : Nat) (ms : Bool) (f : List Byte) : Core :=
  (c.setSending (chan p ms) f).setChan p ms (c.chanBits p ms ++ hdlcFlag ++ hdlcBits f)

theorem queue_frameSent {f : List Byte} : (frameSent c p ms f).queue j = c.queue j := rfl

theorem sending_frameSent {f : List Byte} : Sparse.get (fun _ => []) (frameSent c p ms f).weirS.sending (chan p ms) = f :=
  (Sparse.get_put ..).trans (if_pos rfl)

theorem chanBits_frameSent {f : List Byte} : (frameSent c p ms f).chanBits p ms = c.chanBits p ms ++ hdlcFlag ++ hdlcBits f :=
  chanBits_setChan

/-- The best packet addressed to a channel taken and sent, where there is one. -/
def bestSent (c : Core) (p : Nat) (ms : Bool) : Core :=
  match bestPkt ((c.queue c.txq).pkts.filter (toChan · p ms)) with
  | none => c
  | some k => frameSent (pktPopped c k) p ms (k.bytes ++ (pktPopped c k).fcs p k.bytes)

theorem dccTx_eq : c.dccTx p ms = if Sparse.get (fun _ => []) c.weirS.sending (chan p ms) ≠ [] then c
    else if !c.dccOn p ms || !c.en 0xC then c else bestSent c p ms := rfl

theorem dccTx_of_not (h : Sparse.get (fun _ => []) c.weirS.sending (chan p ms) ≠ [] ∨ c.dccOn p ms = false ∨ c.en 0xC = false) :
    c.dccTx p ms = c := by
  rw [dccTx_eq]
  split
  · rfl
  · next hs => exact if_pos (by simpa [hs] using h)

theorem dccTx_of_none (h : bestPkt ((c.queue c.txq).pkts.filter (toChan · p ms)) = none) : c.dccTx p ms = c := by
  have hb : bestSent c p ms = c := by rw [bestSent, h]
  rw [dccTx_eq, hb, ite_self, ite_self]

theorem dccTx_of_best (hs : Sparse.get (fun _ => []) c.weirS.sending (chan p ms) = []) (ho : c.dccOn p ms = true) (he : c.en 0xC = true)
    (h : bestPkt ((c.queue c.txq).pkts.filter (toChan · p ms)) = some k) :
    c.dccTx p ms = frameSent (pktPopped c k) p ms (k.bytes ++ c.fcs p k.bytes) := by
  have hf : (pktPopped c k).fcs p k.bytes = c.fcs p k.bytes := fcs_congr (rd_pktPopped (by simp only [wq, pe]; omega)) _
  rw [dccTx_eq, if_neg (not_not.mpr hs), if_neg (by simp [ho, he]), bestSent, h, ← hf]

end DccSent

/-- Settles O25: a received frame by what stands in its way and by `IsFrame`, a sent one by the packet popped for it. -/
theorem dccFramesCross : Obligations.DccFramesCross := by
  unfold Obligations.DccFramesCross
  intro c p ms src taken good
  have hi (f s) : exec (.dccRxFrame p ms f) s = s.onSeen (fun c => decide ((c.tap p.val ms).done.head? = some f)) (·.dccRx p.val ms) := rfl
  have ht (s) : exec (.dccTxFrame p ms) s = s.on (·.dccTx p.val ms) := rfl
  refine ⟨fun f h => goes_of_unseen (hi f) (decide_eq_false h), fun oct bad rest hd => ?_, fun h => goes_of_on ht (dccTx_of_not h),
    fun h => goes_of_on ht (dccTx_of_none h), fun hs ho he k h => ?_⟩
  · have named {f d} (hf : (c.tap p.val ms).done = f :: rest) (h : c.dccRx p.val ms = d) : Goes (.dccRxFrame p ms f) c d :=
      goes_of_seen (hi f) (decide_eq_true (by rw [hf]; rfl)) h
    refine ⟨fun he => named hd (dccRx_of_off hd he), fun he hs => named hd (dccRx_of_skip hd he hs),
      fun he hs => ⟨fun ho => ⟨?_, ?_⟩, fun j k ho => ⟨?_, ?_⟩⟩⟩
    · rintro body rfl hf
      exact named hd ((dccRx_of_good hd he hs hf).trans (frameFiled_new_good ho))
    · intro hb
      exact named hd ((dccRx_of_bad hd he hs hb).trans (frameFiled_new_bad ho))
    · rintro body rfl hf
      exact named hd ((dccRx_of_good hd he hs hf).trans (frameFiled_open_good ho))
    · intro hb
      exact named hd ((dccRx_of_bad hd he hs hb).trans (frameFiled_open_bad ho))
  · refine reaches_of_on ht ?_
    rw [dccTx_of_best hs ho he h]
    refine ⟨sending_frameSent, ?_, ?_, fun j hj => queue_frameSent.trans (queue_pktPopped.trans (if_neg hj))⟩
    · rw [chanBits_frameSent, chanBits_congr ports_pktPopped]
    · rw [queue_frameSent, queue_pktPopped, if_pos rfl]
      rfl

end Sys2Proof.Proofs

/-! The obligations of mapping and pointers (chapter 6): the classes of received pointer words, the interpreter's states, and pointer
generation on a Path. -/

namespace Sys2Proof.Proofs

open Sys2Proof Sys2Proof.Machine Sys2Proof.Safety

/-! ## Classes of received pointer words (R189, Table 6-7) -/

section PointerClasses

variable {max q v ss : Nat} {ndf near : Bool} {cur : Option Nat}

theorem ptrMax_lt (t : Nat) : ptrMax t < 1024 := by
  unfold ptrMax
  split <;> decide

/-- The number that a pointer word holds: NDF bits, SS bits and value. -/
theorem toNat_ptrWord (hs : ss < 4) (hv : v < 1024) : (ptrWord ndf ss v).toNat = (if ndf then 9 else 6) * 4096 + ss * 1024 + v := by
  rw [ptrWord, BitVec.toNat_ofNat]
  exact Nat.mod_eq_of_lt (by split <;> omega)

theorem value_ptrWord (hs : ss < 4) (hv : v < 1024) : ((ptrWord ndf ss v).extractLsb' 0 10).toNat = v := by
  rw [BitVec.extractLsb'_toNat, toNat_ptrWord hs hv, Nat.shiftRight_zero]
  split <;> omega

theorem ndf_ptrWord (hs : ss < 4) (hv : v < 1024) : ((ptrWord ndf ss v).extractLsb' 12 4).toNat = if ndf then 9 else 6 := by
  rw [BitVec.extractLsb'_toNat, toNat_ptrWord hs hv, Nat.shiftRight_eq_div_pow]
  split <;> omega

/-- A pointer word with NDF enabled or disabled is not the all-ones word. -/
theorem ptrWord_ne_ones (hs : ss < 4) (hv : v < 1024) : ptrWord ndf ss v ≠ 65535#16 := by
  intro h
  have hn := ndf_ptrWord (ndf := ndf) hs hv
  rw [h] at hn
  cases ndf <;> exact absurd hn (by decide)

/-- The I bits in which a received value differs from the current one, and the D bits. -/
def diffI (v q : Nat) : Nat := ones 10 ((v ^^^ q) &&& 0x2AA)
def diffD (v q : Nat) : Nat := ones 10 ((v ^^^ q) &&& 0x155)

theorem ptrClass_enabled (hs : ss < 4) (hv : v < 1024) (h : v ≤ max) : ptrClass max false cur near false (ptrWord true ss v) = .ndfEn := by
  have hen : ones 4 0 = 0 := by decide
  simp [ptrClass, ptrWord_ne_ones hs hv, value_ptrWord hs hv, ndf_ptrWord hs hv, h, hen]

/-- With NDF disabled the class rests on the bits that differ from the current value. -/
theorem ptrClass_disabled (hs : ss < 4) (hv : v < 1024) : ptrClass max false (some q) near false (ptrWord false ss v) =
    if 3 ≤ diffI v q ∧ diffD v q ≤ 2 then (if near then .inv else .inc)
    else if 3 ≤ diffD v q ∧ diffI v q ≤ 2 then (if near then .inv else .dec)
    else if v = q then .norm else if v ≤ max then .new else .inv := by
  unfold diffI diffD
  have hen : ones 4 15 = 4 := by decide
  have hoff : ones 4 0 = 0 := by decide
  simp [ptrClass, ptrWord_ne_ones hs hv, value_ptrWord hs hv, ndf_ptrWord hs hv, hen, hoff]

theorem ptrClass_same (hs : ss < 4) (hq : q < 1024) : ptrClass max false (some q) near false (ptrWord false ss q) = .norm := by
  have hi : diffI q q = 0 := by rw [diffI, Nat.xor_self]; decide
  have hd : diffD q q = 0 := by rw [diffD, Nat.xor_self]; decide
  rw [ptrClass_disabled hs hq, if_neg (by omega), if_neg (by omega), if_pos rfl]

theorem ptrClass_iBits (hs : ss < 4) (hq : q < 1024) :
    ptrClass max false (some q) near false (ptrWord false ss (q ^^^ 0x2AA)) = if near then .inv else .inc := by
  have hi : diffI (q ^^^ 0x2AA) q = 5 := by rw [diffI, xor_xor_cancel_comm]; decide
  have hd : diffD (q ^^^ 0x2AA) q = 0 := by rw [diffD, xor_xor_cancel_comm]; decide
  rw [ptrClass_disabled hs (Nat.xor_lt_two_pow (n := 10) hq (by decide)), if_pos (by omega)]

theorem ptrClass_dBits (hs : ss < 4) (hq : q < 1024) :
    ptrClass max false (some q) near false (ptrWord false ss (q ^^^ 0x155)) = if near then .inv else .dec := by
  have hi : diffI (q ^^^ 0x155) q = 0 := by rw [diffI, xor_xor_cancel_comm]; decide
  have hd : diffD (q ^^^ 0x155) q = 5 := by rw [diffD, xor_xor_cancel_comm]; decide
  rw [ptrClass_disabled hs (Nat.xor_lt_two_pow (n := 10) hq (by decide)), if_neg (by omega), if_pos (by omega)]

theorem ptrClass_other (hs : ss < 4) (hv : v < 1024) (hm : v ≤ max) (h : v ≠ q) (hi : diffI v q ≤ 2) (hd : diffD v q ≤ 2) :
    ptrClass max false (some q) near false (ptrWord false ss v) = .new := by
  rw [ptrClass_disabled hs hv, if_neg (by omega), if_neg (by omega), if_neg h, if_pos hm]

end PointerClasses

/-- Settles O26, row by row of Table 6-7. The words are those of `ptrWord` with SS bits 2. -/
theorem pointerWordsClassify : Obligations.PointerWordsClassify := by
  unfold Obligations.PointerWordsClassify
  intro t cur v _ hcur hv word cls
  have hq : cur < 1024 := hcur.trans_lt (ptrMax_lt t)
  have hr : v < 1024 := hv.trans_lt (ptrMax_lt t)
  have hs : 2 < 4 := by decide
  exact ⟨rfl, ptrClass_same hs hq, ptrClass_iBits hs hq, ptrClass_dBits hs hq, ptrClass_iBits hs hq, ptrClass_dBits hs hq,
    ptrClass_enabled hs hr hv, ptrClass_other hs hr hv⟩

/-! ## Pointer words received (R81, R189, R190, R299) -/

section PointersReceived

variable {c : Core} {o : ObjRef} {w : BitVec 16} {x : Obj} {cl : PtrClass} {q v aisN lopN : Nat}

theorem pointerReceive_of_idle (h : c.interprets o.key = false) : c.pointerReceive o w = c := if_pos (by simp [h])

/-- Blocks that differ in the interpreter kept for one object of a port that is not selected, at most. -/
def SpareOnly (k : Nat) (c d : Core) : Prop :=
  d = { c with spare := d.spare } ∧ ∀ j, j ≠ k → Sparse.get (fun _ => ({} : Obj)) d.spare j = Sparse.get (fun _ => {}) c.spare j

theorem spareOnly_self {k : Nat} : SpareOnly k c c := ⟨rfl, fun _ _ => rfl⟩

theorem spareOnly_put {k : Nat} : SpareOnly k c { c with spare := Sparse.put (fun _ => {}) c.spare k x } :=
  ⟨rfl, fun _ hj => (Sparse.get_put ..).trans (if_neg hj)⟩

theorem spareOnly_pointerOther : SpareOnly o.key c (c.pointerOther o w) :=
  iteInduction (fun _ => spareOnly_self) (fun _ => spareOnly_put)

theorem spareOnly_pointerHeard : SpareOnly o.key c (c.pointerHeard o true w) :=
  iteInduction (fun _ => spareOnly_pointerOther) (fun _ => spareOnly_self)

theorem pointerHeard_unpaired
    (h : ((List.range 48).all fun j => !mspV (c.msp j).eff || mspW (c.msp j).eff != c.portOf o.idx.val) = true) :
    c.pointerHeard o true w = c := by
  have hn : ((List.range 48).any fun j => mspV (c.msp j).eff && mspW (c.msp j).eff = c.portOf o.idx.val) = false := by
    rw [List.all_eq_true] at h
    refine List.any_eq_false.mpr fun j hj => ?_
    have hj := h j hj
    simp only [Bool.or_eq_true, Bool.not_eq_true', bne_iff_ne] at hj
    rcases hj with hv | hw
    · simp [hv]
    · simp [hw]
  exact if_neg (by simp [hn])

theorem le_clamp {lo hi n : Nat} (h : lo ≤ hi) : lo ≤ clamp lo hi n := by
  unfold clamp
  split
  · exact le_rfl
  · split <;> omega

/-- In NORM a class that is no AIS indication, not invalid and no NDF leaves each count that calls for a state at 0. -/
theorem next_count_of_norm (h : x.itp = .norm) (hcl : cl = .norm ∨ cl = .inc ∨ cl = .dec) (ha : 0 < aisN) (hl : 0 < lopN) :
    (x.count cl v).next false aisN lopN cl = none := by
  have ha' := ha.ne'
  have hl' := hl.ne'
  rcases hcl with rfl | rfl | rfl <;> simp [Obj.next, Obj.count, h, ha', hl']

/-- An object with a class counted, and no state called for. -/
def ptrSeen (c : Core) (k v : Nat) (cl : PtrClass) : Core := c.setObj k { (c.obj k).count cl v with goto := none }

/-- An accepted value, shown in W5 (R189, R190). -/
def ptrAccepted (c : Core) (k n : Nat) : Core :=
  (c.updObj k fun y => { y with cur := some n, since := 0, nNew := 0 }).showPtr k n

/-- What a class that calls for no state makes of the current value `q`, round the range up to `mx`. -/
def ptrFollowed (d : Core) (k mx q : Nat) : PtrClass → Core
  | .inc => (ptrAccepted d k (if mx ≤ q then 0 else q + 1)).pje k true
  | .dec => (ptrAccepted d k (if q = 0 then mx else q - 1)).pje k false
  | _ => d

theorem pointerReceive_of_norm (hi : c.interprets o.key = true) (hn : (c.obj o.key).itp = .norm) (hq : (c.obj o.key).cur = some q)
    (hb : c.gb (pe (c.portOf o.idx.val) 0x58) 7 = false) (hc : ¬(isPath o.idx.val = true ∧ c.ttype o.idx.val = 6))
    (hcl : ptrClass (ptrMax (c.ttype o.idx.val)) false (some q) (decide ((c.obj o.key).since < 3)) false (c.wordIn o.key w) = cl)
    (hk : cl = .norm ∨ cl = .inc ∨ cl = .dec) :
    c.pointerReceive o w =
      ptrFollowed (ptrSeen c o.key ((c.wordIn o.key w).extractLsb' 0 10).toNat cl) o.key (ptrMax (c.ttype o.idx.val)) q cl := by
  have hcont : (isPath o.idx.val && decide (c.ttype o.idx.val = 6)) = false := by simpa using hc
  have hbit : bitOf (c.rd (pe (c.portOf o.idx.val) 0x58)) 7 = false := hb
  have hnext (a l : Nat) := next_count_of_norm (v := ((c.wordIn o.key w).extractLsb' 0 10).toNat) hn hk
    (Nat.lt_of_lt_of_le (by decide) (le_clamp (lo := 3) (hi := 5) (n := a) (by decide)))
    (Nat.lt_of_lt_of_le (by decide) (le_clamp (lo := 8) (hi := 10) (n := l) (by decide)))
  simp only [Core.pointerReceive, hi, hn, hq, hcont, hbit, hcl, hnext, Bool.not_true, Bool.false_eq_true, if_false, if_true, Bool.false_and,
    and_self, Option.getD_some]
  rcases hk with rfl | rfl | rfl <;> rfl

end PointersReceived

/-! ## A state that the counts have reached (Table 6-8) -/

section PointerStates

variable {c d e : Core} {o : ObjRef} {k : Nat} {st : PtrSt}

theorem trib_mod (i w : Nat) : trib i w % 16 = w % 16 := by
  simp only [trib, tkey]
  omega

theorem statKey_mod : c.statKey k % 16 = 3 ∨ c.statKey k % 16 = 4 ∨ c.statKey k % 16 = 5 := by
  rw [Core.statKey, apply_ite (· % 16), trib_mod, trib_mod]
  split <;> omega

/-- The word that shows an object's status follows from its entry's TYPE, which stands in the entry's first word. -/
theorem statKey_congr (hc : d.cfOld = e.cfOld) (h : ∀ j, j % 16 = 0 → d.trd j = e.trd j) (j : Nat) : d.statKey j = e.statKey j := by
  have ht : d.ttype (j / 4) = e.ttype (j / 4) := by
    rw [Core.ttype, Core.trc, hc, h _ (trib_mod _ 0), Core.ttype, Core.trc]
  rw [Core.statKey, ht, Core.statKey]

/-- Event bits of a TRIB entry raise no group summary. -/
theorem tev_tribEvents {i : Nat} {m : Word} : c.tev (trib i 6) m = c.twr (trib i 6) (c.trd (trib i 6) ||| m) :=
  if_neg (by simp only [trib, tkey]; omega)

/-- From block `e` on, objects, PTR_STATE of object `k` and each entry's first word, which holds its TYPE, are kept. -/
structure KeepsPtr (k : Nat) (e d : Core) : Prop where
  objs : d.objs = e.objs
  cfOld : d.cfOld = e.cfOld
  first : ∀ j, j % 16 = 0 → d.trd j = e.trd j
  state : fld (d.trd (e.statKey k)) 10 2 = fld (e.trd (e.statKey k)) 10 2

theorem KeepsPtr.refl : KeepsPtr k e e := ⟨rfl, rfl, fun _ _ => rfl, rfl⟩

/-- A field beside PTR_STATE written in a word other than an entry's first. -/
theorem KeepsPtr.tsf {j lo n v : Nat} (h : KeepsPtr k e d) (hj : j % 16 ≠ 0) (hf : lo + n ≤ 10 ∨ 12 ≤ lo) :
    KeepsPtr k e (d.tsf j lo n v) where
  objs := h.objs
  cfOld := h.cfOld
  first i hi := by
    rw [Core.trd_tsf, if_neg (by rintro rfl; exact hj hi), h.first i hi]
  state := by
    rw [Core.trd_tsf, apply_ite (fld · 10 2), fld_setFld_ne (by omega), ← h.state]
    split
    · next hk => rw [hk]
    · rfl

theorem KeepsPtr.statField {j lo n v : Nat} (h : KeepsPtr k e d) (hf : lo + n ≤ 10 ∨ 12 ≤ lo) : KeepsPtr k e (d.tsf (d.statKey j) lo n v) :=
  h.tsf (by have := statKey_mod (c := d) (k := j); omega) hf

theorem KeepsPtr.tribEvents {i : Nat} {m : Word} (h : KeepsPtr k e d) : KeepsPtr k e (d.tev (trib i 6) m) := by
  have h6 := trib_mod i 6
  have hk := statKey_mod (c := e) (k := k)
  rw [tev_tribEvents]
  refine ⟨h.objs, h.cfOld, fun j hj => ?_, ?_⟩
  · rw [Core.trd_twr, if_neg (by omega), h.first j hj]
  · rw [Core.trd_twr, if_neg (by omega), h.state]

theorem KeepsPtr.ev {a : Nat} {m : Word} (h : KeepsPtr k e d) : KeepsPtr k e (d.ev a m) := ⟨h.objs, h.cfOld, h.first, h.state⟩

theorem KeepsPtr.showPtr {j v : Nat} (h : KeepsPtr k e d) : KeepsPtr k e (d.showPtr j v) := h.statField (.inl (by decide))

theorem KeepsPtr.showH4 {j : Nat} (h : KeepsPtr k e d) : KeepsPtr k e (d.showH4 j) :=
  forL_induct (KeepsPtr k e) (fun _ _ h => h.statField (.inr (by decide))) _ (h.statField (.inr (by decide)))

theorem KeepsPtr.cond {b : Prop} [Decidable b] (f : Core → Core) (h : KeepsPtr k e d) (hf : ∀ {d}, KeepsPtr k e d → KeepsPtr k e (f d)) :
    KeepsPtr k e (if b then f d else d) :=
  iteInduction (fun _ => hf h) (fun _ => h)

/-- An object in its new state. -/
def enteredObj (c : Core) (o : ObjRef) (st : PtrSt) : Obj :=
  let x := c.obj o.key
  { x.enterPtr st with
    h4 := if st = .norm then x.h4 else { x.h4.out with last := none }
    rx := if st = .norm then x.rx else {}
    e1 := if st = .norm ∧ (!isPath o.idx.val && bitOf (c.trc (trib o.idx.val 0)) 10) = true then .search else .off
    e1rx := {} }

/-- A state's code shown as PTR_STATE of an object. -/
def showState (c : Core) (k : Nat) (st : PtrSt) : Core := c.tsf (c.statKey k) 10 2 st.code

theorem showState_state : fld ((showState c k st).trd ((showState c k st).statKey k)) 10 2 = st.code := by
  have hs : (showState c k st).statKey k = c.statKey k := by
    refine statKey_congr (d := showState c k st) (e := c) rfl (fun j hj => ?_) k
    have hk := statKey_mod (c := c) (k := k)
    rw [showState, Core.trd_tsf, if_neg (by omega)]
  rw [hs, showState, Core.trd_tsf, if_pos rfl, fld_setFld _ _ _ _ (by decide)]
  cases st <;> rfl

/-- A block in which an object has entered its new state, and the state is shown. -/
def ptrEntered (c : Core) (o : ObjRef) (st : PtrSt) : Core := showState (c.setObj o.key (enteredObj c o st)) o.key st

theorem obj_ptrEntered : (ptrEntered c o st).obj o.key = enteredObj c o st := (Core.obj_setObj ..).trans (if_pos rfl)

theorem pointerStateChange_of_none (h : (c.obj o.key).goto = none) : c.pointerStateChange o = c := by rw [Core.pointerStateChange, h]

/-- What follows a state's entry, its H4 machine, its E1 monitor, its events and its value shown, touches neither object nor state. -/
theorem pointerStateChange_keepsPtr (h : (c.obj o.key).goto = some st) :
    KeepsPtr o.key (ptrEntered c o st) (c.pointerStateChange o) := by
  rw [Core.pointerStateChange, h]
  refine KeepsPtr.cond (·.showPtr o.key _) ?_ .showPtr
  refine KeepsPtr.cond (·.ev _ _) ?_ .ev
  refine KeepsPtr.cond (·.tev _ _) ?_ .tribEvents
  have h4 : KeepsPtr o.key (ptrEntered c o st) (if isPath o.idx.val then (ptrEntered c o st).showH4 o.key else ptrEntered c o st) :=
    .cond (·.showH4 o.key) .refl .showH4
  exact iteInduction (fun _ => h4) (fun _ => h4.tsf (by rw [trib_mod]; decide) (.inr (by decide)))

end PointerStates

/-- Settles O27: a received word by the interpreter that takes it and, in NORM, by its class; a state's entry by what it keeps. -/
theorem pointersAreInterpreted : Obligations.PointersAreInterpreted := by
  unfold Obligations.PointersAreInterpreted
  intro c o w k
  have hr (b s) : exec (.pointerReceive o ⟨b, w⟩) s = s.on (·.pointerHeard o b w) := rfl
  have hs (s) : exec (.pointerStateChange o) s = s.on (·.pointerStateChange o) := rfl
  refine ⟨fun h => goes_of_on (hr _) (pointerReceive_of_idle h), reaches_of_on (hr _) spareOnly_pointerHeard,
    fun h => goes_of_on (hr _) (pointerHeard_unpaired h), fun q hi hn hq hb hc => ⟨fun h => ?_, fun h => ?_, fun h => ?_⟩,
    fun h => goes_of_on hs (pointerStateChange_of_none h), fun st h => reaches_of_on hs ?_⟩
  · exact goes_of_on (hr _) (pointerReceive_of_norm hi hn hq hb hc h (.inl rfl))
  · exact goes_of_on (hr _) (pointerReceive_of_norm hi hn hq hb hc h (.inr (.inl rfl)))
  · exact goes_of_on (hr _) (pointerReceive_of_norm hi hn hq hb hc h (.inr (.inr rfl)))
  · have hk := pointerStateChange_keepsPtr h
    have ho : (c.pointerStateChange o).obj o.key = enteredObj c o st := by
      rw [Core.obj, hk.objs]
      exact obj_ptrEntered
    rw [ho, statKey_congr hk.cfOld hk.first, hk.state]
    exact ⟨rfl, rfl, rfl, rfl, rfl, rfl, rfl, showState_state⟩

/-! ## Pointer generation on a Path (R193–R195, R199, R200) -/

section PointersGenerated

variable {c : Core} {o : ObjRef}

/-- The generator of a Path in service within its port's positions, which is no continuation. -/
structure PathGenerates (c : Core) (o : ObjRef) : Prop where
  path : isPath o.idx.val = true
  svc : (c.obj o.key).svc = true
  own : c.ttype o.idx.val ≠ 6
  used : c.unused o.idx.val = false

/-- The depth that a block finds, SPACE of the object's port, and the largest value and the unit of its TYPE. -/
def blockDepth (c : Core) (o : ObjRef) : Int := (c.obj o.key).depth + (c.obj o.key).tx.moved
def blockSpace (c : Core) (o : ObjRef) : Nat := max 4 (c.gf (pe (c.portOf o.idx.val) 0x58) 8 6)
def objMax (c : Core) (o : ObjRef) : Nat := ptrMax (c.ttype o.idx.val)
def objUnit (c : Core) (o : ObjRef) : Int := genUnit (c.ttype o.idx.val)

theorem objUnit_pos : 0 < objUnit c o := by
  have h : 0 < genUnit (c.ttype o.idx.val) := by
    unfold genUnit
    split <;> decide
  exact Int.natCast_pos.mpr h

/-- A block sent with pointer word `w`: the bytes moved are taken, and value `v`, depth `d`, blocks `n` since the last change and the bytes
of its justification noted. -/
def blockSent (c : Core) (o : ObjRef) (v : Nat) (d : Int) (n : Nat) (w : BitVec 16) (just : Int) : Core := c.updObj o.key fun y => { y with
  gVal := v, depth := d, gSince := n, gOut := w, tx := { (c.obj o.key).tx with moved := 0, just := just } }

/-- A value one unit up or down, round the range. -/
def stepped (up : Bool) (mx v : Nat) : Nat := if up then (if mx ≤ v then 0 else v + 1) else (if v = 0 then mx else v - 1)

/-- A block that moves the pointer by one unit: the last value goes out with its I or D bits inverted (R194). -/
def blockJustified (c : Core) (o : ObjRef) (up : Bool) : Core :=
  let x := c.obj o.key
  let u := objUnit c o
  blockSent c o (stepped up (objMax c o) x.gVal) (if up then blockDepth c o + u else blockDepth c o - u) 0
    (ptrWord false (c.txSs (c.portOf o.idx.val)) (x.gVal ^^^ (if up then 0x2AA else 0x155))) (if up then u else -u)

/-- A block that only accumulates. -/
def blockWaits (c : Core) (o : ObjRef) : Core :=
  let x := c.obj o.key
  blockSent c o x.gVal (blockDepth c o) (x.gSince + 1) (ptrWord false (c.txSs (c.portOf o.idx.val)) x.gVal) 0

/-- A block whose value takes the whole units of the depth at once (R195). -/
def blockRecentred (c : Core) (o : ObjRef) : Core :=
  let v := (((c.obj o.key).gVal - blockDepth c o / objUnit c o) % ((objMax c o : Int) + 1)).toNat
  blockSent c o v 0 0 (ptrWord true (c.txSs (c.portOf o.idx.val)) v) 0

theorem pointerGenerate_of_held (h : PathGenerates c o) (hh : (c.obj o.key).gHeld = true) :
    c.pointerGenerate o = c.updObj o.key fun y => { y with gOut := 0xFFFF, tx := { (c.obj o.key).tx with moved := 0, just := 0 } } := by
  simp [Core.pointerGenerate, h.path, h.svc, h.own, h.used, hh, Core.pathOf, Core.updObj]

theorem pointerGenerate_of_start (h : PathGenerates c o) (hh : (c.obj o.key).gHeld = false) (hn : (c.obj o.key).gNdf = true) :
    c.pointerGenerate o = c.updObj o.key fun y => { y with
      gNdf := false, gVal := 0, gSince := 0, depth := 0, gOut := ptrWord true (c.txSs (c.portOf o.idx.val)) 0
      tx := { (c.obj o.key).tx with moved := 0, just := 0 } } := by
  simp [Core.pointerGenerate, h.path, h.svc, h.own, h.used, hh, hn, Core.pathOf, Core.updObj]

/-- Whether the pointer may move: SPACE, or from two units on the hard limit of 4 blocks, has passed (R194). -/
def mayMove (c : Core) (o : ObjRef) : Bool :=
  decide (blockSpace c o ≤ (c.obj o.key).gSince + 1) ||
    (decide (2 * objUnit c o ≤ ((blockDepth c o).natAbs : Int)) && decide (4 ≤ (c.obj o.key).gSince + 1))

section Running

variable (h : PathGenerates c o) (hh : (c.obj o.key).gHeld = false) (hn : (c.obj o.key).gNdf = false)

include h hh hn

/-- A running generator on a Path re-centres, moves or waits. A move before SPACE has passed is an event, and each move is counted. -/
theorem pointerGenerate_of_running :
    c.pointerGenerate o =
      let up := decide (blockDepth c o ≤ -objUnit c o)
      if 8 * objUnit c o ≤ ((blockDepth c o).natAbs : Int) then (blockRecentred c o).ev (pe (c.portOf o.idx.val) 0x40C) (bit 5)
      else if mayMove c o && (up || decide (objUnit c o ≤ blockDepth c o)) then
        (if mayMove c o && decide ((c.obj o.key).gSince + 1 < blockSpace c o) then
          (blockJustified c o up).ev (pe (c.portOf o.idx.val) 0x40C) (bit 4)
        else blockJustified c o up).cn (pe (c.portOf o.idx.val) (if up then 0x50C else 0x510)) 1
      else blockWaits c o := by
  simp only [Core.pointerGenerate, h.path, h.svc, h.own, h.used, hh, hn, Core.pathOf, if_true, Bool.true_or, Bool.not_true, Bool.false_eq_true,
    decide_false, Bool.or_self, Bool.and_false, if_false]
  rfl

theorem pointerGenerate_of_withinUnit (hl : -objUnit c o < blockDepth c o) (hg : blockDepth c o < objUnit c o) :
    c.pointerGenerate o = blockWaits c o := by
  have hstay : (decide (blockDepth c o ≤ -objUnit c o) || decide (objUnit c o ≤ blockDepth c o)) = false := by simp [hl, hg]
  rw [pointerGenerate_of_running h hh hn, if_neg (by omega), hstay, Bool.and_false, if_neg Bool.false_ne_true]

theorem pointerGenerate_of_early (hl : -2 * objUnit c o < blockDepth c o) (hg : blockDepth c o < 2 * objUnit c o)
    (hs : (c.obj o.key).gSince + 1 < blockSpace c o) :
    c.pointerGenerate o = blockWaits c o := by
  have hfew : ¬2 * objUnit c o ≤ ((blockDepth c o).natAbs : Int) := by omega
  have hmay : mayMove c o = false := by simp only [mayMove, hfew, hs.not_ge, decide_false, Bool.false_and, Bool.or_false]
  rw [pointerGenerate_of_running h hh hn, if_neg (by omega), hmay, Bool.false_and, if_neg Bool.false_ne_true]

theorem pointerGenerate_of_spaced {up : Bool} (hl : -8 * objUnit c o < blockDepth c o) (hg : blockDepth c o < 8 * objUnit c o)
    (hs : blockSpace c o ≤ (c.obj o.key).gSince + 1) (hup : decide (blockDepth c o ≤ -objUnit c o) = up)
    (hd : up = false → objUnit c o ≤ blockDepth c o) :
    c.pointerGenerate o = (blockJustified c o up).cn (pe (c.portOf o.idx.val) (if up then 0x50C else 0x510)) 1 := by
  have hmay : mayMove c o = true := by simp only [mayMove, hs, decide_true, Bool.true_or]
  have hmoves : (up || decide (objUnit c o ≤ blockDepth c o)) = true := by
    cases up
    · simpa using hd rfl
    · rfl
  rw [pointerGenerate_of_running h hh hn, if_neg (by omega), hmay, hup, hmoves, decide_eq_false hs.not_gt]
  rfl

theorem pointerGenerate_of_eightUnits (hd : 8 * objUnit c o ≤ blockDepth c o ∨ blockDepth c o ≤ -8 * objUnit c o) :
    c.pointerGenerate o = (blockRecentred c o).ev (pe (c.portOf o.idx.val) 0x40C) (bit 5) := by
  rw [pointerGenerate_of_running h hh hn, if_pos (by omega)]

end Running

end PointersGenerated

/-- Settles O28: a block of a Path's generator by the depth it finds and the blocks since the last change. -/
theorem pointersAreGenerated : Obligations.PointersAreGenerated := by
  unfold Obligations.PointersAreGenerated
  intro c o hp hs ht hu
  have hi (n s) : exec (.pointerGenerate o n) s = s.onSeen (fun c => decide ((c.obj o.key).tx.moved = n)) (·.pointerGenerate o) := rfl
  have named {d} (h : c.pointerGenerate o = d) : Goes (.pointerGenerate o (c.obj o.key).tx.moved) c d :=
    goes_of_seen (hi _) (decide_eq_true rfl) h
  have hg : PathGenerates c o := ⟨hp, hs, ht, hu⟩
  have hpos : 0 < objUnit c o := objUnit_pos
  refine ⟨fun n hm => goes_of_unseen (hi n) (decide_eq_false hm.symm), fun hh => named (pointerGenerate_of_held hg hh), fun hh =>
    ⟨fun hn => named (pointerGenerate_of_start hg hh hn), fun hn => ⟨fun hl hr => named (pointerGenerate_of_withinUnit hg hh hn hl hr),
      fun hd h8 hsp => ?_, fun hd h8 hsp => ?_, fun hl hr hsp => named (pointerGenerate_of_early hg hh hn hl hr hsp),
      fun hd _ => named (pointerGenerate_of_eightUnits hg hh hn hd)⟩⟩⟩
  · have hd : objUnit c o ≤ blockDepth c o := hd
    exact named (pointerGenerate_of_spaced (up := false) hg hh hn (by omega) h8 hsp (decide_eq_false (by omega)) fun _ => hd)
  · have hd : blockDepth c o ≤ -objUnit c o := hd
    exact named (pointerGenerate_of_spaced (up := true) hg hh hn h8 (by omega) hsp (decide_eq_true hd) nofun)

end Sys2Proof.Proofs

/-! The obligations of virtual concatenation (chapter 7): the slots of sink groups, what groups report, and the member records. -/

namespace Sys2Proof.Proofs

open Sys2Proof Sys2Proof.Machine Sys2Proof.Safety

/-! ## Slots, groups and the words of a GROUP entry -/

section GroupState

variable {c : Core} {g s k : Nat} {m : Word} {x : Slot} {y : Grp}

/-- Within a group a slot reads as set; every other one as before. -/
theorem slot_setSlot_ofGroup {t : Nat} : (c.setSlot g s x).slot g t = if t = s then x else c.slot g t := by
  have hk : g * 256 + t = g * 256 + s ↔ t = s := by omega
  simp only [Core.slot, Core.setSlot, Sparse.get_put, hk]

@[simp] theorem slot_setSlot_self : (c.setSlot g s x).slot g s = x := slot_setSlot_ofGroup.trans (if_pos rfl)

@[simp] theorem trd_setSlot {j : Nat} : (c.setSlot g s x).trd j = c.trd j := rfl
@[simp] theorem gRuns_setSlot {j : Nat} : (c.setSlot g s x).gRuns j = c.gRuns j := rfl

theorem slot_congr {d : Core} (h : d.slots = c.slots) (g s : Nat) : d.slot g s = c.slot g s := by rw [Core.slot, h, Core.slot]
theorem group_congr {d : Core} (h : d.groups = c.groups) (g : Nat) : d.group g = c.group g := by rw [Core.group, h, Core.group]
theorem trd_congr {d : Core} (h : d.tbl = c.tbl) (j : Nat) : d.trd j = c.trd j := by rw [Core.trd, h, Core.trd]

/-- Event bits of a table word reach that word and the summaries of the host interface, which are registers. -/
theorem tev_frame : c.tev k m = { c.twr k (c.trd k ||| m) with regs := (c.tev k m).regs } := by
  unfold Core.tev
  dsimp only
  split
  · split <;> rfl
  · rfl

theorem slots_tev : (c.tev k m).slots = c.slots := by rw [tev_frame]; rfl
theorem groups_tev : (c.tev k m).groups = c.groups := by rw [tev_frame]; rfl

theorem trd_tev {j : Nat} : (c.tev k m).trd j = if j = k then c.trd k ||| m else c.trd j := by
  rw [tev_frame]
  exact Core.trd_twr c k j _

theorem grp_ne {v w : Nat} (h : v ≠ w) : grp g v ≠ grp g w := by
  simp only [grp, tkey]
  omega

theorem fld_trd_tsf {lo n v : Nat} (h : lo + n ≤ 32) : fld ((c.tsf k lo n v).trd k) lo n = v % 2 ^ n := by
  rw [Core.trd_tsf, if_pos rfl, fld_setFld _ _ _ _ h]

theorem tev_setGroup : (c.setGroup g y).tev k m = (c.tev k m).setGroup g y := by
  simp only [Core.tev, apply_ite (Core.setGroup · g y)]
  rfl

theorem setGState_setGroup {st : Nat} : (c.setGroup g y).setGState g st = (c.setGState g st).setGroup g y := by
  simp only [Core.setGState, apply_ite (Core.setGroup · g y), ← tev_setGroup]
  rfl

end GroupState

/-! ## Control packets (R222, R226, R230) -/

theorem reaches_of_seen {i : Instr} {c d : Core} {seen : Core → Bool} {f : Core → Core} {P : Core → Prop}
    (hi : ∀ s, exec i s = s.onSeen seen f) (hs : seen c = true) (h : f c = d) (hp : P d) : Reaches i c P :=
  fun m q => ⟨d, goes_of_seen hi hs h m q, hp⟩

section ControlPackets

variable {c : Core} {g s : Nat} {k : CtrlPkt}

/-- A control packet received whole in a slot of a running sink group. -/
structure PacketWaits (c : Core) (g s : Nat) (k : CtrlPkt) : Prop where
  runs : c.gRuns g = true
  sink : gSource (c.group g).eff = false
  packet : (c.slot g s).pkt = some k
  slot : s < c.nslot (c.group g).eff

/-- The block once the packet of a slot is taken. -/
def packetTaken (c : Core) (g s : Nat) : Core := c.setSlot g s { c.slot g s with pkt := none }

/-- What a slot makes of a packet: its SQ, with LCAS the accepted SQ and CTRL, and both toward the payload (R226). -/
def slotHears (lcas : Bool) (x : Slot) (k : CtrlPkt) : Slot := { x with
  sq := k.sq, sqRun := runOf x.sq x.sqRun k.sq
  sqAcc := if lcas then k.sq else x.sqAcc
  ctrl := if lcas then k.ctrl else x.ctrl
  ctrlQ := x.ctrlQ ++ [(k.frame + x.depth.toNat + 1, k.ctrl, k.sq)] }

/-- A new CTRL noted as an event, a new SQ for RS-Ack, and the RS-Ack that a packet carries. -/
def ctrlNoted (c : Core) (g : Nat) (new : Bool) : Core := if new then c.tev (grp g 14) (bit 7) else c
def sqNoted (c : Core) (g : Nat) (new : Bool) : Core :=
  if new then c.setGroup g { c.group g with rsPend := true, rsCnt := 0 } else c
def ackNoted (c : Core) (g v : Nat) : Core :=
  if fld (c.trd (grp g 13)) 27 1 = v then c else (c.tsf (grp g 13) 27 1 v).tev (grp g 14) (bit 8)

/-- A packet that counts: its slot hears it, and what is new in it is noted. -/
def packetHeard (c : Core) (g s : Nat) (k : CtrlPkt) : Core :=
  let x := c.slot g s
  let lcas := gLcas (c.group g).eff
  ackNoted (sqNoted (ctrlNoted (c.setSlot g s (slotHears lcas x k)) g (lcas && x.ctrl != k.ctrl)) g (lcas && x.sqAcc != k.sq)) g
    (if k.rsAck then 1 else 0)

theorem PacketWaits.counts (h : PacketWaits c g s k) :
    ¬(!(packetTaken c g s).gRuns g || gSource (c.group g).eff || decide ((packetTaken c g s).nslot (c.group g).eff ≤ s)) = true := by
  have hslot : ¬(packetTaken c g s).nslot (c.group g).eff ≤ s := h.slot.not_ge
  rw [decide_eq_false hslot]
  simp [packetTaken, h.runs, h.sink]

theorem controlPacket_of_crcError (h : PacketWaits c g s k) (hl : gLcas (c.group g).eff = true) (hc : k.crcOk = false) :
    c.controlPacket g s =
      ((packetTaken c g s).tev (grp g 14) (bit 9)).twr (grp g 15) (satFld (c.trd (grp g 15)) 16 16 1) := by
  rw [Core.controlPacket, h.packet]
  exact (if_neg h.counts).trans (if_pos (by simp [hl, hc]))

/-- In a group with no partner a packet that counts is taken and heard, and nothing else. -/
theorem controlPacket_of_good (h : PacketWaits c g s k) (hc : gLcas (c.group g).eff = true → k.crcOk = true)
    (hr : gRev (c.group g).eff = none) : c.controlPacket g s = packetHeard (packetTaken c g s) g s k := by
  have hcrc : ¬(gLcas (c.group g).eff && !k.crcOk) = true := by simpa using hc
  rw [Core.controlPacket, h.packet]
  refine (if_neg h.counts).trans ((if_neg hcrc).trans ?_)
  rw [hr]
  rfl

@[simp] theorem slot_packetTaken : (packetTaken c g s).slot g s = { c.slot g s with pkt := none } := slot_setSlot_self
@[simp] theorem group_packetTaken : (packetTaken c g s).group g = c.group g := rfl
@[simp] theorem trd_packetTaken {j : Nat} : (packetTaken c g s).trd j = c.trd j := rfl

/-- Without LCAS the accepted values stay. -/
theorem controlPacket_of_noLcas (h : PacketWaits c g s k) (hl : gLcas (c.group g).eff = false) (hr : gRev (c.group g).eff = none)
    (hk : fld (c.trd (grp g 13)) 27 1 = if k.rsAck then 1 else 0) :
    c.controlPacket g s = (packetTaken c g s).setSlot g s (slotHears false { c.slot g s with pkt := none } k) := by
  rw [controlPacket_of_good h (by simp [hl]) hr]
  simp only [packetHeard, ctrlNoted, sqNoted, ackNoted, group_packetTaken, trd_packetTaken, slot_packetTaken, trd_setSlot, hl, hk,
    Bool.false_and, Bool.false_eq_true, if_false, if_true]

variable {v : Nat} {b : Bool}

theorem slots_ctrlNoted : (ctrlNoted c g b).slots = c.slots := by cases b <;> [rfl; exact slots_tev]
theorem slots_sqNoted : (sqNoted c g b).slots = c.slots := by cases b <;> rfl
theorem slots_ackNoted : (ackNoted c g v).slots = c.slots := by
  unfold ackNoted
  split <;> [rfl; exact slots_tev]

theorem slot_packetHeard : (packetHeard c g s k).slot g s = slotHears (gLcas (c.group g).eff) (c.slot g s) k :=
  (slot_congr (slots_ackNoted.trans (slots_sqNoted.trans slots_ctrlNoted)) g s).trans slot_setSlot_self

theorem groups_ackNoted : (ackNoted c g v).groups = c.groups := by
  unfold ackNoted
  split <;> [rfl; exact groups_tev]

/-- An event bit set in W14 stands, whatever is noted after it. -/
theorem eventBit_ackNoted {j : Nat} (h : bitOf (c.trd (grp g 14)) j = true) : bitOf ((ackNoted c g v).trd (grp g 14)) j = true := by
  unfold ackNoted
  split
  · exact h
  · rw [trd_tev, if_pos rfl, Core.trd_tsf, if_neg (grp_ne (by decide)), bitOf, BitVec.getLsbD_or]
    exact Bool.or_eq_true_iff.mpr (.inl h)

theorem eventBit_ctrlNoted : bitOf ((ctrlNoted c g true).trd (grp g 14)) 7 = true := by
  rw [ctrlNoted, if_pos rfl, trd_tev, if_pos rfl, bitOf, BitVec.getLsbD_or, getLsbD_bit]
  simp

theorem tbl_sqNoted : (sqNoted c g b).tbl = c.tbl := by cases b <;> rfl

theorem eventBit_packetHeard (hl : gLcas (c.group g).eff = true) (hk : (c.slot g s).ctrl ≠ k.ctrl) :
    bitOf ((packetHeard c g s k).trd (grp g 14)) 7 = true := by
  have hnew : (gLcas (c.group g).eff && (c.slot g s).ctrl != k.ctrl) = true := by simp [hl, hk]
  rw [packetHeard, hnew]
  refine eventBit_ackNoted ?_
  rw [trd_congr tbl_sqNoted]
  exact eventBit_ctrlNoted

theorem rsPend_packetHeard (hl : gLcas (c.group g).eff = true) (hk : (c.slot g s).sqAcc ≠ k.sq) :
    ((packetHeard c g s k).group g).rsPend = true := by
  have hnew : (gLcas (c.group g).eff && (c.slot g s).sqAcc != k.sq) = true := by simp [hl, hk]
  rw [packetHeard, hnew, group_congr groups_ackNoted, sqNoted, if_pos rfl, Core.group_setGroup, if_pos rfl]

theorem ack_ackNoted (hv : v < 2) : fld ((ackNoted c g v).trd (grp g 13)) 27 1 = v := by
  unfold ackNoted
  split
  · assumption
  · rw [trd_tev, if_neg (grp_ne (by decide)), fld_trd_tsf (by decide)]
    exact Nat.mod_eq_of_lt hv

end ControlPackets

/-! ## Alignment and loss of members, and the payload set (R217, R221, R222, R225) -/

section Members

variable {c : Core} {g s o : Nat}

/-- A slot of a running sink group and its member object. -/
structure MemberRuns (c : Core) (g s o : Nat) : Prop where
  runs : c.gRuns g = true
  sink : gSource (c.group g).eff = false
  member : (c.members (c.group g).eff)[s]? = some o

/-- The port that a member lies on, and how many values the multiframe count of a group's members runs through. -/
def memberPort (c : Core) (o : Nat) : Nat := c.portOf (o / 4)
def mfRange (c : Core) (g : Nat) : Nat := if gHigh (c.group g).eff then 16 else 32

theorem vcMfAlign_eq (h : MemberRuns c g s o) (b : Bool) : c.vcMfAlign g s b =
    let x := c.slot g s
    if c.objSf o then c
    else if b then
      (if !x.mf.inMf && decide (c.mfIfN (memberPort c o) ≤ x.mf.run) then c.setSlot g s { x with mf := x.mf.align (mfRange c g) } else c)
    else if x.mf.inMf && decide (c.mfOomN (memberPort c o) ≤ x.mf.bad) then c.setSlot g s { x with mf := x.mf.out, hist := [] }
    else c := by
  simp only [Core.vcMfAlign, h.member, h.runs, h.sink, Bool.not_true, Bool.false_or]
  rfl

theorem vcMfAlign_of_sf (h : MemberRuns c g s o) (hf : c.objSf o = true) (b : Bool) : c.vcMfAlign g s b = c := by
  rw [vcMfAlign_eq h]
  exact if_pos hf

theorem vcMfAlign_of_gained (h : MemberRuns c g s o) (hf : c.objSf o = false) (hm : (c.slot g s).mf.inMf = false)
    (hn : c.mfIfN (memberPort c o) ≤ (c.slot g s).mf.run) :
    c.vcMfAlign g s true = c.setSlot g s { c.slot g s with mf := (c.slot g s).mf.align (mfRange c g) } := by
  rw [vcMfAlign_eq h]
  simp only [hf, hm, hn, Bool.not_false, decide_true, Bool.and_self, Bool.false_eq_true, if_true, if_false]

theorem vcMfAlign_of_notGained (h : MemberRuns c g s o)
    (hn : (c.slot g s).mf.inMf = true ∨ (c.slot g s).mf.run < c.mfIfN (memberPort c o)) : c.vcMfAlign g s true = c := by
  have hno : ¬(!(c.slot g s).mf.inMf && decide (c.mfIfN (memberPort c o) ≤ (c.slot g s).mf.run)) = true := by
    rcases hn with hn | hn <;> simp [hn]
  rw [vcMfAlign_eq h]
  exact ite_eq_left_iff.mpr fun _ => (if_pos rfl).trans (if_neg hno)

theorem vcMfAlign_of_lost (h : MemberRuns c g s o) (hf : c.objSf o = false) (hm : (c.slot g s).mf.inMf = true)
    (hn : c.mfOomN (memberPort c o) ≤ (c.slot g s).mf.bad) :
    c.vcMfAlign g s false = c.setSlot g s { c.slot g s with mf := (c.slot g s).mf.out, hist := [] } := by
  rw [vcMfAlign_eq h]
  simp only [hf, hm, hn, decide_true, Bool.and_self, Bool.false_eq_true, if_true, if_false]

theorem vcMfAlign_of_kept (h : MemberRuns c g s o)
    (hn : (c.slot g s).mf.inMf = false ∨ (c.slot g s).mf.bad < c.mfOomN (memberPort c o)) : c.vcMfAlign g s false = c := by
  have hno : ¬((c.slot g s).mf.inMf && decide (c.mfOomN (memberPort c o) ≤ (c.slot g s).mf.bad)) = true := by
    rcases hn with hn | hn <;> simp [hn]
  rw [vcMfAlign_eq h]
  exact ite_eq_left_iff.mpr fun _ => (if_neg Bool.false_ne_true).trans (if_neg hno)

/-- The frames toward the change of a slot's VC-LOM. -/
def lomRun (x : Slot) : Nat := if x.lom then x.mf.mfF else x.mf.oomF

/-- VC-LOM changes once its frames have run. -/
theorem vcLom_eq (h : MemberRuns c g s o) : c.vcLom g s =
    if c.mfLom (memberPort c o) ≤ lomRun (c.slot g s) then c.setSlot g s { c.slot g s with lom := !(c.slot g s).lom } else c := by
  simp only [Core.vcLom, h.member, h.runs, h.sink, lomRun, memberPort]
  by_cases hl : (c.slot g s).lom = true <;> simp [hl]

theorem loaClear_of_due (hl : (c.slot g s).loa = true) (hr : 16 ≤ (c.slot g s).loaRun) :
    c.loaClear g s = c.setSlot g s { c.slot g s with loa := false, loaRun := 0 } := if_pos ⟨hl, hr⟩

theorem loaClear_of_notDue (h : (c.slot g s).loa = false ∨ (c.slot g s).loaRun < 16) : c.loaClear g s = c := by
  refine if_neg ?_
  rcases h with h | h <;> simp [h]

theorem sqAccept_of_run (hr : c.gRuns g = true) (hs : gSource (c.group g).eff = false) (hm : gMode (c.group g).eff = true)
    (hl : gLcas (c.group g).eff = false) (hn : 3 ≤ (c.slot g s).sqRun) (hk : s < c.nslot (c.group g).eff) :
    c.sqAccept g s = c.setSlot g s { c.slot g s with sqAcc := (c.slot g s).sq, sqm := (c.slot g s).sq.toNat != s } :=
  if_pos (by simp [hr, hs, hm, hl, hn, hk])

theorem sqAccept_of_not (h : gMode (c.group g).eff = false ∨ gLcas (c.group g).eff = true ∨ (c.slot g s).sqRun < 3) :
    c.sqAccept g s = c := by
  refine if_neg ?_
  rcases h with h | h | h <;> simp [h]

/-- Whether the payload set is the one that the CTRL values in effect give. -/
def setStands (c : Core) (g : Nat) : Bool := (List.range (c.nslot (c.group g).eff)).all fun s => c.gSet g 24 s = c.inSet g s

/-- The payload set given by the CTRL values in effect, counted as a change (R225, R226). -/
def setTaken (c : Core) (g : Nat) : Core :=
  let e := forN (c.nslot (c.group g).eff) (fun s c' => c'.setGSet g 24 s 6 (c.inSet g s)) c
  e.twr (grp g 15) (satFld (e.trd (grp g 15)) 0 16 1)

theorem payloadSet_of_changed (hr : c.gRuns g = true) (hs : gSource (c.group g).eff = false) (hl : gLcas (c.group g).eff = true)
    (h : setStands c g = false) : c.payloadSet g = (setTaken c g).capacity g := by
  have hn : ¬(setStands c g) = true := by simp [h]
  have hu : c.setUsed g (c.nslot (c.group g).eff) (fun s => c.inSet g s) = setTaken c g := if_neg hn
  exact (if_neg (by simp [hr, hs, hl])).trans ((if_neg hn).trans (congrArg (·.capacity g) hu))

theorem payloadSet_of_stands (h : gLcas (c.group g).eff = false ∨ setStands c g = true) : c.payloadSet g = c := by
  rcases h with h | h
  · exact if_pos (by simp [h])
  · exact ite_eq_left_iff.mpr fun _ => if_pos h

end Members

/-- Settles O30: a packet by what its slot makes of it, each other command by whether its run is due. -/
theorem sinkMembersFollowTheirSlots : Obligations.SinkMembersFollowTheirSlots := by
  unfold Obligations.SinkMembersFollowTheirSlots
  intro c g sl hr hs d x n
  have hpkt (k s) : exec (.vcatControlPacket g sl k) s =
    s.onSeen (fun c => decide ((c.slot g.val sl.val).pkt = some k)) (·.controlPacket g.val sl.val) := rfl
  have hmf (b s) : exec (.vcMfAlign g sl b) s = s.on (·.vcMfAlign g.val sl.val b) := rfl
  have hlom (s) : exec (.vcLom g sl) s = s.on (·.vcLom g.val sl.val) := rfl
  have hloa (s) : exec (.memberLoaClear g sl) s = s.on (·.loaClear g.val sl.val) := rfl
  have hsq (s) : exec (.sqAccept g sl) s = s.on (·.sqAccept g.val sl.val) := rfl
  have hset (s) : exec (.payloadSetChange g) s = s.on (·.payloadSet g.val) := rfl
  refine ⟨fun k h => goes_of_unseen (hpkt k) (decide_eq_false h), fun k hk hn => ?_, fun o ho => ?_,
    fun hl h => goes_of_on hloa (loaClear_of_due hl h), fun h => goes_of_on hloa (loaClear_of_notDue h),
    fun hm hl h hn => goes_of_on hsq (sqAccept_of_run hr hs hm hl h hn), fun h => goes_of_on hsq (sqAccept_of_not h),
    fun hl h => goes_of_on hset (payloadSet_of_changed hr hs hl h), fun h => goes_of_on hset (payloadSet_of_stands h)⟩
  · have hw : PacketWaits c g.val sl.val k := ⟨hr, hs, hk, hn⟩
    have hseen : decide (x.pkt = some k) = true := decide_eq_true hk
    refine ⟨fun hl hc => goes_of_seen (hpkt k) hseen (controlPacket_of_crcError hw hl hc), fun hl hrev hack => ?_, fun hl hc hrev => ?_⟩
    · exact goes_of_seen (hpkt k) hseen (controlPacket_of_noLcas hw hl hrev hack)
    · refine reaches_of_seen (hpkt k) hseen (controlPacket_of_good hw (fun _ => hc) hrev)
        ⟨?_, fun h => eventBit_packetHeard hl ?_, fun h => rsPend_packetHeard hl ?_, ack_ackNoted (by split <;> decide)⟩
      · rw [slot_packetHeard, slot_packetTaken]
        simp only [slotHears, group_packetTaken, d, hl, if_true]
        rfl
      · rwa [slot_packetTaken]
      · rwa [slot_packetTaken]
  · have hm : MemberRuns c g.val sl.val o := ⟨hr, hs, ho⟩
    have lomTo (v : Bool) (h : x.lom = v) (hn : c.mfLom (c.portOf (o / 4)) ≤ lomRun x) :
        Goes (.vcLom g sl) c (c.setSlot g.val sl.val { x with lom := !v }) :=
      goes_of_on hlom ((vcLom_eq hm).trans ((if_pos hn).trans (by rw [← h])))
    have lomStays (hn : lomRun x < c.mfLom (c.portOf (o / 4))) : Goes (.vcLom g sl) c c :=
      goes_of_on hlom ((vcLom_eq hm).trans (if_neg hn.not_ge))
    have hon (h : x.lom = true) : lomRun x = x.mf.mfF := if_pos h
    have hoff (h : x.lom = false) : lomRun x = x.mf.oomF := if_neg (by simp [h])
    refine ⟨fun hf b => goes_of_on (hmf b) (vcMfAlign_of_sf hm hf b), fun hf hi hn l hlast => goes_of_on (hmf true) ?_,
      fun h => goes_of_on (hmf true) (vcMfAlign_of_notGained hm h),
      fun hf hi hn => goes_of_on (hmf false) (vcMfAlign_of_lost hm hf hi hn),
      fun h => goes_of_on (hmf false) (vcMfAlign_of_kept hm h), fun h hn => ?_, fun h hn => ?_, fun h hn => ?_, fun h hn => ?_⟩
    · rw [vcMfAlign_of_gained hm hf hi hn, align_of_last hlast]
      rfl
    · exact lomTo false h (hoff h ▸ hn)
    · exact lomStays (hoff h ▸ hn)
    · exact lomTo true h (hon h ▸ hn)
    · exact lomStays (hon h ▸ hn)

/-! ## LOA of a group, MST and RS-Ack (R221, R230) -/

section Reports

variable {c : Core} {g s : Nat} {f : Slot → Slot}

/-- Slots of one group updated, from the first on. -/
theorem slot_updSlots {n : Nat} : (forN n (fun s c => c.updSlot g s f) c).slot g s = if s < n then f (c.slot g s) else c.slot g s := by
  induction n with
  | zero => rfl
  | succ n ih =>
    rw [forN_succ, Core.updSlot, slot_setSlot_ofGroup]
    by_cases h : s = n
    · subst h
      rw [if_pos rfl, ih, if_neg (Nat.lt_irrefl s), if_pos (Nat.lt_succ_self s)]
    · rw [if_neg h, ih]
      simp only [Nat.lt_succ_iff_lt_or_eq, h, or_false]

theorem updSlots_frame {n : Nat} : forN n (fun s c => c.updSlot g s f) c = { c with slots := (forN n (fun s c => c.updSlot g s f) c).slots } :=
  forN_induct (fun d : Core => d = { c with slots := d.slots }) (fun _ _ _ h => by rw [h]; rfl) rfl

/-- The block once a group has lost its read point and shows LOA. -/
def readPtLost (c : Core) (g : Nat) : Core := (c.setGroup g { c.group g with readPt := none, loaRun := 0 }).setGState g 3

theorem readPtLost_eq : readPtLost c g = (c.setGState g 3).setGroup g { c.group g with readPt := none, loaRun := 0 } := setGState_setGroup

/-- A slot without its own LOA. -/
def loaCleared (x : Slot) : Slot := { x with loa := false, loaRun := 0 }

theorem state_setGState {st : Nat} (h : st < 8) : fld ((c.setGState g st).trd (grp g 12)) 0 3 = st := by
  unfold Core.setGState
  split
  · assumption
  · rw [trd_tev, if_neg (grp_ne (by decide)), fld_trd_tsf (by decide)]
    exact Nat.mod_eq_of_lt h

theorem slots_setGState {st : Nat} : (c.setGState g st).slots = c.slots := by
  unfold Core.setGState
  split <;> [rfl; exact slots_tev]

theorem groupLoa_of_lost (hr : c.gRuns g = true) (hn : 16 ≤ (c.group g).loaRun) (h2 : fld (c.trd (grp g 12)) 0 3 = 2) :
    c.groupLoa g = forN (c.nslot ((readPtLost c g).group g).eff) (fun s c => c.updSlot g s loaCleared) (readPtLost c g) :=
  if_pos (by simp [hr, hn, h2])

theorem groupLoa_of_not (h : (c.group g).loaRun < 16 ∨ fld (c.trd (grp g 12)) 0 3 ≠ 2) : c.groupLoa g = c := by
  refine if_neg ?_
  rcases h with h | h <;> simp [h]

/-- What a group's LOA leaves. -/
theorem shown_groupLoa (hr : c.gRuns g = true) (hn : 16 ≤ (c.group g).loaRun) (h2 : fld (c.trd (grp g 12)) 0 3 = 2) :
    let e := c.groupLoa g
    e.group g = { c.group g with readPt := none, loaRun := 0 } ∧ fld (e.trd (grp g 12)) 0 3 = 3 ∧ e.regs = (c.setGState g 3).regs ∧
      e.tbl = (c.setGState g 3).tbl ∧ ∀ s < c.nslot (c.group g).eff, e.slot g s = loaCleared (c.slot g s) := by
  have hg : (readPtLost c g).group g = { c.group g with readPt := none, loaRun := 0 } := by
    rw [readPtLost_eq, Core.group_setGroup, if_pos rfl]
  have hs : (readPtLost c g).slots = c.slots := by
    rw [readPtLost_eq]
    exact slots_setGState
  rw [groupLoa_of_lost hr hn h2, hg]
  refine ⟨?_, ?_, ?_, ?_, fun s h => ?_⟩
  · rw [updSlots_frame]
    exact hg
  · rw [updSlots_frame, readPtLost_eq]
    exact state_setGState (by decide)
  · rw [updSlots_frame, readPtLost_eq]
    rfl
  · rw [updSlots_frame, readPtLost_eq]
    rfl
  · rw [slot_updSlots, if_pos h, slot_congr hs]

theorem mstFail_of_due (hr : c.gRuns g = true) (hs : gSource (c.group g).eff = false) (hm : gMode (c.group g).eff = true)
    (hl : gLcas (c.group g).eff = true) (hf : (c.slot g s).failed = true) (ho : c.gSet g 16 s = true)
    (hn : 8 * fld (c.trc (grp g 3)) 0 8 ≤ (c.slot g s).failRun) : c.mstFail g s = (c.setGSet g 16 s 5 false).capacity g :=
  if_pos (by simp [hr, hs, hm, hl, hf, ho, hn])

theorem mstFail_of_not (h : (c.slot g s).failed = false ∨ (c.slot g s).failRun < 8 * fld (c.trc (grp g 3)) 0 8) : c.mstFail g s = c := by
  refine if_neg ?_
  rcases h with h | h <;> simp [h]

theorem mstOk_of_due (hr : c.gRuns g = true) (hs : gSource (c.group g).eff = false) (hm : gMode (c.group g).eff = true)
    (hl : gLcas (c.group g).eff = true) (hf : (c.slot g s).failed = false) (ho : c.gSet g 16 s = false)
    (hk : s < c.nslot (c.group g).eff) (hn : 8000 * fld (c.trc (grp g 3)) 8 10 ≤ (c.slot g s).okRun) :
    c.mstOk g s = (c.setGSet g 16 s 5 true).capacity g := if_pos (by simp [hr, hs, hm, hl, hf, ho, hk, hn])

theorem mstOk_of_not (h : (c.slot g s).failed = true ∨ (c.slot g s).okRun < 8000 * fld (c.trc (grp g 3)) 8 10) : c.mstOk g s = c := by
  refine if_neg ?_
  rcases h with h | h <;> simp [h]

/-- Frames of one MST cycle: 32 packets of 16 frames, or 8 of 128 (R215). -/
def mstCycle (d : List Word) : Nat := if gType d ≤ 2 then 512 else 1024

theorem mstCycle_eq (d : List Word) : (if gHigh d then 512 else 1024) = mstCycle d := by simp [gHigh, mstCycle]

theorem rsAckToggle_of_stood (hr : c.gRuns g = true) (hs : gSource (c.group g).eff = false) (hm : gMode (c.group g).eff = true)
    (hl : gLcas (c.group g).eff = true) (hp : (c.group g).rsPend = true) (hn : mstCycle (c.group g).eff ≤ (c.group g).rsCnt) :
    c.rsAckToggle g = (c.setGroup g { c.group g with rsPend := false, rsCnt := 0 }).tsf (grp g 13) 28 1
      (1 - fld (c.trd (grp g 13)) 28 1) := if_pos (by simp [hr, hs, hm, hl, hp, hn, mstCycle_eq])

theorem rsAckToggle_of_not (h : (c.group g).rsPend = false ∨ (c.group g).rsCnt < mstCycle (c.group g).eff) : c.rsAckToggle g = c := by
  refine if_neg ?_
  rcases h with h | h <;> simp [h, mstCycle_eq]

end Reports

/-! ## Member records (R235) -/

section MemberRecords

variable {c : Core} {m : List Host.Cell} {g : Nat}

theorem memberRecords_of_due (hr : c.gRuns g = true) (hf : c.frame % 64 = 0) (ho : c.orReady = true) :
    c.memberRecords m g = (c.srExit, (c.members (c.group g).eff).zipIdx.map fun q =>
      .write (orBase + 0x1A000000 + g * 0x800 + q.2 * 8) (c.memberRecord g q.2 q.1)) := by
  have hv : gValid (c.group g).eff = true := (Bool.and_eq_true_iff.mp hr).1
  exact if_pos (by simp [hv, hf, ho])

theorem memberRecords_of_not (h : c.frame % 64 ≠ 0 ∨ c.orReady = false) : c.memberRecords m g = (c, []) := by
  refine if_neg ?_
  rcases h with h | h <;> simp [h]

end MemberRecords

/-- Settles O31: a group's LOA by what it leaves, each report by whether its run is due, the records by the frame and the store. -/
theorem groupsReportAndRecord : Obligations.GroupsReportAndRecord := by
  unfold Obligations.GroupsReportAndRecord
  intro c m g sl hr y d x cyc
  have hloa (s) : exec (.groupLoa g) s = s.on (·.groupLoa g.val) := rfl
  have hfail (s) : exec (.mstFail g sl) s = s.on (·.mstFail g.val sl.val) := rfl
  have hok (s) : exec (.mstOk g sl) s = s.on (·.mstOk g.val sl.val) := rfl
  have hack (s) : exec (.rsAckToggle g) s = s.on (·.rsAckToggle g.val) := rfl
  have hrec (s) : exec (.memberRecordWrite g) s = s.onMem (·.memberRecords · g.val) := rfl
  refine ⟨fun hn h2 => reaches_of_on hloa ?_, fun h => goes_of_on hloa (groupLoa_of_not h),
    fun hs hm hl hf ho hn => goes_of_on hfail (mstFail_of_due hr hs hm hl hf ho hn), fun h => goes_of_on hfail (mstFail_of_not h),
    fun hs hm hl hf ho hk hn => goes_of_on hok (mstOk_of_due hr hs hm hl hf ho hk hn), fun h => goes_of_on hok (mstOk_of_not h),
    fun hs hm hl hp hn => goes_of_on hack (rsAckToggle_of_stood hr hs hm hl hp hn), fun h => goes_of_on hack (rsAckToggle_of_not h),
    fun hf ho => goesMem_of_onMem hrec (memberRecords_of_due hr hf ho) rfl,
    fun h => goesMem_of_onMem hrec (memberRecords_of_not h) (Core.rewrote_nil c)⟩
  obtain ⟨hg, hst, hregs, htbl, hslots⟩ := shown_groupLoa hr hn h2
  exact ⟨hg, hst, hregs, htbl, fun s h _ => hslots s h⟩

end Sys2Proof.Proofs

/-! The obligations of the Reservoir (chapter 8): the HBM's canonical form, initialisation, host access to the Open Reservoir, errors of the
HBM's words, and the boundary of a commit. -/

namespace Sys2Proof.Proofs

open Sys2Proof Sys2Proof.Machine Sys2Proof.Safety

/-! ## The HBM changes by effects only (R237) -/

/-- Every command leaves the HBM as a list of effects makes it: the rows that write to it give theirs, the others none. -/
theorem exec_hbm (i : Instr) (s : State) :
    ∃ c ops, exec i s = .next { core := c, hbm := memRun s.hbm ops, pending := s.pending } := by
  cases i
  case harvest | harvestLate | memberRecordWrite | rsvInitStep | hdmRead | hdmWrite | bar4Access | commitTake | gaugeOutputSample | cuResult |
      chipResetEntry | powerOnReset | fwLoad | restartVerifyEnd | restartTimeout | capsule | ledgerWrite | frameBoundary | leveeTick =>
    exact ⟨_, _, rfl⟩
  all_goals exact ⟨_, [], rfl⟩

/-- Settles O3: a step that runs a command changes the HBM by effects, and each keeps the canonical form. -/
theorem theHbmStaysCanonical : Obligations.TheHbmStaysCanonical := by
  unfold Obligations.TheHbmStaysCanonical
  intro s t hw hs
  cases hp : s.pending with
  | nil =>
    rw [step_of_nil hp] at hs
    cases hs
    exact hw
  | cons i rest =>
    obtain ⟨c, ops, he⟩ := exec_hbm i { s with pending := rest }
    rw [step_of_cons hp, he] at hs
    cases hs
    exact memRun_wf ops _ hw

/-! ## Initialisation (R241, R242) -/

section Init

variable {c : Core} {m : List Host.Cell} {st : InitStep}

/-- The bit of RSV_INIT that the end of a step sets; the parts of the traffic store come before the last (Table 8-12). -/
def initBit : InitStep → Nat
  | .trained => 0
  | .ret => 1
  | .openRes => 2
  | .part _ => 3
  | .traffic => 3

/-- The step that ends with bit `k` may be taken: the island is up, nothing has failed, and the steps before it alone are done. -/
def initAt (c : Core) (k : Nat) : Bool :=
  c.gb (lev 0x204) 3 && !c.gb (rsv 0x204) 4 && !c.gb (rsv 0x204) k && (k = 0 || c.gb (rsv 0x204) (k - 1))

/-- What a step shows, and what it zeroes. -/
def initShown (c : Core) : InitStep → Core × List MemOp
  | .trained => (c.sb (rsv 0x204) 0 true, [])
  | .ret => (c.sb (rsv 0x204) 1 true, [.clear 0x3C0000000 0x400000000])
  | .openRes => ((c.sb (rsv 0x204) 2 true).sb (hif 0x204) 1 true, [.clear 0x380000000 0x3C0000000])
  | .part n => (c.sf (rsv 0x204) 8 8 n.val, [])
  | .traffic => (((c.sb (rsv 0x204) 3 true).sf (rsv 0x204) 8 8 100).ev (rsv 0x400) (bit 7), [.clear 0 0x380000000])

theorem initStep_eq : c.initStep m st = if initAt c (initBit st) then initShown c st else (c, []) := by
  cases st <;> rfl

/-- A step in its order: the island up, no failure, its bit unset and the one before it set. -/
theorem goesMem_initStep {ops : List MemOp} {d : Core} (hi : c.gb (lev 0x204) 3 = true) (hf : c.gb (rsv 0x204) 4 = false)
    (hk : c.gb (rsv 0x204) (initBit st) = false) (hb : initBit st = 0 ∨ c.gb (rsv 0x204) (initBit st - 1) = true)
    (hd : initShown c st = (d, ops)) : GoesMem (.rsvInitStep st) c m (d.rewrote ops) ops := by
  have h : initAt c (initBit st) = true := by simpa [initAt, hi, hf, hk] using hb
  exact goesMem_of_onMem (f := (·.initStep · st)) (fun _ => rfl) (initStep_eq.trans ((if_pos h).trans hd)) rfl

/-- A step that zeroes nothing. -/
theorem goesMem_initStep_shown {d : Core} (hi : c.gb (lev 0x204) 3 = true) (hf : c.gb (rsv 0x204) 4 = false)
    (hk : c.gb (rsv 0x204) (initBit st) = false) (hb : initBit st = 0 ∨ c.gb (rsv 0x204) (initBit st - 1) = true)
    (hd : initShown c st = (d, [])) : GoesMem (.rsvInitStep st) c m d [] :=
  Core.rewrote_nil d ▸ goesMem_initStep hi hf hk hb hd

theorem goesMem_initStep_refused (h : initAt c (initBit st) = false) : GoesMem (.rsvInitStep st) c m c [] :=
  goesMem_of_onMem (f := (·.initStep · st)) (fun _ => rfl) (initStep_eq.trans (if_neg (ne_true_of_eq_false h))) (Core.rewrote_nil c)

theorem initAt_of_done {k : Nat} (h : c.gb (rsv 0x204) k = true) : initAt c k = false := by simp [initAt, h]
theorem initAt_of_early {k : Nat} (h : c.gb (rsv 0x204) k = false) : initAt c (k + 1) = false := by simp [initAt, h]
theorem initAt_of_stopped {k : Nat} (h : c.gb (lev 0x204) 3 = false ∨ c.gb (rsv 0x204) 4 = true) : initAt c k = false := by
  rcases h with h | h <;> simp [initAt, h]

/-- A step too early, or taken a second time. -/
theorem initAt_of_outOfOrder {k : Nat} (h : c.gb (rsv 0x204) k = false ∨ c.gb (rsv 0x204) (k + 1) = true) : initAt c (k + 1) = false :=
  h.elim initAt_of_early initAt_of_done

theorem initFail_of_running (hi : c.gb (lev 0x204) 3 = true) (hf : c.gb (rsv 0x204) 4 = false) (ht : c.gb (rsv 0x204) 3 = false) :
    c.initFail = ((c.sb (rsv 0x204) 4 true).ev (rsv 0x400) (bit 8)).report 106 := if_pos (by simp [hi, hf, ht])

theorem initFail_of_over (h : c.gb (lev 0x204) 3 = false ∨ c.gb (rsv 0x204) 4 = true ∨ c.gb (rsv 0x204) 3 = true) : c.initFail = c := by
  refine if_neg ?_
  rcases h with h | h | h <;> simp [h]

end Init

/-- Settles O32: each step by whether it is its turn, the failure by whether the initialisation is still under way. -/
theorem theStoreComesUpInOrder : Obligations.TheStoreComesUpInOrder := by
  unfold Obligations.TheStoreComesUpInOrder
  intro c m r
  have hfail (s) : exec .initFail s = s.on (·.initFail) := rfl
  refine ⟨fun hi hf => ⟨fun h0 => ?_, fun h0 h1 => ?_, fun h1 h2 => ?_, fun h2 h3 => ⟨fun n => ?_, ?_⟩, fun h3 => ?_⟩, fun h => ?_, fun h => ?_,
    fun h => ?_, fun h => ⟨?_, fun n => ?_⟩, fun h => ⟨?_, fun st => ?_⟩, fun h => ?_⟩
  · exact goesMem_initStep_shown (st := .trained) hi hf h0 (.inl rfl) rfl
  · exact goesMem_initStep (st := .ret) hi hf h1 (.inr h0) rfl
  · exact goesMem_initStep (st := .openRes) hi hf h2 (.inr h1) rfl
  · exact goesMem_initStep_shown (st := .part n) hi hf h3 (.inr h2) rfl
  · exact goesMem_initStep (st := .traffic) hi hf h3 (.inr h2) rfl
  · exact goes_of_on hfail (initFail_of_running hi hf h3)
  · exact goesMem_initStep_refused (st := .trained) (initAt_of_done h)
  · exact goesMem_initStep_refused (st := .ret) (initAt_of_outOfOrder h)
  · exact goesMem_initStep_refused (st := .openRes) (initAt_of_outOfOrder h)
  · exact goesMem_initStep_refused (st := .traffic) (initAt_of_outOfOrder h)
  · exact goesMem_initStep_refused (st := .part n) (initAt_of_outOfOrder h)
  · exact goes_of_on hfail (initFail_of_over (h.imp_right .inl))
  · exact goesMem_initStep_refused (initAt_of_stopped h)
  · exact goes_of_on hfail (initFail_of_over (.inr (.inr h)))

/-! ## Host access to the Open Reservoir (R238–R242, R384, R385) -/

section OpenReservoir

variable {c : Core} {m : List Host.Cell} {o n : Nat} {bs : List Byte}

/-- The cells that bytes from an address on lie in. -/
def cellsIn (a n : Nat) : Nat := (a + n + 31) / 32 - a / 32

/-- An aligned line lies in two cells. -/
theorem cellsIn_line (l : Nat) : cellsIn (orBase + l * 64) 64 = 2 := by simp only [cellsIn, orBase]; omega

/-- A write is discarded and counted; the host's access completes (R239, R242). -/
def writeDropped (c : Core) : Core := (({ c with linkOut := [.done] } : Core).cn (rsv 0x51C) 1).ev (rsv 0x400) (bit 10)

theorem orPoison_of_notReady (h : c.orReady = false) : c.orPoison o n = true := by simp [Core.orPoison, h]

theorem orRead_of_notReady (h : c.orReady = false) : c.orRead m o n = { c with linkOut := [.poison] } := if_pos (by simp [h])

theorem orRead_of_good (h : c.orReady = true) (hp : c.orPoison o n = false) :
    c.orRead m o n = { c.hdmWake.cn (rsv 0x534) (cellsIn (orBase + o) n) with linkOut := [.bytes (memBytes m (orBase + o) n)] } := by
  simp only [Core.orRead, h, hp, Bool.not_true, Bool.false_eq_true, if_false]
  rfl

theorem orRead_of_bad (h : c.orReady = true) (hp : c.orPoison o n = true) :
    c.orRead m o n = { c.hdmWake.cn (rsv 0x534) (cellsIn (orBase + o) n) with linkOut := [.poison] } := by
  simp only [Core.orRead, h, hp, Bool.not_true, Bool.false_eq_true, if_false, if_true]
  rfl

/-- A write is discarded before OR_READY and into the range of the records (Table 8-10). -/
theorem orWrite_of_dropped (h : c.orReady = false ∨ (0x10000000 ≤ o ∧ o < 0x20000000)) : c.orWrite o bs = (writeDropped c, []) := by
  refine if_pos ?_
  rcases h with h | ⟨h1, h2⟩
  · have hs : (c.send .done).orReady = false := h
    rw [hs]
    rfl
  · simp [h1, h2]

theorem orWrite_of_ready (h : c.orReady = true) (ho : o < 0x10000000 ∨ 0x20000000 ≤ o) :
    c.orWrite o bs = (({ c with linkOut := [.done] } : Core).hdmWake.cn (rsv 0x538) (cellsIn (orBase + o) bs.length), [.write (orBase + o) bs]) := by
  refine if_neg ?_
  have hs : (c.send .done).orReady = true := h
  rw [hs]
  simp only [Bool.not_true, Bool.false_or, Bool.and_eq_true, decide_eq_true_eq]
  omega

theorem hdmRead_of_off {l : Nat} (h : c.hdmOn = false) : c.hdmRead m l = ({ c with linkOut := [.noLink] }, []) := by
  rw [Core.hdmRead, h]
  rfl
theorem hdmRead_of_on {l : Nat} (h : c.hdmOn = true) : c.hdmRead m l = (c.orRead m (l * 64) 64, []) := if_pos h
theorem hdmWrite_of_off {l : Nat} (h : c.hdmOn = false) : c.hdmWrite m l bs = ({ c with linkOut := [.noLink] }, []) := by
  rw [Core.hdmWrite, h]
  rfl
theorem hdmWrite_of_on {l : Nat} (h : c.hdmOn = true) : c.hdmWrite m l bs = c.orWrite (l * 64) (bs.take 64) := if_pos h

/-! ### BAR4 -/

variable {x : Bar4}

/-- The forms that BAR4 serves: aligned words within a line (R385). -/
def Bar4Form (x : Bar4) : Prop :=
  4 ≤ x.bytes ∧ x.bytes % 4 = 0 ∧ x.addr.toNat % 4 = 0 ∧ x.addr.toNat % 64 + x.bytes ≤ 64

theorem Bar4Form.served (h : Bar4Form x) :
    ¬(x.bytes < 4 ∨ 64 < x.bytes ∨ x.bytes % 4 ≠ 0 ∨ x.addr.toNat % 4 ≠ 0 ∨ 64 < x.addr.toNat % 64 + x.bytes) := by
  obtain ⟨h4, hw, ha, hl⟩ := h
  omega

theorem bar4_of_down (h : c.gb (hif 0x200) 0 = false) : c.bar4 m x = ({ c with linkOut := [.noLink] }, []) := if_pos (by simp [h])

section PcieMode

variable (hl : c.gb (hif 0x200) 0 = true) (hp : c.gb (hif 0x200) 1 = false)
include hl hp

theorem bar4_of_lowRead (ha : x.addr.toNat < 0x40000000) (hd : x.data = none) :
    c.bar4 m x = ({ c with linkOut := [.bytes (List.replicate x.bytes 0)] }, []) := by
  simp only [Core.bar4, hl, hp, ha, hd, Bool.not_true, Bool.false_eq_true, if_false, if_true]
  rfl

theorem bar4_of_lowWrite (ha : x.addr.toNat < 0x40000000) (hd : x.data = some bs) : c.bar4 m x = ({ c with linkOut := [.done] }, []) := by
  simp only [Core.bar4, hl, hp, ha, hd, Bool.not_true, Bool.false_eq_true, if_false, if_true]
  rfl

theorem bar4_of_badForm (ha : 0x40000000 ≤ x.addr.toNat)
    (hf : x.bytes < 4 ∨ x.bytes % 4 ≠ 0 ∨ x.addr.toNat % 4 ≠ 0 ∨ 64 < x.addr.toNat % 64 + x.bytes) :
    c.bar4 m x = ({ c with linkOut := [.abort] }, []) := by
  have hf' : x.bytes < 4 ∨ 64 < x.bytes ∨ x.bytes % 4 ≠ 0 ∨ x.addr.toNat % 4 ≠ 0 ∨ 64 < x.addr.toNat % 64 + x.bytes := by omega
  simp only [Core.bar4, hl, hp, Nat.not_lt.mpr ha, Bool.not_true, Bool.false_eq_true, if_false]
  exact if_pos hf'

/-- In a form that is served, the Open Reservoir's own offset counts from 0x40000000 (Table 13-1). -/
theorem bar4_of_read (ha : 0x40000000 ≤ x.addr.toNat) (hf : Bar4Form x) (hd : x.data = none) :
    c.bar4 m x = (c.orRead m (x.addr.toNat - 0x40000000) x.bytes, []) := by
  simp only [Core.bar4, hl, hp, hd, Nat.not_lt.mpr ha, Bool.not_true, Bool.false_eq_true, if_false]
  exact if_neg hf.served

theorem bar4_of_write (ha : 0x40000000 ≤ x.addr.toNat) (hf : Bar4Form x) (hd : x.data = some bs) (hb : bs.length = x.bytes) :
    c.bar4 m x = c.orWrite (x.addr.toNat - 0x40000000) bs := by
  simp only [Core.bar4, hl, hp, hd, Nat.not_lt.mpr ha, Bool.not_true, Bool.false_eq_true, if_false]
  exact (if_neg hf.served).trans (by rw [List.take_of_length_le hb.le])

end PcieMode

/-! ### Cells that hold good words again (R240) -/

/-- Of the bad cells, those stay that no list of effects has rewritten whole. -/
theorem mem_badCells_rewrote {ops : List MemOp} {k : Nat} :
    k ∈ (c.rewrote ops).rsvS.badCells ↔ k ∈ c.rsvS.badCells ∧ ∃ j, j < 32 ∧ ∀ op ∈ ops, op.hits (32 * k + j) = false := by
  unfold Core.rewrote
  dsimp only
  split
  next h => simp [h]
  next => simp

end OpenReservoir

/-- Settles O33: the window and BAR4 each lead to `orRead` and `orWrite`, told apart by OR_READY, the bad words and the range. -/
theorem theOpenReservoirIsReadAndWritten : Obligations.TheOpenReservoirIsReadAndWritten := by
  unfold Obligations.TheOpenReservoirIsReadAndWritten
  intro c m a s dropped
  have hread (line s) : exec (.hdmRead line) s = s.onMem (·.hdmRead · line.toNat) := rfl
  have hwrite (line bs s) : exec (.hdmWrite line bs) s = s.onMem (·.hdmWrite · line.toNat bs) := rfl
  have hbar (x s) : exec (.bar4Access x) s = s.onMem (·.bar4 · x) := rfl
  have ha (line : BitVec 24) : a line = orBase + line.toNat * 64 := by simp only [a, orBase, Nat.mul_comm]
  refine ⟨fun hon hr => ⟨fun line hp => ?_, fun line hp => ?_, fun line bs hb ho => ?_, fun line bs h1 h2 => ?_⟩,
    fun hon hr line bs => ⟨?_, ?_⟩, fun hoff line bs => ⟨?_, ?_⟩, fun hd x => ?_, fun hl hp x => ⟨fun hlo => ⟨fun hd => ?_, fun bs hd => ?_⟩,
    fun hhi => ⟨fun hf => ?_, fun h4 hw haw hln => ⟨fun hd hr => ⟨fun hg => ?_, fun hg => ?_⟩, fun hd hr => ?_, fun bs hd hb =>
    ⟨fun hr ho => ?_, fun h => ?_⟩⟩⟩⟩, fun d ops k => mem_badCells_rewrote⟩
  · rw [Nat.mul_comm] at hp
    refine goesMem_of_onMem (hread line) ((hdmRead_of_on hon).trans ?_) (Core.rewrote_nil _)
    rw [orRead_of_good hr hp, cellsIn_line, ha]
  · rw [Nat.mul_comm] at hp
    refine goesMem_of_onMem (hread line) ((hdmRead_of_on hon).trans ?_) (Core.rewrote_nil _)
    rw [orRead_of_bad hr hp, cellsIn_line]
  · refine goesMem_of_onMem (hwrite line bs) ((hdmWrite_of_on hon).trans ?_) rfl
    rw [List.take_of_length_le hb.le, orWrite_of_ready hr (by omega), hb, cellsIn_line, ha]
  · exact goesMem_of_onMem (hwrite line bs) ((hdmWrite_of_on hon).trans (orWrite_of_dropped (.inr (by omega)))) (Core.rewrote_nil _)
  · refine goesMem_of_onMem (hread line) ((hdmRead_of_on hon).trans ?_) (Core.rewrote_nil _)
    rw [orRead_of_notReady hr]
  · exact goesMem_of_onMem (hwrite line bs) ((hdmWrite_of_on hon).trans (orWrite_of_dropped (.inl hr))) (Core.rewrote_nil _)
  · exact goesMem_of_onMem (hread line) (hdmRead_of_off hoff) (Core.rewrote_nil _)
  · exact goesMem_of_onMem (hwrite line bs) (hdmWrite_of_off hoff) (Core.rewrote_nil _)
  · exact goesMem_of_onMem (hbar x) (bar4_of_down hd) (Core.rewrote_nil _)
  · exact goesMem_of_onMem (hbar x) (bar4_of_lowRead hl hp hlo hd) (Core.rewrote_nil _)
  · exact goesMem_of_onMem (hbar x) (bar4_of_lowWrite hl hp hlo hd) (Core.rewrote_nil _)
  · exact goesMem_of_onMem (hbar x) (bar4_of_badForm hl hp hhi hf) (Core.rewrote_nil _)
  · exact goesMem_of_onMem (hbar x) ((bar4_of_read hl hp hhi ⟨h4, hw, haw, hln⟩ hd).trans (congrArg (·, []) (orRead_of_good hr hg)))
      (Core.rewrote_nil _)
  · exact goesMem_of_onMem (hbar x) ((bar4_of_read hl hp hhi ⟨h4, hw, haw, hln⟩ hd).trans (congrArg (·, []) (orRead_of_bad hr hg)))
      (Core.rewrote_nil _)
  · exact goesMem_of_onMem (hbar x) ((bar4_of_read hl hp hhi ⟨h4, hw, haw, hln⟩ hd).trans (congrArg (·, []) (orRead_of_notReady hr)))
      (Core.rewrote_nil _)
  · refine goesMem_of_onMem (hbar x) ((bar4_of_write hl hp hhi ⟨h4, hw, haw, hln⟩ hd hb).trans (orWrite_of_ready hr ho)) ?_
    rw [hb]
    rfl
  · exact goesMem_of_onMem (hbar x) ((bar4_of_write hl hp hhi ⟨h4, hw, haw, hln⟩ hd hb).trans (orWrite_of_dropped h)) (Core.rewrote_nil _)

/-! ## Errors of the HBM's words, the scrub and the temperature (R265–R268, R270) -/

section Ecc

variable {c d : Core} {k : EccKind} {cell synd a n t : Nat} {ok : Bool}

/-- The kind of an error as RSV_ECC_INFO shows it (Table 8-12). -/
def eccCode : EccKind → Nat
  | .ue => 1
  | .md => 2

/-- The region of a cell: the traffic store, the Open Reservoir or the retained region (Table 8-1). -/
def eccRegion (cell : Nat) : Nat := if cell < storeCells then 0 else if cell < storeCells + 33554432 then 1 else 2

/-- An error counted, recorded with its address and what is known of it, and reported. -/
def eccNoted (b : Core) (k : EccKind) (cell synd : Nat) : Core :=
  let d := (b.cn (rsv (0x500 + 4 * eccCode k)) 1).ev (rsv 0x408) (bit (eccCode k))
  (((d.wr (rsv 0x240) (BitVec.ofNat 32 (32 * cell))).wr (rsv 0x244) (BitVec.ofNat 32 (32 * cell / 2 ^ 32))).wr (rsv 0x248)
    (BitVec.ofNat 32 (eccCode k + eccRegion cell * 4 + cell % 16 * 16 + synd * 256))).report 102

/-- A retry is made: the word is the traffic store's, and retries are on (R266). -/
def retries (c : Core) (cell : Nat) : Bool := eccRegion cell = 0 && c.gb (rsv 0x40) 8

def retryCounted (c : Core) (cell : Nat) : Core := if retries c cell then c.cn (rsv 0x518) 1 else c

theorem eccRegion_of_store (h : cell < storeCells) : eccRegion cell = 0 := if_pos h

theorem eccRegion_of_kept (h : storeCells ≤ cell) : eccRegion cell ≠ 0 := by
  rw [eccRegion, if_neg (Nat.not_lt.mpr h)]
  split <;> decide

theorem eccNoted_frame : eccNoted c k cell synd =
    { c with regs := (eccNoted c k cell synd).regs, reports := (eccNoted c k cell synd).reports } := by
  rw [eccNoted, report_frame, cn_frame]
  rfl

theorem mem_report : n ∈ (c.report n).reports := by
  unfold Core.report
  split
  · assumption
  · simp

/-- The cell among those with a bad word (R240). -/
def cellMarked (d : Core) (cell : Nat) : Core :=
  { d with rsvS := { d.rsvS with badCells := (d.rsvS.badCells.filter (· ≠ cell)) ++ [cell] } }

/-- What is sent in the running frame, changed where a lost word was to be sent. -/
def onesOver (d : Core) (sent : List Sent) : Core := { d with rsvS := { d.rsvS with sent := sent } }

theorem retries_of_store (h : cell < storeCells) : retries c cell = c.gb (rsv 0x40) 8 := by simp [retries, eccRegion_of_store h]
theorem retries_of_kept (h : storeCells ≤ cell) : retries c cell = false := by simp [retries, eccRegion_of_kept h]

/-- An error by whether a retry succeeds, and else by the region: outside the traffic store the cell is marked (R240); in it what was sent of
the word is sent as all-ones, and the loss of a header counts for the readers that met it (R266, R267). -/
theorem eccUe_cases (c : Core) (k : EccKind) (cell synd : Nat) (ok : Bool) :
    let d := eccNoted (retryCounted c cell) k cell synd
    ∃ sent met, c.eccUe k cell synd ok =
      if retries c cell && ok then retryCounted c cell
      else if eccRegion cell ≠ 0 then cellMarked d cell
      else if 0 < met then ((onesOver d sent).cn (rsv 0x50C) met).ev (rsv 0x400) (bit 4) else onesOver d sent := by
  unfold Core.eccUe
  lift_lets
  extract_lets d region retry c1 ue c2 c3 c4 c5 marked hit span inSpan header met c6
  have h5 : c5 = d := by cases k <;> rfl
  have h6 : c6 = onesOver d c6.rsvS.sent := h5 ▸ rfl
  refine ⟨c6.rsvS.sent, if header then met else 0, ?_⟩
  refine ite_congr rfl (fun _ => rfl) fun _ => ite_congr rfl (fun _ => congrArg (cellMarked · cell) h5) fun _ => ?_
  rw [← h6]
  by_cases hh : header = true
  · simp [hh]
  · simp [hh]

theorem eccUe_of_kept (h : storeCells ≤ cell) : c.eccUe k cell synd ok = cellMarked (eccNoted c k cell synd) cell := by
  obtain ⟨sent, met, he⟩ := eccUe_cases c k cell synd ok
  have hc : retryCounted c cell = c := if_neg (by simp [retries_of_kept h])
  rw [he, hc, if_neg (by simp [retries_of_kept h]), if_pos (eccRegion_of_kept h)]

theorem eccUe_of_retried (h : cell < storeCells) (hr : c.gb (rsv 0x40) 8 = true) :
    c.eccUe k cell synd true = c.cn (rsv 0x518) 1 := by
  obtain ⟨sent, met, he⟩ := eccUe_cases c k cell synd true
  have hs : retries c cell = true := (retries_of_store h).trans hr
  rw [he, if_pos (by simp [hs]), retryCounted, if_pos hs]

/-- A word of the traffic store that is lost: whatever was sent of it, the record of it is made, and no cell is marked. -/
theorem eccUe_of_lost (h : cell < storeCells) (hr : c.gb (rsv 0x40) 8 = false ∨ ok = false) :
    let d := eccNoted (retryCounted c cell) k cell synd
    (c.eccUe k cell synd ok).rsvS.badCells = c.rsvS.badCells ∧ (c.eccUe k cell synd ok).reports = d.reports ∧
      ∀ a, a ≠ rsv 0x50C → a ≠ rsv 0x400 → (c.eccUe k cell synd ok).rd a = d.rd a := by
  obtain ⟨sent, met, he⟩ := eccUe_cases c k cell synd ok
  have hno : ¬(retries c cell && ok) = true := by
    rw [retries_of_store h]
    rcases hr with hr | hr <;> simp [hr]
  have hbad : (retryCounted c cell).rsvS = c.rsvS := by
    unfold retryCounted
    split
    · rw [cn_frame]
    · rfl
  have hd : (eccNoted (retryCounted c cell) k cell synd).rsvS.badCells = c.rsvS.badCells := by rw [eccNoted_frame, hbad]
  rw [he, if_neg hno, if_neg (not_not.mpr (eccRegion_of_store h))]
  split
  · rw [cn_frame]
    exact ⟨hd, rfl, fun a h5 h4 => (rd_ev_ne _ h4).trans ((rd_cn_ne _ h5).trans rfl)⟩
  · exact ⟨hd, rfl, fun _ _ _ => rfl⟩

/-- A scrub pass counted with the words it rewrote, and its progress started anew (R268). -/
def scrubShown (c : Core) (n : Nat) : Core :=
  let d := ((c.cn (rsv 0x52C) n).cn (rsv 0x500) n).ev (rsv 0x408) (bit 5 ||| if n = 0 then 0 else bit 0)
  (d.sf (rsv 0x254) 0 16 (d.gf (rsv 0x254) 0 16 + 1)).wr (rsv 0x250) 0

theorem ceSec_cn : (c.cn a n).ceSec = c.ceSec := by rw [cn_frame]

theorem ceSec_scrubShown : (scrubShown c n).ceSec = c.ceSec := Eq.trans ceSec_cn ceSec_cn

theorem scrubPass_of_running (h : c.scrubs = true) : c.scrubPass n = { scrubShown c n with ceSec := c.ceSec + n } :=
  (if_pos h).trans (congrArg (fun k => ({ scrubShown c n with ceSec := k + n } : Core)) ceSec_scrubShown)

theorem scrubPass_of_stopped (h : c.scrubs = false) : c.scrubPass n = c := if_neg (ne_true_of_eq_false h)

theorem scrubs_of_not (h : c.gb (rsv 0x44) 16 = false ∨ c.gb (rsv 0x204) 3 = false ∨ c.gb (rsv 0x204) 4 = true ∨ c.gb (rsv 0x200) 8 = true) :
    c.scrubs = false := by
  rcases h with h | h | h | h <;> simp [Core.scrubs, Core.selfRefresh, h]

/-- RSV_HBM_TEMP with the flags of a temperature (Table 8-12). -/
def tempShown (c : Core) (t : Nat) : Core :=
  c.wr (rsv 0x258) (BitVec.ofNat 32 (t + (if 95 ≤ t then 256 else 0) + (if 85 ≤ t then 512 else 0)))

theorem hbmTemp_of_rise (h : 95 ≤ t) (hw : c.gb (rsv 0x258) 8 = false) :
    c.hbmTemp t = ((tempShown c t).ev (rsv 0x400) (bit 9)).report 106 := if_pos ⟨h, hw⟩

theorem hbmTemp_of_noRise (h : t < 95 ∨ c.gb (rsv 0x258) 8 = true) : c.hbmTemp t = tempShown c t := by
  refine if_neg ?_
  rintro ⟨ht, hw⟩
  rcases h with h | h
  · omega
  · simp [hw] at h

end Ecc

/-- Settles O34: an error by its region and its retry, the scrub by whether it runs, a temperature by whether HOT rises. -/
theorem hbmErrorsAreRecorded : Obligations.HbmErrorsAreRecorded := by
  unfold Obligations.HbmErrorsAreRecorded
  intro c
  have hecc (k cell synd ok s) : exec (.eccUncorrectable k cell synd ok) s = s.on (·.eccUe k cell.toNat synd.toNat ok) := rfl
  have hscrub (n s) : exec (.scrubPass n) s = s.on (·.scrubPass n) := rfl
  have htemp (t s) : exec (.hbmHot t) s = s.on (·.hbmTemp t.toNat) := rfl
  refine ⟨?_, fun n hen hi hf hs => goes_of_on (hscrub n) (scrubPass_of_running ?_),
    fun n h => goes_of_on (hscrub n) (scrubPass_of_stopped (scrubs_of_not h)),
    fun t => ⟨fun h => goes_of_on (htemp t) (hbmTemp_of_noRise h), fun h hw => goes_of_on (htemp t) (hbmTemp_of_rise h hw)⟩⟩
  · intro k cell syn code region noted
    have hn (b : Core) : eccNoted b k cell.toNat syn.toNat = noted b := by cases k <;> rfl
    refine ⟨fun h ok => ?_, fun h hr => goes_of_on (hecc k cell syn true) (eccUe_of_retried h hr), fun h ok hr => ?_⟩
    · exact goes_of_on (hecc k cell syn ok) ((eccUe_of_kept h).trans (by rw [hn]; rfl))
    · have hb : retryCounted c cell.toNat = if c.gb (rsv 0x40) 8 then c.cn (rsv 0x518) 1 else c := by rw [retryCounted, retries_of_store h]
      obtain ⟨hbad, hrep, hrd⟩ := eccUe_of_lost (k := k) (synd := syn.toNat) h hr
      rw [hb, hn] at hrep hrd
      exact reaches_of_on (hecc k cell syn ok) ⟨hbad, hrep ▸ mem_report, hrd⟩
  · simp [Core.scrubs, Core.selfRefresh, hen, hi, hf, hs]

/-! ## The post-commit copy (R261) -/

section Copy

variable {c : Core} {lo hi dst k i w : Nat}

/-- Words of a table written from a list of keys, each moved from `lo` on to `dst` on. -/
theorem trd_forL_moved (f : Nat → Word) (l : SMap Word) (x : Core) (hl : ∀ j ∈ l.map (·.1), lo ≤ j) :
    (forL l (fun q e => e.twr (dst + (q.1 - lo)) (f q.1)) x).trd (dst + i) =
      if lo + i ∈ l.map (·.1) then f (lo + i) else x.trd (dst + i) := by
  induction l generalizing x with
  | nil => simp [forL]
  | cons q l ih =>
    rw [List.map_cons, List.forall_mem_cons] at hl
    have hk : dst + i = dst + (q.1 - lo) ↔ lo + i = q.1 := by have := hl.1; omega
    refine (ih (x.twr (dst + (q.1 - lo)) (f q.1)) hl.2).trans ?_
    by_cases h : lo + i = q.1
    · simp [Core.trd_twr, hk.mpr h, h]
    · simp only [Core.trd_twr, mt hk.mp h, h, List.map_cons, List.mem_cons, if_false, false_or]

/-- Words at other keys. -/
theorem trd_forL_twr_ne (g : Nat × Word → Nat) (f : Nat × Word → Word) (l : SMap Word) (x : Core) (h : ∀ q ∈ l, k ≠ g q) :
    (forL l (fun q e => e.twr (g q) (f q)) x).trd k = x.trd k := by
  induction l generalizing x with
  | nil => rfl
  | cons q l ih =>
    rw [List.forall_mem_cons] at h
    exact (ih (x.twr (g q) (f q)) h.2).trans ((Core.trd_twr ..).trans (if_neg h.1))

theorem regs_copyPlane : (c.copyPlane lo hi dst).regs = c.regs := by
  unfold Core.copyPlane
  exact forL_induct (fun d : Core => d.regs = c.regs) (fun q d h => (Core.twr_regs d _ _).trans h) _ rfl

/-- The words of a plane's range as they stand in the range it is copied from. -/
theorem trd_copyPlane (h : lo + i < hi) : (c.copyPlane lo hi dst).trd (dst + i) = c.trd (lo + i) := by
  have hl : ∀ j ∈ (Sparse.range lo hi c.tbl).map (·.1), lo ≤ j := fun j hj => ((mem_range_keys _).mp hj).2.1
  refine (trd_forL_moved c.trd _ _ hl).trans ?_
  by_cases hm : lo + i ∈ c.tbl.map (·.1)
  · rw [if_pos ((mem_range_keys _).mpr ⟨hm, by omega, h⟩)]
  · rw [if_neg fun hr => hm ((mem_range_keys _).mp hr).1, Core.trd, Sparse.get_clear, if_pos (by omega), Core.trd, get_of_not_mem hm]

/-- The words outside the range copied to. -/
theorem trd_copyPlane_ne (h : k < dst ∨ dst + (hi - lo) ≤ k) : (c.copyPlane lo hi dst).trd k = c.trd k := by
  refine (trd_forL_twr_ne _ (fun q => c.trd q.1) _ _ fun q hq => ?_).trans ?_
  · have hr := ((mem_range_keys _).mp (List.mem_map_of_mem (f := (·.1)) hq)).2
    omega
  · rw [Core.trd, Sparse.get_clear, if_neg (by omega), Core.trd]

/-- The XMAP plane that is not active made equal to the active one. -/
def xmapCopied (c : Core) : Core :=
  let x := c.mapsNow.x
  (c.copyPlane (xmap x 0) (xmap x 137216) (xmap (1 - x) 0)).sb (rsv 0x200) 2 true

/-- The PMAP plane, named by the maps in effect before the copy. -/
def pmapCopied (c : Core) (p : Nat) : Core := (c.copyPlane (pmap p 0 0) (pmap p 16384 0) (pmap (1 - p) 0 0)).sb (rsv 0x200) 3 true

/-- The planes unlocked, and the request no longer busy (R258, R261). -/
def planesUnlocked (c : Core) : Core :=
  let d := ((c.sb (rsv 0x200) 4 false).sb (rsv 0x200) 5 false).sb (rsv 0x208) 0 false
  { d with rsvS := { d.rsvS with copy := 0 } }

theorem copyEnd_of_both (h : c.rsvS.copy = 3) : c.copyEnd = planesUnlocked (pmapCopied (xmapCopied c) c.mapsNow.p) := by
  simp only [Core.copyEnd, h]
  rfl

theorem trd_xmapCopied (h : i < 137216) : (xmapCopied c).trd (xmap (1 - c.mapsNow.x) i) = c.trd (xmap c.mapsNow.x i) := by
  have hk (x : Nat) : xmap x i = xmap x 0 + i := by simp only [xmap, tkey]; omega
  rw [hk, hk]
  exact trd_copyPlane (by simp only [xmap, tkey]; omega)

theorem trd_xmapCopied_pmap {p : Nat} (hi : i < 16384) (hw : w < 4) : (xmapCopied c).trd (pmap p i w) = c.trd (pmap p i w) := by
  refine trd_copyPlane_ne (.inr ?_)
  simp only [xmap, pmap, tkey]
  have := plane_lt (c := c)
  omega

theorem trd_pmapCopied {p : Nat} (hi : i < 16384) (hw : w < 4) : (pmapCopied c p).trd (pmap (1 - p) i w) = c.trd (pmap p i w) := by
  have hk (p : Nat) : pmap p i w = pmap p 0 0 + (i * 4 + w) := by simp only [pmap, tkey]; omega
  rw [hk, hk]
  exact trd_copyPlane (by simp only [pmap, tkey]; omega)

theorem trd_pmapCopied_xmap {x p : Nat} (hx : x < 2) (hi : i < 137216) : (pmapCopied c p).trd (xmap x i) = c.trd (xmap x i) := by
  refine trd_copyPlane_ne (.inl ?_)
  simp only [xmap, pmap, tkey]
  omega

/-- Both planes copied, the bits of RSV_STAT that say so. -/
theorem gb_copied {p j : Nat} :
    (pmapCopied (xmapCopied c) p).gb (rsv 0x200) j = if j = 3 then true else if j = 2 then true else c.gb (rsv 0x200) j := by
  rw [pmapCopied, gb_sb (by decide), gb_congr (rd_congr regs_copyPlane _), xmapCopied, gb_sb (by decide), gb_congr (rd_congr regs_copyPlane _)]

theorem gb_planesUnlocked {j : Nat} :
    (planesUnlocked c).gb (rsv 0x200) j = if j = 5 then false else if j = 4 then false else c.gb (rsv 0x200) j := by
  have h : (planesUnlocked c).rd (rsv 0x200) = ((c.sb (rsv 0x200) 4 false).sb (rsv 0x200) 5 false).rd (rsv 0x200) := rd_sb_ne _ _ (by decide)
  rw [gb_congr h, gb_sb (by decide), gb_sb (by decide)]

theorem busy_planesUnlocked : (planesUnlocked c).gb (rsv 0x208) 0 = false := Core.gb_sb _ _ _ _ (by decide)
theorem trd_planesUnlocked : (planesUnlocked c).trd k = c.trd k := rfl
theorem copy_planesUnlocked : (planesUnlocked c).rsvS.copy = 0 := rfl

/-- What the end of the copy of both maps leaves (R261). -/
theorem planesEqual_copyEnd (h : c.rsvS.copy = 3) :
    (∀ i, i < 137216 → c.copyEnd.trd (xmap (1 - c.mapsNow.x) i) = c.trd (xmap c.mapsNow.x i)) ∧
    (∀ i w, i < 16384 → w < 4 → c.copyEnd.trd (pmap (1 - c.mapsNow.p) i w) = c.trd (pmap c.mapsNow.p i w)) ∧
    c.copyEnd.gb (rsv 0x200) 2 = true ∧ c.copyEnd.gb (rsv 0x200) 3 = true ∧ c.copyEnd.gb (rsv 0x200) 4 = false ∧
    c.copyEnd.gb (rsv 0x200) 5 = false ∧ c.copyEnd.gb (rsv 0x208) 0 = false ∧ c.copyEnd.rsvS.copy = 0 := by
  rw [copyEnd_of_both h]
  refine ⟨fun i hi => ?_, fun i w hi hw => ?_, ?_, ?_, ?_, ?_, busy_planesUnlocked, copy_planesUnlocked⟩
  · rw [trd_planesUnlocked, trd_pmapCopied_xmap (by omega) hi, trd_xmapCopied hi]
  · rw [trd_planesUnlocked, trd_pmapCopied hi hw, trd_xmapCopied_pmap hi hw]
  · rw [gb_planesUnlocked, gb_copied]
    rfl
  · rw [gb_planesUnlocked, gb_copied]
    rfl
  · rw [gb_planesUnlocked]
    rfl
  · rw [gb_planesUnlocked]
    rfl

end Copy

/-! ## What the boundary of a commit keeps while groups, pairs and sources follow the maps -/

section CommitView

variable {c d : Core} {a g k n p q : Nat} {v : Word}

/-- The planes, the state of the request, and what the Reservoir holds of it: what the maps in effect are told by. -/
def commitView (c : Core) : Word × Word × Option Req × Nat × List Machine.Ring :=
  (c.rd (rsv 0x200), c.rd (rsv 0x208), c.rsvS.req, c.rsvS.copy, c.rsvS.rings)

theorem commitView_wr (h : a ≠ rsv 0x200 ∧ a ≠ rsv 0x208) : commitView (c.wr a v) = commitView c := by
  rw [commitView, rd_wr_ne v h.1.symm, rd_wr_ne v h.2.symm]
  rfl

theorem commitView_ev (h : a ≠ rsv 0x200 ∧ a ≠ rsv 0x208) : commitView (c.ev a v) = commitView c := commitView_wr h
theorem commitView_sb {b : Bool} (h : a ≠ rsv 0x200 ∧ a ≠ rsv 0x208) : commitView (c.sb a k b) = commitView c := commitView_wr h
theorem commitView_cn (h : a ≠ rsv 0x200 ∧ a ≠ rsv 0x208) : commitView (c.cn a k) = commitView c :=
  cn_induct (P := fun d => commitView d = commitView c) (fun _ => commitView_wr h) rfl

theorem commitView_report : commitView (c.report k) = commitView c := by
  rw [report_frame]
  rfl

theorem commitView_twr : commitView (c.twr k v) = commitView c := rfl
theorem commitView_tsf {lo m x : Nat} : commitView (c.tsf k lo m x) = commitView c := rfl
theorem commitView_setGroup {x : Grp} : commitView (c.setGroup g x) = commitView c := rfl
theorem commitView_slots {l : SMap Slot} : commitView { c with slots := l } = commitView c := rfl
theorem commitView_setPair {x : Pair} : commitView (c.setPair n x) = commitView c := rfl
theorem commitView_setMsp {x : Msp} : commitView (c.setMsp n x) = commitView c := rfl
theorem commitView_setObj {x : Obj} : commitView (c.setObj k x) = commitView c := rfl
theorem commitView_updPort {f : Prt → Prt} : commitView (c.updPort p f) = commitView c := rfl
theorem commitView_putQueue {x : Queue} : commitView (c.putQueue q x) = commitView c := rfl

/-- The events of a table word reach registers of the host interface only. -/
theorem commitView_tev : commitView (c.tev k v) = commitView c := by
  have h : hif (0x410 + 4 * (k % 0x400000 / 32 / 1024)) ≠ rsv 0x200 ∧ hif (0x410 + 4 * (k % 0x400000 / 32 / 1024)) ≠ rsv 0x208 := by
    simp only [hif, rsv]
    omega
  simp only [Core.tev, apply_ite commitView, commitView_ev h, commitView_twr, ite_self]

/-! ### Groups (R212, R213) -/

theorem commitView_setGState {st : Nat} : commitView (c.setGState g st) = commitView c := by
  simp only [Core.setGState, apply_ite commitView, commitView_tev, commitView_tsf, ite_self]

theorem commitView_gFlag {b e : Nat} {x : Bool} : commitView (c.gFlag g b e x) = commitView c := by
  simp only [Core.gFlag, apply_ite commitView, commitView_tev, commitView_tsf, ite_self]

theorem commitView_clearWords {f : Nat → Nat} {m : Nat} : commitView (forN m (fun w d => d.twr (f w) 0) c) = commitView c :=
  forN_induct (fun d => commitView d = commitView c) (fun _ _ _ h => commitView_twr.trans h) rfl

theorem commitView_groupOff : commitView (c.groupOff g) = commitView c := by
  simp only [Core.groupOff, commitView_setGroup, commitView_tsf, commitView_clearWords, apply_ite commitView, commitView_tev,
    commitView_gFlag, commitView_setGState, ite_self]

theorem commitView_takeGroups : commitView c.takeGroups = commitView c := by
  unfold Core.takeGroups
  refine forL_induct (fun d => commitView d = commitView c) (fun g d h => Eq.trans ?_ h) _ rfl
  simp only [Core.showStaged, apply_ite commitView, commitView_tsf, commitView_setGState, commitView_clearWords, commitView_slots,
    commitView_setGroup, commitView_groupOff, ite_self]

theorem commitView_groupChecks : commitView c.groupChecks = commitView c := by
  unfold Core.groupChecks
  refine List.foldlRecOn (motive := fun x : Core × List Nat × List Nat => commitView x.1 = commitView c) _ _ rfl fun x h g _ => Eq.trans ?_ h
  simp only [apply_ite commitView, commitView_groupOff, commitView_setGState, commitView_tsf, ite_self]

/-! ### Packets of the notices (R361) -/

theorem noteQ_lt : c.noteQ < 16 := Nat.mod_lt _ (by decide)

theorem offView_wq {o : Nat} (h : o < 0x1000) : wq o ≠ rsv 0x200 ∧ wq o ≠ rsv 0x208 := by
  simp only [wq, rsv]
  omega

theorem commitView_setQueue {x : Queue} (hq : q < 16) : commitView (c.setQueue q x) = commitView c :=
  setQueue_induct (P := fun d => commitView d = commitView c) hq (fun _ _ _ ho h => (commitView_wr (offView_wq ho)).trans h) rfl

theorem commitView_qEv (hq : q < 16) : commitView (c.qEv q v) = commitView c := by
  simp only [Core.qEv, apply_ite commitView, commitView_ev (offView_wq (show 0x440 + 4 * q < 0x1000 by omega)),
    commitView_ev (offView_wq (show 0x400 < 0x1000 by decide)), ite_self]

theorem commitView_takeBlocks (hq : q < 16) : commitView (c.takeBlocks q k) = commitView c := by
  unfold Core.takeBlocks
  dsimp only
  split
  · rfl
  · exact commitView_setQueue hq

theorem commitView_discard {b : Bool} (hq : q < 16) : commitView (c.discard q k b) = commitView c := by
  have h : (if b then 0x500 else 0x540) + 4 * q < 0x1000 := by split <;> omega
  exact (commitView_cn (offView_wq h)).trans ((commitView_qEv hq).trans (commitView_setQueue hq))

theorem commitView_commitFit (hq : q < 16) : commitView (c.commitFit q k) = commitView c := by
  unfold Core.commitFit
  split
  · exact (commitView_qEv hq).trans (commitView_setQueue hq)
  · rfl

theorem commitView_openPkt {src : Nat} {bs : List Byte} : commitView (c.openPkt q src v bs) = commitView c := rfl

theorem commitView_receivePkt {src : Nat} {bs : List Byte} {b : Bool} (hq : q < 16) :
    commitView (c.receivePkt q src v bs b) = commitView c := by
  simp only [Core.receivePkt, apply_ite commitView, commitView_cn (offView_wq (show 0x540 + 4 * q < 0x1000 by omega)),
    commitView_discard hq, commitView_commitFit hq, commitView_takeBlocks hq, commitView_openPkt, ite_self]

theorem commitView_protNotice {b : Bool} : commitView (c.protNotice n b k) = commitView c := by
  simp only [Core.protNotice, apply_ite commitView, commitView_receivePkt noteQ_lt, ite_self]

/-! ### Pairs (R285, R295, R298) -/

theorem offView_slu {o : Nat} : slu o ≠ rsv 0x200 ∧ slu o ≠ rsv 0x208 := by
  simp only [slu, rsv]
  omega

theorem commitView_setAlign {st : Nat} {f : Pair → Pair} : commitView (c.setAlign n st f) = commitView c := by
  simp only [Core.setAlign, apply_ite commitView, commitView_ev offView_slu, commitView_setPair, ite_self]

theorem commitView_nameAlign {l : List Nat} : commitView (c.nameAlign l n) = commitView c := by
  simp only [Core.nameAlign, apply_ite commitView, commitView_setAlign, ite_self]

theorem commitView_pairFrame {l : List Nat} : commitView (c.pairFrame l n) = commitView c := by
  simp only [Core.pairFrame, apply_ite commitView, commitView_setAlign, commitView_nameAlign, commitView_setPair, commitView_protNotice,
    commitView_ev offView_slu, commitView_cn offView_slu, ite_self]

theorem commitView_pairsFrame {f : Nat → Bool} : commitView (c.pairsFrame f) = commitView c := by
  refine (commitView_wr (by decide)).trans (forL_induct (fun d => commitView d = commitView c) (fun n d h => Eq.trans ?_ h) _ rfl)
  simp only [Core.latchPair, commitView_setPair, apply_ite commitView, commitView_pairFrame, commitView_nameAlign, ite_self]

theorem commitView_pairsTake {old new : Nat} : commitView (c.pairsTake old new) = commitView c := by
  refine forL_induct (fun d => commitView d = commitView c) (fun n d h => Eq.trans ?_ h) _ rfl
  simp only [apply_ite commitView, commitView_setPair, ite_self]

theorem commitView_showMsp : commitView (c.showMsp k) = commitView c := by
  simp only [Core.showMsp, apply_ite commitView, commitView_ev offView_slu, commitView_wr offView_slu, ite_self]

theorem commitView_showH4 : commitView (c.showH4 k) = commitView c :=
  forL_induct (fun d => commitView d = commitView c) (fun _ _ h => commitView_tsf.trans h) _ rfl

theorem commitView_switchPtr : commitView (c.switchPtr k) = commitView c := by
  unfold Core.switchPtr
  lift_lets
  extract_lets take x y left z h4 z' c1 c2 c3 c4
  have h3 : commitView c3 = commitView c := rfl
  have h4 : commitView c4 = commitView c := by
    simp only [c4, apply_ite commitView, commitView_showH4, commitView_tsf, ite_self, h3]
  split
  · exact h4
  · exact h4

theorem commitView_mspPorts : commitView c.mspPorts = commitView c :=
  forL_induct (fun d => commitView d = commitView c) (fun _ _ h => commitView_switchPtr.trans h) _ rfl

theorem commitView_mspTake : commitView c.mspTake = commitView c := by
  refine (commitView_sb (by decide)).trans (commitView_mspPorts.trans ?_)
  refine forN_induct (fun d => commitView d = commitView c) (fun k d _ h => Eq.trans ?_ h) rfl
  simp only [apply_ite commitView, commitView_showMsp, commitView_setMsp, Core.plainK, commitView_updPort, ite_self]

/-! ### Sources read (R245, R269) -/

/-- Reading a pair gives it a new record, and counts where the other copy's bytes are taken (R287, R293). The comparison of lengths is made
opaque first, so that the kernel need not compute it to see through the cases. -/
theorem readPair_induct {P : Core → Prop} {m : List Host.Cell} (hp : ∀ x, P (c.setPair n x))
    (hc : ∀ x, P ((c.setPair n x).cn (slu 0x510) 1)) (h : P c) : P (c.readPair m n k).1 := by
  unfold Core.readPair
  obtain ⟨dec, hdec⟩ : ∃ dec, dec = Nat.decLt := ⟨_, rfl⟩
  rw [← hdec]
  extract_lets p x sel key
  split
  · exact hp _
  · rename_i lag prev span _ off _
    clear_value span
    rcases span with _ | ⟨lo, hi⟩
    · exact h
    · dsimp -zeta only
      extract_lets from_ len get c1
      clear_value get
      cases get sel with
      | stale =>
        refine iteInduction (motive := fun r : Core × Found2 => P r.1) (fun _ => ?_) fun _ => hp _
        cases get !sel with
        | data bs ph => exact iteInduction (motive := P) (fun _ => hp _) fun _ => hc _
        | _ => exact hp _
      | _ => exact hp _

theorem commitView_readPair {m : List Host.Cell} : commitView (c.readPair m n k).1 = commitView c :=
  readPair_induct (P := fun d => commitView d = commitView c) (fun _ => rfl) (fun _ => commitView_cn offView_slu) rfl

theorem commitView_readSrc {m : List Host.Cell} {src : Src} : commitView (c.readSrc m src).1 = commitView c := by
  cases src with
  | pair n => exact commitView_readPair
  | _ => simp only [Core.readSrc, apply_ite Prod.fst, ite_self]

theorem commitView_parityNoted {t i : Nat} : commitView (parityNoted c t i) = commitView c := by
  rw [parityNoted, commitView_report, commitView_wr (by decide), commitView_ev (by decide), commitView_cn (by decide)]
  rfl

theorem commitView_xmapRepaired {t i x : Nat} : commitView (xmapRepaired c t i x) = commitView c := by
  rw [xmapRepaired, commitView_ev (by decide), commitView_sb (by decide)]
  rfl

theorem commitView_pmapRepaired {t i x : Nat} : commitView (pmapRepaired c t i x) = commitView c :=
  (commitView_sb (by decide)).trans (forN_induct (fun d => commitView d = commitView c) (fun _ _ _ h => commitView_twr.trans h) rfl)

theorem commitView_tableParity {t i : Nat} : commitView (c.tableParity t i) = commitView c := by
  by_cases h : t = 0 ∨ c.rsvS.seen.contains (t, i) = true
  · rw [tableParity_of_seen h]
  · have hd : commitView (parityMarked (parityNoted c t i) t i) = commitView c := commitView_parityNoted
    have he : commitView ((parityMarked (parityNoted c t i) t i).ev (slu 0x400) (bit 10)) = commitView c := (commitView_ev offView_slu).trans hd
    rw [tableParity_of_first h]
    dsimp only
    split
    · split
      · exact commitView_xmapRepaired.trans hd
      · exact hd
    · split
      · split
        · exact commitView_pmapRepaired.trans he
        · exact he
      · exact hd

theorem commitView_readAll {m : List Host.Cell} : commitView (c.readAll m) = commitView c := by
  refine forL_induct (fun d => commitView d = commitView c) (fun k d h => Eq.trans ?_ h) _ rfl
  extract_lets i src c1
  have h1 : commitView c1 = commitView d := by
    simp only [c1, apply_ite commitView, commitView_tableParity, ite_self]
  clear_value c1 src
  split
  next c2 r hq =>
    have h2 : commitView c2 = commitView c1 := by
      split at hq
      · cases hq; rfl
      · split at hq
        · cases hq; rfl
        · split at hq
          · exact (congrArg (commitView ·.1) hq).symm.trans commitView_readSrc
          · cases hq; rfl
    have h3 : commitView (if r = .stale then (c2.cn (rsv 0x50C) 1).ev (rsv 0x400) (bit 4) else c2) = commitView c2 := by
      rw [apply_ite commitView, commitView_ev (by decide), commitView_cn (by decide), ite_self]
    exact h3.trans (h2.trans h1)

end CommitView
/-! ## The boundary of a commit (R260) -/

section CommitTake

variable {c d : Core} {m : List Host.Cell} {q : Req} {a j lo n p : Nat}

theorem commitTake_of_notDue (h : c.commitDue = false) : c.commitTake m = (c, []) := if_pos (by simp [h])

/-! ### The stages of a commit -/

/-- A ring of the plan: one kept from the rings in effect goes on with its records (R255). -/
def ringTaken (c : Core) (r : Machine.Ring) : Machine.Ring :=
  match c.rsvS.rings.find? fun o => r.kept && o.key = r.key with
  | some o => { r with start := o.start, recs := o.recs }
  | none => r

/-- The rings placed by the check come into effect. -/
def ringsTaken (c : Core) : Core := { c with rsvS := { c.rsvS with rings := c.rsvS.plan.map (ringTaken c) } }

/-- The XMAP plane and the staged groups, where the request names them (R212, R260). -/
def xmapTaken (q : Req) (c : Core) : Core :=
  if fld q.bits 1 2 % 2 = 1 then
    ({ ((c.sb (rsv 0x200) 0 (c.mapsNow.x = 0)).sb (rsv 0x200) 2 false) with rsvS := { c.rsvS with bad := [], blank := [] } } : Core).takeGroups.groupChecks
  else c

/-- The PMAP plane with its pairs, where the request names it (R260, R295, R298). -/
def pmapTaken (q : Req) (p : Nat) (c : Core) : Core :=
  if fld q.bits 1 2 / 2 % 2 = 1 then
    (({ ((c.sb (rsv 0x200) 1 (p = 0)).sb (rsv 0x200) 3 false) with rsvS := { c.rsvS with held := [] } } : Core).pairsTake p (1 - p)).mspTake
  else c

/-- The pairs as the planes now name them, and the charges of the rings shown. -/
def chargesShown (q : Req) (p : Nat) (c : Core) : Core :=
  let d := c.pairsFrame fun n => fld q.bits 1 2 / 2 % 2 = 1 && !c.pairKept p (1 - p) n
  (d.wr (rsv 0x230) (d.rd (rsv 0x234))).showStore

/-- Self-refresh ended, where rings are in effect (R275). -/
def stackTaken (rings : List Machine.Ring) (c : Core) : Core := if rings = [] then c else c.srExit

/-- The request ended COMMITTED (R260). -/
def requestEnded (rings : List Machine.Ring) (c : Core) : Core :=
  let d := (stackTaken rings c).endReq 1 0
  { d with wrdS := { d.wrdS with lastB := d.frame, hashDue := true } }

/-- The copy begun, or with NOCOPY the planes unlocked (R261). -/
def copyBegun (q : Req) (c : Core) : Core :=
  if bitOf q.bits 4 then (c.sb (rsv 0x200) 5 false).sb (rsv 0x208) 0 false
  else ({ c with rsvS := { c.rsvS with copy := fld q.bits 1 2 } } : Core).sb (rsv 0x200) 4 true

/-- The planes and rings of a commit in effect. -/
def planesTaken (q : Req) (c : Core) : Core :=
  chargesShown q c.mapsNow.p (pmapTaken q c.mapsNow.p (xmapTaken q (ringsTaken c)))

/-- The block after a commit, before the pairs are read. -/
def committed (q : Req) (c : Core) : Core :=
  copyBegun q (requestEnded (c.rsvS.plan.map (ringTaken c)) (planesTaken q c))

theorem commitTake_of_due (h : c.commitDue = true) (hq : c.rsvS.req = some q) :
    c.commitTake m = ((committed q c).readAll m, []) := by
  unfold Core.commitTake
  rw [if_neg (by simp [h]), hq]
  rfl

/-- Each ring keeps the place that the check gave it. -/
theorem place_ringTaken (r : Machine.Ring) :
    ((ringTaken c r).key, (ringTaken c r).base, (ringTaken c r).cells, (ringTaken c r).depth) = (r.key, r.base, r.cells, r.depth) := by
  unfold ringTaken
  split <;> rfl

/-! ### What the stages show -/

/-- The state of the request, and what the Reservoir holds of it. -/
def requestView (c : Core) : Word × Option Req × List Machine.Ring := (c.rd (rsv 0x208), c.rsvS.req, c.rsvS.rings)

theorem gb_of_commitView (h : commitView d = commitView c) (j : Nat) : d.gb (rsv 0x200) j = c.gb (rsv 0x200) j :=
  gb_congr (congrArg (·.1) h) j

theorem requestView_of_commitView (h : commitView d = commitView c) : requestView d = requestView c :=
  congrArg (fun v => (v.2.1, v.2.2.1, v.2.2.2.2)) h

theorem requestView_wr {v : Word} (h : a ≠ rsv 0x208) : requestView (c.wr a v) = requestView c := by
  rw [requestView, rd_wr_ne v h.symm]
  rfl

theorem xmapNamed_iff : fld q.bits 1 2 % 2 = 1 ↔ bitOf q.bits 1 = true := by
  have h : (fld q.bits 1 2).testBit 0 = bitOf q.bits 1 := testBit_fld
  rw [← h, Nat.testBit_zero, decide_eq_true_eq]

theorem pmapNamed_iff : fld q.bits 1 2 / 2 % 2 = 1 ↔ bitOf q.bits 2 = true := by
  have h : (fld q.bits 1 2).testBit 1 = bitOf q.bits 2 := testBit_fld
  rw [← h, Nat.testBit_succ, Nat.testBit_zero, decide_eq_true_eq]

/-- The plane that a flip makes active. -/
theorem plane_eq_zero {k : Nat} : decide (c.gf (rsv 0x200) k 1 = 0) = !c.gb (rsv 0x200) k := by
  have h : (c.gf (rsv 0x200) k 1).testBit 0 = c.gb (rsv 0x200) k := testBit_fld
  have hlt : c.gf (rsv 0x200) k 1 < 2 := Nat.mod_lt _ (by decide)
  rw [← h, Nat.testBit_zero]
  generalize c.gf (rsv 0x200) k 1 = x at hlt
  interval_cases x <;> rfl

theorem requestView_xmapTaken : requestView (xmapTaken q c) = requestView c := by
  unfold xmapTaken
  split
  · rw [requestView_of_commitView (commitView_groupChecks.trans commitView_takeGroups)]
    exact requestView_wr (by decide) |>.trans (requestView_wr (by decide))
  · rfl

theorem gb_xmapTaken : (xmapTaken q c).gb (rsv 0x200) j =
    if bitOf q.bits 1 then (if j = 2 then false else if j = 0 then !c.gb (rsv 0x200) 0 else c.gb (rsv 0x200) j)
    else c.gb (rsv 0x200) j := by
  unfold xmapTaken
  by_cases h : bitOf q.bits 1 = true
  · rw [if_pos (xmapNamed_iff.mpr h), if_pos h, gb_of_commitView (commitView_groupChecks.trans commitView_takeGroups), ← plane_eq_zero]
    exact (gb_sb (by decide)).trans (congrArg _ (gb_sb (by decide)))
  · rw [if_neg (mt xmapNamed_iff.mp h), if_neg h]

theorem requestView_pmapTaken : requestView (pmapTaken q p c) = requestView c := by
  unfold pmapTaken
  split
  · rw [requestView_of_commitView (commitView_mspTake.trans commitView_pairsTake)]
    exact requestView_wr (by decide) |>.trans (requestView_wr (by decide))
  · rfl

theorem gb_pmapTaken : (pmapTaken q p c).gb (rsv 0x200) j =
    if bitOf q.bits 2 then (if j = 3 then false else if j = 1 then decide (p = 0) else c.gb (rsv 0x200) j)
    else c.gb (rsv 0x200) j := by
  unfold pmapTaken
  by_cases h : bitOf q.bits 2 = true
  · rw [if_pos (pmapNamed_iff.mpr h), if_pos h, gb_of_commitView (commitView_mspTake.trans commitView_pairsTake)]
    exact (gb_sb (by decide)).trans (congrArg _ (gb_sb (by decide)))
  · rw [if_neg (mt pmapNamed_iff.mp h), if_neg h]

theorem gb_wr_ne {v : Word} (h : a ≠ rsv 0x200) : (c.wr a v).gb (rsv 0x200) j = c.gb (rsv 0x200) j :=
  gb_congr (rd_wr_ne v h.symm) j

theorem requestView_showStore : requestView c.showStore = requestView c := by
  unfold Core.showStore
  exact (requestView_wr (by decide)).trans <| (requestView_wr (by decide)).trans <| (requestView_wr (by decide)).trans <|
    (requestView_wr (by decide)).trans <| (requestView_wr (by decide)).trans <| requestView_wr (by decide)

theorem gb_showStore (h : j ≠ 9) : c.showStore.gb (rsv 0x200) j = c.gb (rsv 0x200) j := by
  unfold Core.showStore
  exact (gb_sb (by decide)).trans <| (if_neg h).trans <| (gb_wr_ne (by decide)).trans <| (gb_wr_ne (by decide)).trans <|
    (gb_wr_ne (by decide)).trans <| (gb_wr_ne (by decide)).trans <| gb_wr_ne (by decide)

theorem requestView_chargesShown : requestView (chargesShown q p c) = requestView c :=
  requestView_showStore.trans <| (requestView_wr (by decide)).trans <| requestView_of_commitView commitView_pairsFrame

theorem gb_chargesShown (h : j ≠ 9) : (chargesShown q p c).gb (rsv 0x200) j = c.gb (rsv 0x200) j :=
  (gb_showStore h).trans <| (gb_wr_ne (by decide)).trans <| gb_of_commitView commitView_pairsFrame j

theorem requestView_planesTaken : requestView (planesTaken q c) = requestView (ringsTaken c) :=
  requestView_chargesShown.trans <| requestView_pmapTaken.trans requestView_xmapTaken

/-! ### The request's end -/

theorem rsvS_leaveL1 : c.leaveL1.rsvS = c.rsvS := by
  cases h : c.levS.inL1
  · rw [leaveL1_of_notInL1 h]
  · rw [leaveL1_of_inL1 h, showPstate_frame]
    rfl

theorem requestView_stackAccessed : requestView (stackAccessed c) = requestView c := by
  show (c.leaveL1.rd (rsv 0x208), c.leaveL1.rsvS.req, c.leaveL1.rsvS.rings) = requestView c
  rw [rd_leaveL1 (by decide) (by decide), rsvS_leaveL1]
  rfl

theorem requestView_srExit : requestView c.srExit = requestView c := by
  cases h : (stackAccessed c).selfRefresh
  · rw [srExit_of_notRefreshing h, requestView_stackAccessed]
  · rw [srExit_of_refreshing h]
    exact (requestView_wr (by decide)).trans <| (requestView_wr (by decide)).trans <| (requestView_wr (by decide)).trans
      requestView_stackAccessed

theorem gb_srExit (hj : j ≠ 8) : c.srExit.gb (rsv 0x200) j = c.gb (rsv 0x200) j := by
  have hs : (stackAccessed c).gb (rsv 0x200) j = c.gb (rsv 0x200) j := gb_congr (rd_leaveL1 (by decide) (by decide)) j
  cases h : (stackAccessed c).selfRefresh
  · rw [srExit_of_notRefreshing h, hs]
  · rw [srExit_of_refreshing h]
    exact (gb_wr_ne (by decide)).trans <| (gb_wr_ne (by decide)).trans <| (gb_sb (by decide)).trans <| (if_neg hj).trans hs

/-- The registers that show the request as committed (R260). -/
def committedShown (c : Core) : Core :=
  ((((c.sf (rsv 0x208) 4 4 1).sf (rsv 0x208) 8 4 0).sf (rsv 0x208) 1 2 0).ev (rsv 0x400) (bit 0)).cn (rsv 0x524) 1

theorem rsvS_committedShown : (committedShown c).rsvS = c.rsvS := by
  rw [committedShown, cn_frame]
  rfl

theorem rd_committedShown (h : a ≠ rsv 0x208) (h0 : a ≠ rsv 0x400) (h1 : a ≠ rsv 0x524) : (committedShown c).rd a = c.rd a := by
  rw [committedShown, rd_cn_ne _ h1, rd_ev_ne _ h0, rd_sf_ne _ _ _ h, rd_sf_ne _ _ _ h, rd_sf_ne _ _ _ h]

theorem request_committedShown : (committedShown c).rd (rsv 0x208) =
    setFld (setFld (setFld (c.rd (rsv 0x208)) 4 4 1) 8 4 0) 1 2 0 := by
  rw [committedShown, rd_cn_ne _ (by decide), rd_ev_ne _ (by decide)]
  simp only [Core.rd_sf, if_true]

theorem gf_committedShown : (committedShown c).gf (rsv 0x208) 1 2 = 0 ∧ (committedShown c).gf (rsv 0x208) 4 4 = 1 ∧
    (committedShown c).gf (rsv 0x208) 8 4 = 0 := by
  rw [Core.gf, Core.gf, Core.gf, request_committedShown]
  refine ⟨fld_setFld _ _ _ _ (by decide), ?_, ?_⟩
  · rw [fld_setFld_ne (by decide), fld_setFld_ne (by decide)]
    exact fld_setFld _ _ _ _ (by decide)
  · rw [fld_setFld_ne (by decide)]
    exact fld_setFld _ _ _ _ (by decide)

/-- A request without a command or a capsule is forgotten as it ends. -/
theorem endReq_committed (hr : c.rsvS.req = some q) (hq : q.cmd = none) (hs : q.capsule = none) :
    c.endReq 1 0 = { committedShown c with rsvS := { c.rsvS with req := none } } := by
  have h : (committedShown c).rsvS.req = some q := by rw [rsvS_committedShown, hr]
  have e : c.endReq 1 0 = { committedShown c with rsvS := { (committedShown c).rsvS with req := none } } := by
    unfold Core.endReq
    dsimp only
    rw [if_pos rfl]
    change (match (committedShown c).rsvS.req with | none => _ | some q => _) = _
    rw [h]
    dsimp only
    rw [hs, hq]
    rfl
  rw [e, rsvS_committedShown]

theorem requestView_stackTaken {l : List Machine.Ring} : requestView (stackTaken l c) = requestView c := by
  unfold stackTaken
  split
  · rfl
  · exact requestView_srExit

theorem gb_stackTaken {l : List Machine.Ring} (hj : j ≠ 8) : (stackTaken l c).gb (rsv 0x200) j = c.gb (rsv 0x200) j := by
  unfold stackTaken
  split
  · rfl
  · exact gb_srExit hj

theorem requestEnded_eq {l : List Machine.Ring} (hr : c.rsvS.req = some q) (hq : q.cmd = none) (hs : q.capsule = none) :
    ∃ w, requestEnded l c = { committedShown (stackTaken l c) with
      rsvS := { (stackTaken l c).rsvS with req := none }, wrdS := w } := by
  have h : (stackTaken l c).rsvS.req = some q := (congrArg (·.2.1) requestView_stackTaken).trans hr
  unfold requestEnded
  rw [endReq_committed h hq hs]
  exact ⟨_, rfl⟩

/-- The request COMMITTED and gone, the rings still in effect. -/
def RequestCommitted (rings : List Machine.Ring) (d : Core) : Prop :=
  d.rsvS.req = none ∧ d.rsvS.rings = rings ∧ d.gf (rsv 0x208) 1 2 = 0 ∧ d.gf (rsv 0x208) 4 4 = 1 ∧ d.gf (rsv 0x208) 8 4 = 0

theorem requestCommitted_requestEnded {l : List Machine.Ring} (hr : c.rsvS.req = some q) (hq : q.cmd = none)
    (hs : q.capsule = none) : RequestCommitted c.rsvS.rings (requestEnded l c) := by
  obtain ⟨w, h⟩ := requestEnded_eq (l := l) hr hq hs
  rw [h]
  exact ⟨rfl, congrArg (·.2.2) requestView_stackTaken, gf_committedShown⟩

theorem gb_requestEnded {l : List Machine.Ring} (hr : c.rsvS.req = some q) (hq : q.cmd = none) (hs : q.capsule = none)
    (hj : j ≠ 8) : (requestEnded l c).gb (rsv 0x200) j = c.gb (rsv 0x200) j := by
  obtain ⟨w, h⟩ := requestEnded_eq (l := l) hr hq hs
  rw [h]
  exact (gb_congr (rd_committedShown (by decide) (by decide) (by decide)) j).trans (gb_stackTaken hj)

/-! ### The copy begun -/

theorem copyBegun_of_nocopy (h : bitOf q.bits 4 = true) :
    copyBegun q c = (c.sb (rsv 0x200) 5 false).sb (rsv 0x208) 0 false := if_pos h

theorem copyBegun_of_copy (h : bitOf q.bits 4 = false) :
    copyBegun q c = ({ c with rsvS := { c.rsvS with copy := fld q.bits 1 2 } } : Core).sb (rsv 0x200) 4 true :=
  if_neg (ne_true_of_eq_false h)

theorem gb_copyBegun (hj : j < 4) : (copyBegun q c).gb (rsv 0x200) j = c.gb (rsv 0x200) j := by
  cases h : bitOf q.bits 4
  · rw [copyBegun_of_copy h]
    exact (gb_sb (by decide)).trans (if_neg (by omega))
  · rw [copyBegun_of_nocopy h]
    exact (gb_congr (rd_sb_ne _ _ (by decide)) j).trans <| (gb_sb (by decide)).trans (if_neg (by omega))

theorem requestCommitted_copyBegun {l : List Machine.Ring} (h : RequestCommitted l c) : RequestCommitted l (copyBegun q c) := by
  obtain ⟨hr, hl, h1, h4, h8⟩ := h
  cases hb : bitOf q.bits 4
  · rw [copyBegun_of_copy hb]
    have hd : ∀ lo n, (({ c with rsvS := { c.rsvS with copy := fld q.bits 1 2 } } : Core).sb (rsv 0x200) 4 true).gf (rsv 0x208) lo n =
        c.gf (rsv 0x208) lo n := fun lo n => congrArg (fld · lo n) (rd_sb_ne _ _ (by decide))
    exact ⟨hr, hl, (hd 1 2).trans h1, (hd 4 4).trans h4, (hd 8 4).trans h8⟩
  · rw [copyBegun_of_nocopy hb]
    have hd : ∀ lo n, 1 ≤ lo → ((c.sb (rsv 0x200) 5 false).sb (rsv 0x208) 0 false).gf (rsv 0x208) lo n = c.gf (rsv 0x208) lo n :=
      fun lo n hlo => (gf_sb_ne (by decide) (Or.inl hlo)).trans (congrArg (fld · lo n) (rd_sb_ne _ _ (by decide)))
    exact ⟨hr, hl, (hd 1 2 (by decide)).trans h1, (hd 4 4 (by decide)).trans h4, (hd 8 4 (by decide)).trans h8⟩

theorem unlocked_copyBegun (h : bitOf q.bits 4 = true) :
    (copyBegun q c).gb (rsv 0x200) 5 = false ∧ (copyBegun q c).gb (rsv 0x208) 0 = false := by
  rw [copyBegun_of_nocopy h]
  exact ⟨(gb_congr (rd_sb_ne _ _ (by decide)) 5).trans (Core.gb_sb _ _ _ _ (by decide)), Core.gb_sb _ _ _ _ (by decide)⟩

theorem copying_copyBegun (h : bitOf q.bits 4 = false) :
    (copyBegun q c).gb (rsv 0x200) 4 = true ∧ (copyBegun q c).rsvS.copy = fld q.bits 1 2 := by
  rw [copyBegun_of_copy h]
  exact ⟨Core.gb_sb _ _ _ _ (by decide), rfl⟩

/-! ### The whole of it -/

theorem gb_xmapTaken_ne (h2 : j ≠ 2) (h0 : j ≠ 0) : (xmapTaken q c).gb (rsv 0x200) j = c.gb (rsv 0x200) j := by
  rw [gb_xmapTaken, if_neg h2, if_neg h0, ite_self]

theorem gb_pmapTaken_ne (h3 : j ≠ 3) (h1 : j ≠ 1) : (pmapTaken q p c).gb (rsv 0x200) j = c.gb (rsv 0x200) j := by
  rw [gb_pmapTaken, if_neg h3, if_neg h1, ite_self]

/-- The XMAP plane flips and its SYNCED bit clears, where the request names it. -/
theorem xmap_planesTaken : (planesTaken q c).gb (rsv 0x200) 0 = (c.gb (rsv 0x200) 0 != bitOf q.bits 1) ∧
    (bitOf q.bits 1 = true → (planesTaken q c).gb (rsv 0x200) 2 = false) := by
  have hx : ∀ j, j ≠ 9 → j ≠ 3 → j ≠ 1 → (planesTaken q c).gb (rsv 0x200) j = (xmapTaken q (ringsTaken c)).gb (rsv 0x200) j :=
    fun j h9 h3 h1 => (gb_chargesShown h9).trans (gb_pmapTaken_ne h3 h1)
  have hc : ∀ j, (ringsTaken c).gb (rsv 0x200) j = c.gb (rsv 0x200) j := fun _ => rfl
  rw [hx 0 (by decide) (by decide) (by decide), hx 2 (by decide) (by decide) (by decide), gb_xmapTaken, gb_xmapTaken, hc]
  cases bitOf q.bits 1 <;> simp

/-- The PMAP plane flips and its SYNCED bit clears, where the request names it. -/
theorem pmap_planesTaken : (planesTaken q c).gb (rsv 0x200) 1 = (c.gb (rsv 0x200) 1 != bitOf q.bits 2) ∧
    (bitOf q.bits 2 = true → (planesTaken q c).gb (rsv 0x200) 3 = false) := by
  have hp : ∀ j, j ≠ 9 → (planesTaken q c).gb (rsv 0x200) j = (pmapTaken q c.mapsNow.p (xmapTaken q (ringsTaken c))).gb (rsv 0x200) j :=
    fun j h9 => gb_chargesShown h9
  have hc : (ringsTaken c).gb (rsv 0x200) 1 = c.gb (rsv 0x200) 1 := rfl
  have hn : decide (c.mapsNow.p = 0) = !c.gb (rsv 0x200) 1 := plane_eq_zero
  rw [hp 1 (by decide), hp 3 (by decide), gb_pmapTaken, gb_pmapTaken, gb_xmapTaken_ne (by decide) (by decide), hc, hn]
  cases bitOf q.bits 2 <;> simp

theorem gb_committed (hr : c.rsvS.req = some q) (hq : q.cmd = none) (hs : q.capsule = none) (hj : j < 4) :
    (committed q c).gb (rsv 0x200) j = (planesTaken q c).gb (rsv 0x200) j :=
  (gb_copyBegun hj).trans (gb_requestEnded ((congrArg (·.2.1) requestView_planesTaken).trans hr) hq hs (by omega))

theorem requestCommitted_committed (hr : c.rsvS.req = some q) (hq : q.cmd = none) (hs : q.capsule = none) :
    RequestCommitted (c.rsvS.plan.map (ringTaken c)) (committed q c) := by
  have hv : requestView (planesTaken q c) = requestView (ringsTaken c) := requestView_planesTaken
  have h := requestCommitted_requestEnded (l := c.rsvS.plan.map (ringTaken c)) ((congrArg (·.2.1) hv).trans hr) hq hs
  rw [show (planesTaken q c).rsvS.rings = _ from congrArg (·.2.2) hv] at h
  exact requestCommitted_copyBegun h

/-- The check's rings keep their places when they come into effect. -/
theorem places_ringTaken : (c.rsvS.plan.map (ringTaken c)).map (fun r => (r.key, r.base, r.cells, r.depth)) =
    c.rsvS.plan.map (fun r => (r.key, r.base, r.cells, r.depth)) := by
  rw [List.map_map]
  exact List.map_congr_left fun r _ => place_ringTaken r

/-- What the request's boundary leaves, of the planes, the request and the rings. -/
def CommitTaken (q : Req) (c d : Core) : Prop :=
  d.rsvS.req = none ∧
  d.gb (rsv 0x200) 0 = (c.gb (rsv 0x200) 0 != bitOf q.bits 1) ∧ d.gb (rsv 0x200) 1 = (c.gb (rsv 0x200) 1 != bitOf q.bits 2) ∧
  (bitOf q.bits 1 = true → d.gb (rsv 0x200) 2 = false) ∧ (bitOf q.bits 2 = true → d.gb (rsv 0x200) 3 = false) ∧
  d.gf (rsv 0x208) 1 2 = 0 ∧ d.gf (rsv 0x208) 4 4 = 1 ∧ d.gf (rsv 0x208) 8 4 = 0 ∧
  (bitOf q.bits 4 = true → d.gb (rsv 0x200) 5 = false ∧ d.gb (rsv 0x208) 0 = false) ∧
  (bitOf q.bits 4 = false → d.gb (rsv 0x200) 4 = true ∧ d.rsvS.copy = fld q.bits 1 2) ∧
  d.rsvS.rings.map (fun r => (r.key, r.base, r.cells, r.depth)) = c.rsvS.plan.map (fun r => (r.key, r.base, r.cells, r.depth))

/-- All of it is in the view that the reads of the pairs leave as it was. -/
theorem CommitTaken.of_commitView {e : Core} (h : CommitTaken q c e) (hv : commitView d = commitView e) : CommitTaken q c d := by
  obtain ⟨hreq, h0, h1, h2, h3, h12, h44, h84, hlock, hcopy, hrings⟩ := h
  have hb : ∀ j, d.gb (rsv 0x200) j = e.gb (rsv 0x200) j := gb_of_commitView hv
  have hw : d.rd (rsv 0x208) = e.rd (rsv 0x208) := congrArg (·.2.1) hv
  have hf : ∀ lo n, d.gf (rsv 0x208) lo n = e.gf (rsv 0x208) lo n := fun lo n => congrArg (fld · lo n) hw
  have hr : d.rsvS.rings = e.rsvS.rings := congrArg (·.2.2.2.2) hv
  refine ⟨(congrArg (·.2.2.1) hv).trans hreq, (hb 0).trans h0, (hb 1).trans h1, fun hn => (hb 2).trans (h2 hn),
    fun hn => (hb 3).trans (h3 hn), (hf 1 2).trans h12, (hf 4 4).trans h44, (hf 8 4).trans h84, fun hn => ?_, fun hn => ?_, hr ▸ hrings⟩
  · obtain ⟨hl, hu⟩ := hlock hn
    exact ⟨(hb 5).trans hl, (gb_congr hw 0).trans hu⟩
  · obtain ⟨hc, hm⟩ := hcopy hn
    exact ⟨(hb 4).trans hc, (congrArg (·.2.2.2.1) hv).trans hm⟩

theorem commitTaken_committed (hr : c.rsvS.req = some q) (hq : q.cmd = none) (hs : q.capsule = none) : CommitTaken q c (committed q c) := by
  have hp : ∀ j, j < 4 → (committed q c).gb (rsv 0x200) j = (planesTaken q c).gb (rsv 0x200) j := fun j hj => gb_committed hr hq hs hj
  obtain ⟨hreq, hrings, h1, h4, h8⟩ := requestCommitted_committed hr hq hs
  obtain ⟨hx, hxs⟩ := xmap_planesTaken (q := q) (c := c)
  obtain ⟨hy, hys⟩ := pmap_planesTaken (q := q) (c := c)
  exact ⟨hreq, (hp 0 (by decide)).trans hx, (hp 1 (by decide)).trans hy, fun hn => (hp 2 (by decide)).trans (hxs hn),
    fun hn => (hp 3 (by decide)).trans (hys hn), h1, h4, h8, unlocked_copyBegun, copying_copyBegun, hrings ▸ places_ringTaken⟩

theorem commitTaken_readAll (hr : c.rsvS.req = some q) (hq : q.cmd = none) (hs : q.capsule = none) :
    CommitTaken q c ((committed q c).readAll m) := (commitTaken_committed hr hq hs).of_commitView commitView_readAll

end CommitTake

/-! ## The obligation of commits -/

/-- Settles O37: a commit and its copy are each cut into stages; the pairs that the boundary reads leave the planes, the request
and the rings as the stages before them left these, and the copy writes the inactive planes only. -/
theorem commitsFlipTheirPlanes : Obligations.CommitsFlipTheirPlanes := by
  unfold Obligations.CommitsFlipTheirPlanes
  have hm : ∀ s, exec .commitTake s = s.onMem (·.commitTake ·) := fun _ => rfl
  refine fun c m => ⟨fun h => ?_, fun h q hr hq hs => ?_, fun h => ?_⟩
  · exact goesMem_of_onMem hm (commitTake_of_notDue h) (Core.rewrote_nil c)
  · exact reachesMem_of_goesMem (goesMem_of_onMem hm (commitTake_of_due h hr) (Core.rewrote_nil _)) ⟨rfl, commitTaken_readAll hr hq hs⟩
  · exact reaches_of_on (f := (·.copyEnd)) (fun _ => rfl) (planesEqual_copyEnd h)

end Sys2Proof.Proofs

/-! The obligations of protection (chapter 9): the alignment of an SNCP pair's copies, a selector's decision, mirror messages and the
lanes of the MATE link. -/

namespace Sys2Proof.Proofs

open Sys2Proof Sys2Proof.Machine Sys2Proof.Safety

/-! ## What a selector decides (R288, R292, Table 9-4) -/

section Decisions

variable {x : Pair} {g : SelCfg} {k : Nat}

/-- The requests that R292 defers are those below SD of W. -/
theorem deferred_iff : (decide (k = 3) || decide (k = 2) || decide (k = 1) || decide (k = 0)) = decide (k < 4) := by
  rw [Bool.eq_iff_iff]
  simp only [Bool.or_eq_true, decide_eq_true_eq]
  omega

theorem next_settle : (x.settle g).next =
    if g.defer && decide (x.highest < 4) && x.offset.isNone then x.next else x.choice g.revert x.highest := by
  rw [← deferred_iff]
  rfl

/-- A request above MS takes effect whether or not an offset is confirmed. -/
theorem settle_of_hard (h : x.highest = k) (hk : 4 ≤ k) :
    (x.settle g).next = x.choice g.revert k ∧ (x.settle g).req = k := by
  refine ⟨?_, h⟩
  rw [next_settle, h, decide_eq_false (Nat.not_lt.mpr hk)]
  simp

/-- MS, WTR and no request are deferred where R292 asks for an offset and none is confirmed. -/
theorem settle_of_soft (h : x.highest = k) (hk : k < 4) :
    (x.settle g).req = k ∧ (x.settle g).next = if g.defer && x.offset.isNone then x.next else x.choice g.revert k := by
  refine ⟨h, ?_⟩
  rw [next_settle, h, decide_eq_true hk, Bool.and_true]

/-- Under neither LO nor FS the conditions come first, SF before SD and P before W; then MS, WTR and none. -/
theorem highest_of_notForced (h : x.cmd = 0 ∨ 3 < x.cmd) : x.highest =
    if x.raised.getD 2 false then 7 else if x.raised.getD 0 false then 6
    else if x.raised.getD 3 false then 5 else if x.raised.getD 1 false then 4
    else if x.cmd = 4 then 3 else if x.cmd = 5 then 2 else if x.wtr.isSome then 1 else 0 := by
  have h1 : x.cmd ≠ 1 := by omega
  have h2 : x.cmd ≠ 2 := by omega
  have h3 : x.cmd ≠ 3 := by omega
  rw [Pair.highest, if_neg h1, if_neg h2, if_neg h3]

theorem highest_of_noCondition (h : x.cmd = 0 ∨ 3 < x.cmd) (h0 : x.raised.getD 0 false = false) (h1 : x.raised.getD 1 false = false)
    (h2 : x.raised.getD 2 false = false) (h3 : x.raised.getD 3 false = false) :
    x.highest = if x.cmd = 4 then 3 else if x.cmd = 5 then 2 else if x.wtr.isSome then 1 else 0 := by
  simp only [highest_of_notForced h, h0, h1, h2, h3, Bool.false_eq_true, if_false]

end Decisions

/-- Settles O40: each clause names the highest request, which is above MS or not. -/
theorem selectorsObeyTheHighestRequest : Obligations.SelectorsObeyTheHighestRequest := by
  unfold Obligations.SelectorsObeyTheHighestRequest
  intro x g y r
  refine ⟨rfl, fun h => ?_, fun h => ?_, fun h => ?_, fun h h2 => ?_, fun h h2 h0 => ?_, fun h h2 h0 h3 => ?_, fun h h2 h0 h3 h1 => ?_,
    fun h h0 h1 h2 h3 => ⟨fun hw => ?_, fun hw => ?_⟩, fun h h0 h1 h2 h3 => ?_, fun h h0 h1 h2 h3 => ?_⟩
  · exact settle_of_hard (k := 10) (by simp [Pair.highest, h]) (by decide)
  · exact settle_of_hard (k := 9) (by simp [Pair.highest, h]) (by decide)
  · exact settle_of_hard (k := 8) (by simp [Pair.highest, h]) (by decide)
  · exact settle_of_hard (k := 7) ((highest_of_notForced h).trans (if_pos h2)) (by decide)
  · exact settle_of_hard (k := 6) (by simp only [highest_of_notForced h, r, h2, h0]; rfl) (by decide)
  · exact settle_of_hard (k := 5) (by simp only [highest_of_notForced h, r, h2, h0, h3]; rfl) (by decide)
  · exact settle_of_hard (k := 4) (by simp only [highest_of_notForced h, r, h2, h0, h3, h1]; rfl) (by decide)
  · exact settle_of_soft (k := 0) (by simp [highest_of_noCondition (.inl h) h0 h1 h2 h3, h, hw]) (by decide)
  · exact settle_of_soft (k := 1) (by simp [highest_of_noCondition (.inl h) h0 h1 h2 h3, h, Option.isSome_iff_ne_none.mpr hw]) (by decide)
  · exact settle_of_soft (k := 3) (by simp [highest_of_noCondition (.inr (by omega)) h0 h1 h2 h3, h]) (by decide)
  · exact settle_of_soft (k := 2) (by simp [highest_of_noCondition (.inr (by omega)) h0 h1 h2 h3, h]) (by decide)

/-! ## Signatures of VC frames (R283, R284) -/

section Signatures

variable {c : Core} {n sig pos f : Nat} {rest : List (Nat × Nat × Nat)}

/-- A copy's signatures of the VC frames it completed in the frame that ends. -/
def sigsDone (c : Core) (n : Nat) (prot : Bool) : List (Nat × Nat × Nat) :=
  (c.obj (c.copyKey c.mapsNow.p n prot)).rx.done.map fun q => (sigOf q.1, q.2)

theorem pair_recordSigs_of_only (hp : c.pairsOf c.mapsNow.p = [n]) (hm : (c.pair n).marking = true) : c.recordSigs.pair n =
    { c.pair n with sigW := (c.pair n).sigW ++ sigsDone c n false, sigP := (c.pair n).sigP ++ sigsDone c n true } := by
  rw [Core.recordSigs, hp]
  simp only [forL, List.foldl, hm, if_true]
  rw [Core.pair_setPair, if_pos rfl]
  rfl

/-- A marker after its comparison with a signature of the other copy. -/
def compared (sig pos f : Nat) (m : Marker) : Marker :=
  if m.hit = none ∧ m.sig = sig ∧ m.frame ≤ f ∧ f ≤ m.frame + 1024 then
    { m with hit := some ((pos + 2 ^ 32 - m.pos) % 2 ^ 32, f - m.frame) }
  else m

theorem vcSignature_of_head (hv : c.pairValid c.mapsNow.p n = true) (hm : (c.pair n).marking = true)
    (hs : (c.pair n).sigW = (sig, pos, f) :: rest) : c.vcSignature n false = c.setPair n { c.pair n with
      sigW := rest, markP := (c.pair n).markP.map (compared sig pos f)
      markW := some ((c.pair n).markW.getD { sig := sig, pos := pos, frame := f }) } := by
  have hmark : Pair.marking { c.pair n with sigW := rest } = true := hm
  unfold Core.vcSignature
  simp only [Bool.false_eq_true, if_false, hs, hv, hmark, Bool.not_true, Bool.or_self]
  rfl

/-- With no marker in flight, the signature becomes its copy's. -/
theorem vcSignature_of_noMarker (hv : c.pairValid c.mapsNow.p n = true) (hm : (c.pair n).marking = true)
    (hs : (c.pair n).sigW = (sig, pos, f) :: rest) (hw : (c.pair n).markW = none) (hp : (c.pair n).markP = none) :
    c.vcSignature n false = c.setPair n { c.pair n with sigW := rest, markW := some { sig := sig, pos := pos, frame := f } } := by
  simp only [vcSignature_of_head hv hm hs, hw, hp, Option.map_none, Option.getD_none]

/-- An equal signature in time marks the other copy's marker as matched. -/
theorem vcSignature_of_equal {w m : Marker} (hv : c.pairValid c.mapsNow.p n = true) (hm : (c.pair n).marking = true)
    (hs : (c.pair n).sigW = (sig, pos, f) :: rest) (hp : (c.pair n).markP = some m) (hw : (c.pair n).markW = some w)
    (he : m.hit = none ∧ m.sig = sig ∧ m.frame ≤ f ∧ f ≤ m.frame + 1024) : c.vcSignature n false = c.setPair n { c.pair n with
      sigW := rest, markP := some { m with hit := some ((pos + 2 ^ 32 - m.pos) % 2 ^ 32, f - m.frame) } } := by
  have hc : compared sig pos f m = { m with hit := some ((pos + 2 ^ 32 - m.pos) % 2 ^ 32, f - m.frame) } := if_pos he
  simp only [vcSignature_of_head hv hm hs, hw, hp, Option.map_some, hc, Option.getD_some]

end Signatures

/-! ## Matches and misses of markers (R284, R285, Table 9-3) -/

section Markers

variable {c d e : Core} {n st off skew : Nat} {m : Marker} {x y : Pair} {g : Pair → Pair}

/-- Of the block `c`, `d` has the pair `n` at `y` and the others as they were; the rest is that of `e`. -/
def PairBecomes (c : Core) (n : Nat) (y : Pair) (e d : Core) : Prop :=
  d.pair n = y ∧ d = { e with sluS := d.sluS } ∧ ∀ k, k ≠ n → d.pair k = c.pair k

theorem pairBecomes_setPair : PairBecomes c n y c (c.setPair n y) :=
  ⟨(Core.pair_setPair ..).trans (if_pos rfl), rfl, fun _ hk => (Core.pair_setPair ..).trans (if_neg hk)⟩

theorem PairBecomes.setPair (h : PairBecomes c n x e d) : PairBecomes c n y e (d.setPair n y) := by
  obtain ⟨-, he, ho⟩ := h
  refine ⟨(Core.pair_setPair ..).trans (if_pos rfl), ?_, fun k hk => (Core.pair_setPair ..).trans ((if_neg hk).trans (ho k hk))⟩
  rw [he]
  rfl

theorem PairBecomes.ev {a : Nat} {w : Word} (h : PairBecomes c n x e d) : PairBecomes c n x (e.ev a w) (d.ev a w) := by
  obtain ⟨hn, he, ho⟩ := h
  refine ⟨hn, ?_, ho⟩
  rw [he]
  rfl

/-- A change of ALIGN raises its event. -/
theorem PairBecomes.setAlign (h : PairBecomes c n x e d) (ha : x.align ≠ st) :
    PairBecomes c n { g x with align := st } (e.ev (slu 0x400) (bit 1)) (d.setAlign n st g) := by
  have hs : d.setAlign n st g = (d.setPair n { g x with align := st }).ev (slu 0x400) (bit 1) := by
    rw [← h.1] at ha ⊢
    exact if_neg ha
  exact hs ▸ h.setPair.ev

/-- The matches in a row of an offset led by the copy P, with this one. -/
def matchRun (x : Pair) (off : Nat) : Nat :=
  if (match x.cand with | some q => decide (q.1 = off) && decide (q.2.1 = true) | none => false) then x.candRun + 1 else 1

/-- The pair once the marker of its copy P is taken as matched. -/
def matchTaken (x : Pair) (off skew : Nat) : Pair :=
  { x with markP := none, cand := some (off, true, skew), candRun := matchRun x off }

/-- The pair with its offset confirmed, led by the copy P; a read of the same alignment goes on. -/
def offsetConfirmed (off skew : Nat) (x : Pair) : Pair :=
  { x with
    offset := some off, lead := true, skew := skew, missRun := 0, candRun := 0
    rd := if x.offset = some off ∧ x.lead = true then x.rd else none
    rdNow := if x.offset = some off ∧ x.lead = true then x.rdNow else none }

/-- The pair with a skew beyond its allowance. -/
def offsetRefused (skew : Nat) (x : Pair) : Pair :=
  { x with offset := none, rd := none, rdNow := none, lead := true, skew := skew, missRun := 0, candRun := 0 }

theorem markerMatch_of_unaligned (hp : (c.pair n).markP = some m) (hh : m.hit = some (off, skew)) (hm : (c.pair n).marking = true)
    (ha : (c.pair n).align = 1) : c.markerMatch n true =
      let d := c.setPair n (matchTaken (c.pair n) off skew)
      if matchRun (c.pair n) off < c.confN then d
      else if skew ≤ c.pairSkew c.mapsNow.p n then d.setAlign n 2 (offsetConfirmed off skew) else d.setAlign n 3 (offsetRefused skew) := by
  unfold Core.markerMatch
  simp only [if_true, hp, Option.bind_some, hh, hm, Bool.not_true, Bool.false_eq_true, if_false, ha, matchTaken]
  rfl

theorem pairBecomes_confirmed (hp : (c.pair n).markP = some m) (hh : m.hit = some (off, skew)) (hm : (c.pair n).marking = true)
    (ha : (c.pair n).align = 1) (hr : c.confN ≤ matchRun (c.pair n) off) (hs : skew ≤ c.pairSkew c.mapsNow.p n) :
    PairBecomes c n { offsetConfirmed off skew (matchTaken (c.pair n) off skew) with align := 2 } (c.ev (slu 0x400) (bit 1))
      (c.markerMatch n true) := by
  rw [markerMatch_of_unaligned hp hh hm ha]
  simp only [if_neg (Nat.not_lt.mpr hr), if_pos hs]
  exact pairBecomes_setPair.setAlign (by rw [matchTaken, ha]; decide)

theorem pairBecomes_refused (hp : (c.pair n).markP = some m) (hh : m.hit = some (off, skew)) (hm : (c.pair n).marking = true)
    (ha : (c.pair n).align = 1) (hr : c.confN ≤ matchRun (c.pair n) off) (hs : c.pairSkew c.mapsNow.p n < skew) :
    PairBecomes c n { offsetRefused skew (matchTaken (c.pair n) off skew) with align := 3 } (c.ev (slu 0x400) (bit 1))
      (c.markerMatch n true) := by
  rw [markerMatch_of_unaligned hp hh hm ha]
  simp only [if_neg (Nat.not_lt.mpr hr), if_neg (Nat.not_le.mpr hs)]
  exact pairBecomes_setPair.setAlign (by rw [matchTaken, ha]; decide)

theorem markerMiss_of_late (hw : (c.pair n).markW = some m) (hh : m.hit = none) (hl : m.frame + 1024 < c.frame) :
    c.markerMiss n false = (c.setPair n { c.pair n with markW := none }).markerBad n := by
  unfold Core.markerMiss
  simp only [Bool.false_eq_true, if_false, hw]
  exact if_pos ⟨hh, hl⟩

/-- The pair with its offset lost. -/
def offsetLost (x : Pair) : Pair :=
  { x with offset := none, rd := none, rdNow := none, cand := none, candRun := 0, missRun := 0 }

theorem markerBad_of_few (ha : (c.pair n).align ≠ 1) (hl : (c.pair n).missRun + 1 < c.loseN) :
    c.markerBad n = c.setPair n { c.pair n with missRun := (c.pair n).missRun + 1, candRun := 0 } :=
  (if_neg ha).trans (if_neg (by omega))

theorem markerBad_of_enough (ha : (c.pair n).align ≠ 1) (hl : c.loseN ≤ (c.pair n).missRun + 1) :
    c.markerBad n = c.setAlign n 1 offsetLost := (if_neg ha).trans (if_pos hl)

theorem pairBecomes_missed_of_few (ha : x.align ≠ 1) (hl : x.missRun + 1 < c.loseN) :
    PairBecomes c n { x with missRun := x.missRun + 1, candRun := 0 } c ((c.setPair n x).markerBad n) := by
  have h : PairBecomes c n x c (c.setPair n x) := pairBecomes_setPair
  rw [markerBad_of_few (by rwa [h.1]) (by rwa [h.1]), h.1]
  exact h.setPair

theorem pairBecomes_missed_of_enough (ha : x.align ≠ 1) (hl : c.loseN ≤ x.missRun + 1) :
    PairBecomes c n { offsetLost x with align := 1 } (c.ev (slu 0x400) (bit 1)) ((c.setPair n x).markerBad n) := by
  have h : PairBecomes c n x c (c.setPair n x) := pairBecomes_setPair
  rw [markerBad_of_enough (by rwa [h.1]) (by rwa [h.1])]
  exact h.setAlign ha

end Markers

/-- Settles O39: what is recorded and compared by the signatures' lemmas, matches and misses by what becomes of the pair. -/
theorem markersAlignTheCopies : Obligations.MarkersAlignTheCopies := by
  unfold Obligations.MarkersAlignTheCopies
  intro c n hv hm x set kept
  have hsig (prot sig pos f s) : exec (.vcFrameSignature n prot sig pos f) s = s.onSeen
      (fun c => decide ((if prot then (c.pair n.val).sigP else (c.pair n.val).sigW).head? = some (sig, pos, f)))
      (·.vcSignature n.val prot) := rfl
  have hmatch (s) : exec (.markerMatch n true) s = s.on (·.markerMatch n.val true) := rfl
  have hmiss (s) : exec (.markerMiss n false) s = s.on (·.markerMiss n.val false) := rfl
  refine ⟨fun hp => pair_recordSigs_of_only hp hm, fun sig pos f h => ?_, fun sig pos f h => ?_,
    fun sig pos f rest hs => ⟨fun hw hp => ?_, fun w m hp hw hh he hf hl => ?_⟩,
    fun m off skew hp hh ha => ⟨fun hr => ?_, fun hr hs => ?_, fun hr hs => ?_⟩,
    fun m hw hh hf ha hl => ?_, fun m hw hh hf ha hl => ?_⟩
  · exact goes_of_unseen (hsig false sig pos f) (decide_eq_false h)
  · exact goes_of_unseen (hsig true sig pos f) (decide_eq_false h)
  · exact goes_of_seen (hsig false sig pos f) (decide_eq_true (congrArg List.head? hs)) (vcSignature_of_noMarker hv hm hs hw hp)
  · exact goes_of_seen (hsig false sig pos f) (decide_eq_true (congrArg List.head? hs)) (vcSignature_of_equal hv hm hs hp hw ⟨hh, he, hf, hl⟩)
  · exact goes_of_on hmatch ((markerMatch_of_unaligned hp hh hm ha).trans (if_pos hr))
  · exact reaches_of_on hmatch (pairBecomes_confirmed hp hh hm ha hr hs)
  · exact reaches_of_on hmatch (pairBecomes_refused hp hh hm ha hr hs)
  · refine reaches_of_on hmiss ?_
    rw [markerMiss_of_late hw hh hf]
    exact pairBecomes_missed_of_few ha hl
  · refine reaches_of_on hmiss ?_
    rw [markerMiss_of_late hw hh hf]
    exact pairBecomes_missed_of_enough (ne_of_eq_of_ne ha (by decide)) hl

/-! ## Mirror messages (R309, Table 9-10) -/

section Mirror

variable {c d : Core} {t at_ : Nat} {ts : List Nat}

/-- A selector as its mirror record has been sent in the frame `at_`. -/
def mirrored (at_ : Nat) (x : Pair) : Pair := { x with dirty := false, mirAt := at_ }

/-- The selector of a target marked as sent. -/
def markSent (at_ t : Nat) (c : Core) : Core :=
  if t < 0xC000 then c.setPair t (mirrored at_ (c.pair t))
  else c.setMsp (t - 0xC000) { c.msp (t - 0xC000) with p := mirrored at_ (c.msp (t - 0xC000)).p }

/-- A message on its way to the mate. -/
def queued (c : Core) (msg : List Byte) : Core := { c with sluS := { c.sluS with out := c.sluS.out ++ [msg] } }

theorem mirrorSend_of_active (hr : c.role = 3) (hm : c.gb (slu 0x44) 3 = true) :
    ∃ (ts : List Nat) (get : Nat → Pair), ts.length ≤ 32 ∧
      c.mirrorSend = forL ts (markSent c.frame) (queued c (le 1 2 ++ ts.flatMap fun t => mirrorBytes t (get t))) := by
  have h : (decide (c.role = 3) && c.gb (slu 0x44) 3) = true := by simp [hr, hm]
  refine ⟨_, _, ?_, if_pos h⟩
  exact List.length_take_le _ _

theorem mirrorSend_of_otherRole (hr : c.role ≠ 3) : c.mirrorSend = c := if_neg (by simp [hr])

/-- Only the Sluice's selectors differ, and of the pairs' neither command, WTR nor selection. -/
def MarksOnly (c d : Core) : Prop :=
  d.sluS.out = c.sluS.out ∧ d = { c with sluS := d.sluS } ∧
    ∀ n, (d.pair n).cmd = (c.pair n).cmd ∧ (d.pair n).wtr = (c.pair n).wtr ∧ (d.pair n).sel = (c.pair n).sel

theorem marksOnly_markSent (h : MarksOnly c d) : MarksOnly c (markSent at_ t d) := by
  obtain ⟨hout, hc, hp⟩ := h
  unfold markSent
  split
  · refine ⟨hout, by rw [hc]; rfl, fun n => ?_⟩
    rw [Core.pair_setPair]
    split
    · next e => exact e ▸ hp t
    · exact hp n
  · exact ⟨hout, by rw [hc]; rfl, hp⟩

theorem marksOnly_forL_markSent : MarksOnly c (forL ts (markSent at_) c) :=
  forL_induct (MarksOnly c) (fun _ _ h => marksOnly_markSent h) ts ⟨rfl, rfl, fun _ => ⟨rfl, rfl, rfl⟩⟩

/-- A mirror record is 8 bytes. -/
theorem length_mirrorRecords {get : Nat → Pair} : (ts.flatMap fun t => mirrorBytes t (get t)).length = 8 * ts.length := by
  simp [List.length_flatMap, mirrorBytes, length_le, Nat.mul_comm]

end Mirror

section Adoption

variable {c : Core} {r : MirrorRec} {rs : List MirrorRec}

/-- The selector with a record's command and WTR. -/
def adopted (r : MirrorRec) (x : Pair) : Pair :=
  { x with cmd := if r.cmd.val ≤ 5 then r.cmd.val else 0, wtr := if r.wtr = 0 then none else some r.wtr }

theorem mirrorReceive_of_pair (hr : c.role = 2) (hm : c.gb (slu 0x44) 3 = true) (ht : r.target < 16384)
    (hv : c.pairValid c.mapsNow.p r.target = true) (hi : c.sluS.mirIn = []) : c.mirrorReceive [r] =
      Core.setPair { c with sluS := { c.sluS with mirIn := Sparse.put (fun _ => 0) [] r.target c.frame } } r.target
        (adopted r (c.pair r.target)) := by
  rw [Core.mirrorReceive, if_pos (by simp [hr, hm])]
  simp only [forL, List.foldl, hi, List.find?_nil, Bool.false_eq_true, if_false]
  rw [if_pos ht]
  exact if_pos hv

theorem mirrorReceive_of_otherRole (hr : c.role ≠ 2) : c.mirrorReceive rs = c := if_neg (by simp [hr])

end Adoption

/-! ## The lanes of the MATE link (R305, Table 9-12) -/

section Lanes

variable {c : Core} {lane up : Bool}

/-- The bit of SLU_STATE that shows a lane. -/
def laneBit (lane : Bool) : Nat := if lane then 4 else 3

theorem laneBit_cases (lane : Bool) : laneBit lane = 3 ∨ laneBit lane = 4 := by cases lane <;> decide

/-- A lane's new state shown, with its event. -/
def laneShown (c : Core) (lane up : Bool) : Core := (c.sb (slu 0x200) (laneBit lane) up).ev (slu 0x400) (bit 8)

theorem mateLane_of_same (h : c.gb (slu 0x200) (laneBit lane) = up) : c.mateLane lane up = c := if_pos (.inl h)

theorem mateLane_up (hl : c.gb (lev 0x204) 6 = true) (h : c.gb (slu 0x200) (laneBit lane) = false) :
    c.mateLane lane true = laneShown c lane true :=
  (if_neg (by simp [hl, show c.gb (slu 0x200) (if lane then 4 else 3) = false from h])).trans (if_neg (by simp))

theorem gb_laneShown_other {a k : Nat} (h0 : a ≠ slu 0x200) (h4 : a ≠ slu 0x400) : (laneShown c lane up).gb a k = c.gb a k :=
  gb_congr ((rd_ev_ne _ h4).trans (rd_sb_ne _ _ h0)) k

theorem gb_laneShown {k : Nat} :
    (laneShown c lane up).gb (slu 0x200) k = if k = laneBit lane then up else c.gb (slu 0x200) k :=
  (gb_congr (rd_ev_ne _ (by decide)) k).trans (gb_sb (by have hl := laneBit_cases lane; omega))

/-- With the other lane down too, no lane is up. -/
theorem gf_laneShown_of_lastLane (h : c.gb (slu 0x200) (7 - laneBit lane) = false) : (laneShown c lane false).gf (slu 0x200) 3 2 = 0 := by
  have hb : ∀ i < 2, (laneShown c lane false).gb (slu 0x200) (3 + i) = false := by
    intro i hi
    rw [gb_laneShown]
    split
    · rfl
    · next hne =>
      have e : 3 + i = 7 - laneBit lane := by
        have hl := laneBit_cases lane
        omega
      rw [e, h]
  apply Nat.eq_of_testBit_eq
  intro i
  rw [Core.gf, testBit_fld, Nat.zero_testBit]
  by_cases hi : i < 2
  · exact (congrArg _ (hb i hi)).trans (Bool.and_false _)
  · simp [hi]

theorem mateLane_down (h : c.gb (slu 0x200) (laneBit lane) = true) : c.mateLane lane false =
    let d := laneShown c lane false
    if d.gb (slu 0x44) 0 && decide (d.gf (slu 0x200) 3 2 &&& d.gf (slu 0x44) 4 2 = 0) then d.report 109 else d :=
  if_neg (by simp [show c.gb (slu 0x200) (if lane then 4 else 3) = true from h])

end Lanes

/-- Settles O44, command by command: one message by `mirrorSend_of_active`, a record by its adoption, a lane by its bit. -/
theorem mateMessagesAndLanes : Obligations.MateMessagesAndLanes := by
  unfold Obligations.MateMessagesAndLanes
  intro c
  have hsend (s) : exec .mirrorSend s = s.on (·.mirrorSend) := rfl
  have hrec (rs s) : exec (.mirrorReceive rs) s = s.on (·.mirrorReceive rs) := rfl
  have hup (lane s) : exec (.mateLaneUp lane) s = s.on (·.mateLane lane true) := rfl
  have hdown (lane s) : exec (.mateLaneDown lane) s = s.on (·.mateLane lane false) := rfl
  refine ⟨fun hr hm => ?_, fun hr => ?_, fun r hr hm ht hv hi => ?_, fun rs hr => ?_, fun lane =>
    ⟨fun hl hb => ?_, fun hb => ?_, fun hb he => ?_, fun hb he ho => ?_, fun hb => ?_⟩⟩
  · refine reaches_of_on hsend ?_
    obtain ⟨ts, get, hlen, he⟩ := mirrorSend_of_active hr hm
    obtain ⟨hout, hc, hp⟩ := marksOnly_forL_markSent (c := queued c (le 1 2 ++ ts.flatMap fun t => mirrorBytes t (get t)))
      (at_ := c.frame) (ts := ts)
    have hl := length_mirrorRecords (ts := ts) (get := get)
    rw [he]
    exact ⟨_, hout, by omega, by omega, hc, hp⟩
  · exact goes_of_on hsend (mirrorSend_of_otherRole hr)
  · exact goes_of_on (hrec [r]) (mirrorReceive_of_pair hr hm ht hv hi)
  · exact goes_of_on (hrec rs) (mirrorReceive_of_otherRole hr)
  · exact goes_of_on (hup lane) (mateLane_up hl hb)
  · exact goes_of_on (hup lane) (mateLane_of_same hb)
  · have hd : (laneShown c lane false).gb (slu 0x44) 0 = false := (gb_laneShown_other (by decide) (by decide)).trans he
    exact goes_of_on (hdown lane) ((mateLane_down hb).trans (if_neg (by simp [hd])))
  · have hd : (laneShown c lane false).gb (slu 0x44) 0 = true := (gb_laneShown_other (by decide) (by decide)).trans he
    exact goes_of_on (hdown lane) ((mateLane_down hb).trans (if_pos (by simp [hd, gf_laneShown_of_lastLane ho])))
  · exact goes_of_on (hdown lane) (mateLane_of_same hb)

end Sys2Proof.Proofs

/-! The obligations of timing and Gauges (chapter 10): the loop, the selector's timers and commands, and TIM on and off; a Gauge's input
events, outputs, presence, resets, swaps and coefficients. -/

namespace Sys2Proof.Proofs

open Sys2Proof Sys2Proof.Machine Sys2Proof.Safety

/-! ## Host writes of what a register holds (R36) -/

section HostPuts

variable {i : Instr} {c d : Core} {a k : Nat} {v m : Word}

/-- The block once a write has been answered. -/
def answered (d : Core) : Core := ({ d with linkOut := d.linkOut ++ [.done] } : Core).msi

/-- A host write to a page that is reached, done at once. -/
theorem hostPut_of_page (h4 : a % 4 = 0) (ha : a < 0x80000) (ho : Open c (islandOf (a / 0x1000))) (hk : (pageKind (a / 0x1000)).isSome = true)
    (hp : privileged (a / 0x1000) = false) (hd : (Arrives c).regWrite a v all32 8 = d) :
    c.hostPut a v = answered d := by
  have hx : (BitVec.ofNat 20 a).toNat = a := by rw [BitVec.toNat_ofNat]; omega
  have hi (s) : exec (.registerWrite (BitVec.ofNat 20 a) v 8) s = s.on (·.access (.wr a v 8)) :=
    congrArg (fun n => s.on (·.access (.wr n v 8))) hx
  have h := answers_write hi h4 ha ho hk hp hd [] []
  rw [hi, State.on_next] at h
  exact congrArg State.core (Host.Outcome.next.inj h)

/-- Such a write, where the value written is made of what the block shows. -/
theorem answers_hostPut {f : Core → Word} (hi : ∀ s, exec i s = s.on fun c => c.hostPut a (f c)) (h4 : a % 4 = 0) (ha : a < 0x80000)
    (ho : Open c (islandOf (a / 0x1000))) (hk : (pageKind (a / 0x1000)).isSome = true) (hp : privileged (a / 0x1000) = false)
    (hd : (Arrives c).regWrite a (f c) all32 8 = d) : Answers i c d .done :=
  goes_of_on hi (hostPut_of_page h4 ha ho hk hp hd)

theorem rd_stow : (d.stow a v m).rd a = (d.voted a &&& ~~~m) ||| (v &&& m) := (Core.rd_wr _ _ _ _).trans (if_pos rfl)

/-- A bit that a write stores. -/
theorem gb_stored_of_mask (h : m.getLsbD k = true) : (Stored d a v m).gb a k = bitOf v k := by
  have h0 : m ≠ 0 := by rintro rfl; simp at h
  rw [stored_of_ne h0, Core.gb, rd_stow, bitOf_eq, bitOf_eq]
  simp [h]

/-- A bit that it does not store, where the copies agree. -/
theorem gb_stored_of_notMask (h1 : d.ct1 = []) (h2 : d.ct2 = []) (hm : m.getLsbD k = false) (hr : (rvOf a).getLsbD k = false) :
    (Stored d a v m).gb a k = d.gb a k := by
  have hv : d.voted a = d.rd a := by simp [Core.voted, h1, h2, Sparse.get]
  have hs : (m ||| if d.sealed then 0 else rvOf a).getLsbD k = false := by
    rw [BitVec.getLsbD_or, hm]
    split
    · exact BitVec.getLsbD_zero
    · exact hr
  by_cases h0 : (m ||| if d.sealed then 0 else rvOf a) = 0
  · simp only [Stored, if_pos h0]
  · simp only [Stored, if_neg h0]
    rw [Core.gb, rd_stow, bitOf_eq, hv, Core.gb, bitOf_eq]
    generalize (m ||| if d.sealed then 0 else rvOf a) = w at hs
    by_cases hk : k < 32
    · simp only [BitVec.getLsbD_or, BitVec.getLsbD_and, BitVec.getLsbD_not, hs]
      simp [hk]
    · simp [BitVec.getLsbD_of_ge _ _ (Nat.le_of_not_lt hk)]

/-- A write keeps registers free of mismatches and of flipped copies (R42, R44). -/
theorem right_stored (hp : d.parMis = []) (h1 : d.ct1 = []) (h2 : d.ct2 = []) :
    (Stored d a v m).parMis = [] ∧ (Stored d a v m).ct1 = [] ∧ (Stored d a v m).ct2 = [] := by
  by_cases h0 : (m ||| if d.sealed then 0 else rvOf a) = 0
  · simp only [Stored, if_pos h0]
    exact ⟨hp, h1, h2⟩
  · simp only [Stored, if_neg h0, Core.stow, hp, h1, h2]
    exact ⟨rfl, rfl, rfl⟩

theorem rd_ign {b cause : Nat} (hc : a ≠ pg (b / 0x1000) + 0xC) (h8 : a ≠ pg (b / 0x1000) + 8) : (c.ign b cause).rd a = c.rd a :=
  (rd_ev_ne _ h8).trans (rd_wr_ne _ hc)

theorem rd_report {n : Nat} : (c.report n).rd a = c.rd a := by rw [report_frame]; rfl

end HostPuts

/-! ## The timing loop (R326, R327) -/

section Loop

variable {c d : Core} {a n st : Nat}

theorem loop_congr (h : c.rd (tim 0x200) = d.rd (tim 0x200)) : c.loop = d.loop := gf_congr h 0 3
theorem selNow_congr (h : c.rd (tim 0x200) = d.rd (tim 0x200)) : c.selNow = d.selNow := by
  rw [Core.selNow, gb_congr h, gf_congr h, Core.selNow]

/-- A state of the loop shown with its event, its runs counted afresh (Table 10-5). -/
def loopShown (c : Core) (st : Nat) : Core :=
  let d := (c.sf (tim 0x200) 0 3 st).ev (tim 0x400) (bit 0)
  { d with timS := { d.timS with lockRun := 0, lossRun := 0 } }

/-- ACQUIRE and LOCKED are entered with no frequency of their own and no report. -/
theorem setLoop_of_tracking (h : c.loop ≠ st) (hs : st = 1 ∨ st = 2) : c.setLoop st = loopShown c st := by
  unfold Core.setLoop
  rw [if_neg h]
  rcases hs with rfl | rfl <;> rfl

/-- Whatever state is entered, TIM_STAT shows it, and beside it what it showed. -/
theorem rd_setLoop (h : c.loop ≠ st) : (c.setLoop st).rd (tim 0x200) = setFld (c.rd (tim 0x200)) 0 3 st := by
  have hshown : (loopShown c st).rd (tim 0x200) = setFld (c.rd (tim 0x200)) 0 3 st :=
    (rd_ev_ne _ (by decide)).trans ((Core.rd_sf _ _ _ _ _ _).trans (if_pos rfl))
  unfold Core.setLoop
  rw [if_neg h]
  lift_lets
  extract_lets c1 t c2 c3 c4
  have h3 : c3.rd (tim 0x200) = setFld (c.rd (tim 0x200)) 0 3 st := by
    unfold c3
    split
    · exact (rd_wr_ne _ (by decide)).trans hshown
    · exact hshown
  have h4 : c4.rd (tim 0x200) = setFld (c.rd (tim 0x200)) 0 3 st := by
    unfold c4
    split
    · exact (rd_ev_ne _ (by decide)).trans ((rd_cn_ne _ (by decide)).trans ((rd_wr_ne _ (by decide)).trans h3))
    · exact h3
  split
  · exact rd_report.trans h4
  · exact h4

theorem loop_setLoop (h : c.loop ≠ st) (hs : st < 8) : (c.setLoop st).loop = st := by
  rw [Core.loop, Core.gf, rd_setLoop h, fld_setFld _ _ _ _ (by decide)]
  exact Nat.mod_eq_of_lt hs

/-- The state of the loop is not the selection (Table 10-10). -/
theorem selNow_setLoop (h : c.loop ≠ st) : (c.setLoop st).selNow = c.selNow := by
  rw [Core.selNow, Core.gb, Core.gf, rd_setLoop h, bitOf_eq, setFld_other _ _ _ _ _ (.inr (by decide)), fld_setFld_ne (.inr (by decide)),
    Core.selNow, Core.gb, Core.gf, bitOf_eq]

theorem loopLock_of_due (h : c.loop = 1) (hr : 16000 ≤ c.timS.lockRun) : c.loopLock = loopShown c 2 :=
  (if_pos ⟨h, hr⟩).trans (setLoop_of_tracking (by omega) (.inr rfl))
theorem loopLock_of_early (hr : c.timS.lockRun < 16000) : c.loopLock = c := if_neg fun h => by omega

theorem loopLoss_of_due (h : c.loop = 2) (hr : 800 ≤ c.timS.lossRun) : c.loopLoss = (loopShown c 1).cn (tim 0x508) 1 :=
  (if_pos ⟨h, hr⟩).trans (congrArg (·.cn (tim 0x508) 1) (setLoop_of_tracking (by omega) (.inl rfl)))
theorem loopLoss_of_early (hr : c.timS.lossRun < 800) : c.loopLoss = c := if_neg fun h => by omega

/-! ### The end of the hold-off and of a WTR -/

theorem rd_showSi (h : a ≠ tim (0x210 + 4 * n)) : (c.showSi n).rd a = c.rd a := rd_wr_ne _ h

theorem rd_showSis (h : a = tim 0x200) : (forN 8 (fun n c => c.showSi n) c).rd a = c.rd a :=
  forN_induct (fun d : Core => d.rd a = c.rd a) (fun n d _ hd => (rd_showSi (by rw [h]; simp only [tim]; omega)).trans hd) rfl

/-- The QL sent is in TIM_QL_TX and in the ports' S1 (R336). -/
theorem rd_qlFrame (h : a ∉ [tim 0x510, tim 0x400, tim 0x230]) : c.qlFrame.rd a = c.rd a := by
  simp only [List.mem_cons, List.not_mem_nil, or_false, not_or] at h
  obtain ⟨hcn, hev, hql⟩ := h
  unfold Core.qlFrame
  extract_lets old rank c1 c2 back
  have h1 : c1.rd a = c.rd a := by
    unfold c1
    split
    · rfl
    · exact (rd_ev_ne _ hev).trans (rd_cn_ne _ hcn)
  refine forN_induct (fun d : Core => d.rd a = c.rd a) (fun p d _ hd => ?_) ((rd_wr_ne _ hql).trans h1)
  exact hd

/-- A hold-off that ends with nothing selected and nothing to select: the loop leaves BRIDGE (R327). -/
theorem holdoffEnd_of_noInput (h : c.loop = 4) (hr : min 18 (c.gf (tim 0xB00) 0 5) * 800 ≤ c.timS.hold) (hn : c.selNow = none)
    (hc : c.selChoice = none) :
    c.holdoffEnd = (forN 8 (fun n c => c.showSi n) (c.setLoop (if c.hoSeconds = [] then 0 else 3))).qlFrame := by
  have hsel : c.setSel none = c := if_pos hn
  rw [Core.holdoffEnd, if_pos ⟨h, hr⟩, hn]
  simp only [hc, hsel]
  rfl

theorem holdoffEnd_of_notBridge (h : c.loop ≠ 4) : c.holdoffEnd = c := if_neg fun hif => h hif.1

theorem shown_holdoffEnd (h : c.loop = 4) (hr : min 18 (c.gf (tim 0xB00) 0 5) * 800 ≤ c.timS.hold) (hn : c.selNow = none)
    (hc : c.selChoice = none) : c.holdoffEnd.loop = (if c.hoSeconds = [] then 0 else 3) ∧ c.holdoffEnd.selNow = none := by
  rw [holdoffEnd_of_noInput h hr hn hc]
  generalize hst : (if c.hoSeconds = [] then 0 else 3) = st
  have hle : st ≤ 3 := by rw [← hst]; split <;> decide
  have hne : c.loop ≠ st := by omega
  have hrd : ((forN 8 (fun n c => c.showSi n) (c.setLoop st)).qlFrame).rd (tim 0x200) = (c.setLoop st).rd (tim 0x200) :=
    (rd_qlFrame (by decide)).trans (rd_showSis rfl)
  exact ⟨(loop_congr hrd).trans (loop_setLoop hne (by omega)), (selNow_congr hrd).trans ((selNow_setLoop hne).trans hn)⟩

theorem siWtrEnd_of_zero (h : (c.selIn n).wtr = some 0) :
    c.siWtrEnd n = ((c.setSelIn n { c.selIn n with wtr := none }).showSi n).ev (tim 0x400) (bit 2) := if_pos h
theorem siWtrEnd_of_notZero (h : (c.selIn n).wtr ≠ some 0) : c.siWtrEnd n = c := if_neg h

end Loop

/-! ## TIM_CMD (R335) -/

section TimCmd

variable {i : Instr} {c d : Core} {left : Nat} {v : Word}

/-- The row of TIM_CMD (Table 10-11). -/
def timCmdRow : Row := { off := 0xB30, cf := 0x7F, cmd := 0x1 }

/-- A quiet write of TIM_CMD with GO is held for its boundary, or recorded while BUSY shows. -/
theorem regWrite_timCmd (hq : Quiet d (tim 0xB30) v) (hgo : bitOf v 0 = true) :
    d.regWrite (tim 0xB30) v all32 left =
      (let f := Stored d (tim 0xB30) v 0x7E
       if f.gb (tim 0xB34) 0 then f.ign (tim 0xB30) 8 else f.timCmdGo (f.rd (tim 0xB30) ||| 1) left) := by
  have hr : regRow (tim 0xB30 / 0x1000) (tim 0xB30 % 0x1000) = some timCmdRow := rfl
  have hlock : Unlocked d timCmdRow (tim 0xB30 / 0x1000) (tim 0xB30 % 0x1000) all32 := ⟨fun h => absurd h.2.1 (by decide), rfl, rfl⟩
  have hdiv : tim 0xB30 / 0x1000 = 0xD := rfl
  have hmod : tim 0xB30 % 0x1000 = 0xB30 := rfl
  have hk : pageKind 0xD = some .tim := rfl
  have h4 : (0xB30 : Nat) ≠ 4 := by decide
  rw [regWrite_of_quiet (k := 0x7E) hr (permitted_of_soft (by decide)) hlock rfl rfl (by decide) rfl rfl hq, hdiv, hmod]
  simp only [Core.writeEffect, if_neg h4, hk, if_true, hgo]

/-- The commands of TIM_CMD, by the word that each writes. -/
theorem answers_timCmd {k n w : Nat} {set : Bool} (hi : ∀ s, exec i s = s.on (·.access (.wr (tim 0xB30) (timWord k n set) left)))
    (hw : 1 + k * 2 + n * 8 + (if set then 64 else 0) = w) (ho : Open c 4) (hq : Quiet (Arrives c) (tim 0xB30) (BitVec.ofNat 32 w)) :
    let f := Stored (Arrives c) (tim 0xB30) (BitVec.ofNat 32 w) 0x7E
    (f.gb (tim 0xB34) 0 = false → Answers i c (f.timCmdGo (f.rd (tim 0xB30) ||| 1) left) .done) ∧
    (f.gb (tim 0xB34) 0 = true → Answers i c (f.ign (tim 0xB30) 8) .done) := by
  subst hw
  have hgo : bitOf (timWord k n set) 0 = true := by
    have hodd : (1 + k * 2 + n * 8 + if set then 64 else 0) % 2 = 1 := by split <;> omega
    rw [timWord, bitOf_eq, BitVec.getLsbD_ofNat, Nat.testBit_zero, hodd]
    rfl
  have h {d} (hd : (Arrives c).regWrite (tim 0xB30) (timWord k n set) all32 left = d) : Answers i c d .done :=
    answers_write hi rfl (by decide) ho rfl rfl hd
  exact ⟨fun hb => h ((regWrite_timCmd hq hgo).trans (if_neg (ne_true_of_eq_false hb))),
    fun hb => h ((regWrite_timCmd hq hgo).trans (if_pos hb))⟩

end TimCmd

/-! ## TIM on and off (R329, R47) -/

section TimPage

variable {i : Instr} {c d : Core} {a p q n s left : Nat} {v : Word}

/-- The row of PG_CTRL (Table 2-5). -/
def pgCtrlRow : Row := { off := 4, reset := 4, cf := 0x7, lv := 0x100, cmd := 0x2 }

/-- PG_CTRL of the TIM page takes a quiet write: SEAL is stored, and EN and SOFT_RST act (Table 2-5). -/
theorem regWrite_timCtrl (hq : Quiet d (tim 4) v) : d.regWrite (tim 4) v all32 left = (Stored d (tim 4) v 4).ctrlWrite 0xD v all32 := by
  have hr : regRow (tim 4 / 0x1000) (tim 4 % 0x1000) = some pgCtrlRow := rfl
  have hlock : Unlocked d pgCtrlRow (tim 4 / 0x1000) (tim 4 % 0x1000) all32 := ⟨fun h => absurd h.1 (by decide), rfl, rfl⟩
  rw [regWrite_of_quiet (k := 4) hr (permitted_of_soft (by decide)) hlock rfl rfl (by decide) rfl rfl hq]
  rfl

/-- EN of the TIM page is not what the write stores: it acts. -/
theorem en_storedTim (h1 : d.ct1 = []) (h2 : d.ct2 = []) : (Stored d (tim 4) v 4).en 0xD = d.en 0xD :=
  gb_stored_of_notMask h1 h2 (by decide) (by decide)

theorem hostPut_timCtrl (ho : Open c 4) (hq : Quiet (Arrives c) (tim 4) v) (h1 : bitOf v 1 = false)
    (hd : (Stored (Arrives c) (tim 4) v 4).writeEn 0xD (bitOf v 0) = d) :
    c.hostPut (tim 4) v = answered d :=
  hostPut_of_page rfl (by decide) ho rfl rfl ((regWrite_timCtrl hq).trans ((ctrlWrite_of_noReset h1).trans hd))

theorem timOn_bits {w : Word} : bitOf ((w &&& 4) ||| 1) 0 = true ∧ bitOf ((w &&& 4) ||| 1) 1 = false := by
  simp [bitOf]

theorem timOff_bits {w : Word} : bitOf (w &&& 4) 0 = false ∧ bitOf (w &&& 4) 1 = false := by
  simp [bitOf]

/-! ### TIM enabled -/

/-- TIM as it starts: D06 at frame 0, the loop in FREERUN with nothing selected (R63, R329). -/
def TimStarted (d : Core) : Prop := d.en 0xD = true ∧ d.d06 = true ∧ d.frame = 0 ∧ d.pmSec = 0 ∧ d.loop = 0 ∧ d.selNow = none

/-- A field within one that reads zero reads zero, and so do its bits. -/
theorem fld_of_zero {w : Word} {lo k lo' k' : Nat} (h : fld w lo k = 0) (hl : lo ≤ lo') (hk : lo' + k' ≤ lo + k) : fld w lo' k' = 0 := by
  apply Nat.eq_of_testBit_eq
  intro i
  rw [testBit_fld, Nat.zero_testBit]
  by_cases hi : i < k'
  · have hb : (fld w lo k).testBit (lo' + i - lo) = false := by rw [h, Nat.zero_testBit]
    rw [testBit_fld, show lo + (lo' + i - lo) = lo' + i by omega, decide_eq_true (by omega), Bool.true_and] at hb
    rw [hb, Bool.and_false]
  · rw [decide_eq_false hi, Bool.false_and]

theorem bitOf_of_zero {w : Word} {lo k b : Nat} (h : fld w lo k = 0) (hl : lo ≤ b) (hb : b < lo + k) : bitOf w b = false := by
  have h1 : (fld w b 1).testBit 0 = false := by rw [fld_of_zero h hl (by omega), Nat.zero_testBit]
  rw [testBit_fld] at h1
  exact h1

/-- The block as TIM starts, but for the report of its frequency. -/
def timShown (c : Core) : Core :=
  let d := { c with d06 := true, frame := 0, pmSec := 0, harvest := none, timS :=
    { c.timS with fade := none, delta := 0, x := 0, hold := 0, lockRun := 0, lossRun := 0, secSum := 0, secN := 0,
                  secLocked := true, hist := [], sis := [] } }
  (((d.sf (tim 0x200) 0 11 0).wr (tim 0x204) 0).wr (tim 0x208) 0).ev (tim 0x400) (bit 0)

/-- The start of TIM is `timShown` with a report at most. -/
theorem timStart_eq : ∃ l, c.timStart = { timShown c with reports := l } := by
  have h : c.timStart = if (List.range 6).any (timShown c).bankOn then (timShown c).report 110 else timShown c := rfl
  rw [h]
  split
  · exact ⟨_, report_frame _ 110⟩
  · exact ⟨_, rfl⟩

theorem rd_timShown (h : a ∉ [tim 0x200, tim 0x204, tim 0x208, tim 0x400]) : (timShown c).rd a = c.rd a := by
  simp only [List.mem_cons, List.not_mem_nil, or_false, not_or] at h
  obtain ⟨h0, h4, h8, hev⟩ := h
  exact (rd_ev_ne _ hev).trans ((rd_wr_ne _ h8).trans ((rd_wr_ne _ h4).trans (rd_sf_ne _ _ _ h0)))

/-- TIM_STAT starts at zero: FREERUN, and no selection. -/
theorem stat_timShown : (timShown c).gf (tim 0x200) 0 11 = 0 := by
  have h : (timShown c).rd (tim 0x200) = setFld (c.rd (tim 0x200)) 0 11 0 :=
    (rd_ev_ne _ (by decide)).trans ((rd_wr_ne _ (by decide)).trans ((rd_wr_ne _ (by decide)).trans
      ((Core.rd_sf _ _ _ _ _ _).trans (if_pos rfl))))
  rw [Core.gf, h, fld_setFld _ _ _ _ (by decide)]
  rfl

/-- The TIM page enabled (R47). -/
theorem pageOn_tim : c.pageOn 0xD =
    ({ c with levS := { c.levS with periods := Sparse.drop 0xD c.levS.periods } }.sb (pg 0xD + 4) 0 true).timStart := rfl

theorem timStarted_pageOn : TimStarted (c.pageOn 0xD) ∧ (c.pageOn 0xD).linkOut = c.linkOut ∧ (c.pageOn 0xD).scans = c.scans := by
  rw [pageOn_tim]
  generalize hx : ({ c with levS := { c.levS with periods := Sparse.drop 0xD c.levS.periods } } : Core) = x
  have hk : x.linkOut = c.linkOut ∧ x.scans = c.scans := by rw [← hx]; exact ⟨rfl, rfl⟩
  obtain ⟨l, h⟩ := timStart_eq (c := x.sb (pg 0xD + 4) 0 true)
  rw [h]
  have hstat := stat_timShown (c := x.sb (pg 0xD + 4) 0 true)
  have hen : (timShown (x.sb (pg 0xD + 4) 0 true)).en 0xD = true :=
    (gb_congr (rd_timShown (by decide)) 0).trans (Core.gb_sb _ _ _ _ (by decide))
  exact ⟨⟨hen, rfl, rfl, rfl, fld_of_zero hstat (by decide) (by decide), 
    if_neg (ne_true_of_eq_false (bitOf_of_zero hstat (by decide) (by decide)))⟩, hk⟩

theorem scanEnd_of_noScan (h : s ∉ c.scans) : c.scanEnd s = c := if_pos (by simpa using h)

/-- The end of a scan of TIM that finds its configuration right enables the page. -/
theorem timStarted_scanEnd (h : 0xD ∈ c.scans) (h1 : c.ct1 = []) (h2 : c.ct2 = []) (hp : c.parMis = []) :
    TimStarted (c.scanEnd 0xD) ∧ (c.scanEnd 0xD).linkOut = c.linkOut := by
  have hv : scanVoted 0xD c = { c with scans := c.scans.filter (· ≠ 0xD) } := voteRange_of_agreed h1 h2
  have hb : (scanVoted 0xD c).parBad (pg 0xD + 0x40) (pg 0xD + 0x200) = [] := by rw [hv, Core.parBad, hp]; rfl
  rw [scanEnd_of_right h hb]
  obtain ⟨hs, hl, -⟩ := timStarted_pageOn (c := scanVoted 0xD c)
  exact ⟨hs, hl.trans (by rw [hv])⟩

/-- EN written 1 on a page that is not enabled: a scan runs already, or begins, or the page is enabled (R47). -/
theorem writeEn_on_cases (he : d.en s = false) :
    (s ∈ d.scans ∧ d.writeEn s true = d) ∨ (s ∉ d.scans ∧ d.writeEn s true = { d with scans := d.scans ++ [s] }) ∨
      (s ∉ d.scans ∧ d.writeEn s true = d.pageOn s) := by
  by_cases hs : s ∈ d.scans
  · exact .inl ⟨hs, by simp [Core.writeEn, hs]⟩
  · cases hst : d.stale s with
    | true => exact .inr (.inl ⟨hs, writeEn_of_stale he hs hst⟩)
    | false => exact .inr (.inr ⟨hs, writeEn_of_fresh he hs hst⟩)

/-- EN = 1 written, answered, and its scan at an end: TIM runs. -/
theorem timStarted_writeEn (he : d.en 0xD = false) (h1 : d.ct1 = []) (h2 : d.ct2 = []) (hp : d.parMis = []) (hl : d.linkOut = []) :
    TimStarted ((answered (d.writeEn 0xD true)).scanEnd 0xD) ∧ ((answered (d.writeEn 0xD true)).scanEnd 0xD).linkOut = [.done] := by
  rcases writeEn_on_cases he with ⟨hs, hw⟩ | ⟨-, hw⟩ | ⟨hs, hw⟩
  · rw [hw]
    obtain ⟨ht, hk⟩ := timStarted_scanEnd (c := answered d) hs h1 h2 hp
    exact ⟨ht, hk.trans (congrArg (· ++ [LinkResp.done]) hl)⟩
  · rw [hw]
    obtain ⟨ht, hk⟩ := timStarted_scanEnd (c := answered { d with scans := d.scans ++ [0xD] })
      (List.mem_append_right _ (List.mem_singleton_self _)) h1 h2 hp
    exact ⟨ht, hk.trans (congrArg (· ++ [LinkResp.done]) hl)⟩
  · obtain ⟨ht, hk, hsc⟩ := timStarted_pageOn (c := d)
    have hno : 0xD ∉ (answered (d.pageOn 0xD)).scans := fun h => hs (hsc ▸ h)
    rw [hw, scanEnd_of_noScan hno]
    exact ⟨ht, congrArg (· ++ [LinkResp.done]) (hk.trans hl)⟩

theorem shown_timEnable (ho : Open c 4) (hq : Quiet (Arrives c) (tim 4) ((c.rd (tim 4) &&& 4) ||| 1)) (hp : c.parMis = []) (h1 : c.ct1 = [])
    (h2 : c.ct2 = []) (he : c.en 0xD = false) :
    TimStarted ((c.hostPut (tim 4) ((c.rd (tim 4) &&& 4) ||| 1)).scanEnd 0xD) ∧
      ((c.hostPut (tim 4) ((c.rd (tim 4) &&& 4) ||| 1)).scanEnd 0xD).linkOut = [.done] := by
  obtain ⟨hv0, hv1⟩ := timOn_bits (w := c.rd (tim 4))
  generalize (c.rd (tim 4) &&& 4) ||| 1 = v at hq hv0 hv1 ⊢
  obtain ⟨hp', h1', h2'⟩ := right_stored (d := Arrives c) (a := tim 4) (v := v) (m := 4) hp h1 h2
  have he' : (Stored (Arrives c) (tim 4) v 4).en 0xD = false := (en_storedTim (d := Arrives c) h1 h2).trans he
  have hl : (Stored (Arrives c) (tim 4) v 4).linkOut = [] := by rw [stored_frame]; rfl
  rw [hostPut_timCtrl ho hq hv1 (by rw [hv0])]
  exact timStarted_writeEn he' h1' h2' hp' hl

/-! ### TIM disabled -/

/-- A lane of a port idle (R329). -/
def PortIdle (d : Core) (p : Nat) : Prop := d.gb (pe p 0x200) 6 = false ∧ (d.port p).txRate = 0

/-- TIM disabled stops the transmit lane of a port. -/
def laneStopped (p : Nat) (c : Core) : Core :=
  ((c.sb (pe p 0x200) 6 false).sb (bk (p / 16) 0x204) (p % 16) false).updPort p fun x =>
    { x with txRate := 0, txSettle := 0, tx := { x.tx with out := [], loop := [] } }

theorem rd_laneStopped (h : a ≠ bk (p / 16) 0x204) : (laneStopped p c).rd a = (c.sb (pe p 0x200) 6 false).rd a := rd_sb_ne _ _ h

theorem portIdle_laneStopped (h : q = p ∨ PortIdle c q) : PortIdle (laneStopped p c) q := by
  have hrd : (laneStopped p c).rd (pe q 0x200) = (c.sb (pe p 0x200) 6 false).rd (pe q 0x200) :=
    rd_laneStopped (by simp only [pe, bk]; omega)
  unfold PortIdle
  rw [gb_congr hrd, laneStopped, Core.port_updPort]
  by_cases hqp : q = p
  · subst hqp
    exact ⟨Core.gb_sb _ _ _ _ (by decide), by rw [if_pos rfl]⟩
  · obtain ⟨hg, ht⟩ := h.resolve_left hqp
    rw [gb_congr (rd_sb_ne _ _ (by simp only [pe]; omega)), if_neg hqp]
    exact ⟨hg, ht⟩

theorem portIdle_lanesStopped (h : q < n) : PortIdle (forN n laneStopped c) q := by
  induction n with
  | zero => omega
  | succ n ih =>
    rw [forN_succ]
    exact portIdle_laneStopped (if hq : q = n then .inl hq else .inr (ih (by omega)))

/-- TIM stopped: D06 stands and every lane is idle (R329). -/
def TimStopped (d : Core) : Prop := d.en 0xD = false ∧ d.d06 = false ∧ ∀ p, p < 96 → PortIdle d p

/-- Only its PG_CTRL and the ports' states show it. -/
theorem timStopped_congr (h : TimStopped c) (ht : d.rd (tim 4) = c.rd (tim 4)) (hp : ∀ p < 96, d.rd (pe p 0x200) = c.rd (pe p 0x200))
    (h6 : d.d06 = c.d06) (hs : d.ports = c.ports) : TimStopped d := by
  obtain ⟨he, hc, hi⟩ := h
  refine ⟨(gb_congr ht 0).trans he, h6.trans hc, fun p hlt => ?_⟩
  obtain ⟨hg, hr⟩ := hi p hlt
  exact ⟨(gb_congr (hp p hlt) 6).trans hg, (congrArg Prt.txRate (port_congr hs)).trans hr⟩

theorem timStopped_wr (h : TimStopped c) (ha : a < 0xD000) : TimStopped (c.wr a v) :=
  timStopped_congr h (rd_wr_ne _ (by simp only [tim]; omega)) (fun p _ => rd_wr_ne _ (by simp only [pe]; omega)) rfl rfl

/-- The end of a commit request in progress leaves TIM stopped. -/
theorem timStopped_stopReq (h : TimStopped c) : TimStopped (c.stopReq 5 8) := by
  have hlow : ∀ a ∈ endRegs, a < 0xD000 := by decide
  refine iteInduction (fun _ => h) fun _ => ?_
  exact endReq_induct (fun _ a ha _ hd => timStopped_wr hd (hlow a ha)) (fun _ hd => timStopped_wr hd (by decide)) (fun _ _ hd => hd)
    (fun _ _ _ hd => hd) h

theorem timStopped_fsyncPin {on : Bool} (h : TimStopped c) : TimStopped (c.fsyncPin on) := h

theorem timStopped_timStop (h : c.en 0xD = false) : TimStopped c.timStop := by
  have hlanes : TimStopped (forN 96 laneStopped { c with d06 := false }) := by
    refine ⟨?_, ?_, fun p hp => portIdle_lanesStopped hp⟩
    · have hrd : (forN 96 laneStopped { c with d06 := false }).rd (tim 4) = c.rd (tim 4) :=
        forN_induct (fun d : Core => d.rd (tim 4) = c.rd (tim 4)) (fun p d _ hd =>
          (rd_laneStopped (by simp only [tim, bk]; omega)).trans ((rd_sb_ne _ _ (by simp only [tim, pe]; omega)).trans hd)) rfl
      exact (gb_congr hrd 0).trans h
    · exact forN_induct (f := laneStopped) (fun d : Core => d.d06 = false) (fun _ _ _ hd => hd) rfl
  exact timStopped_stopReq (timStopped_fsyncPin hlanes)

/-- EN written 0 on the enabled page of TIM. -/
theorem timStopped_writeEn (he : d.en 0xD = true) : TimStopped (d.writeEn 0xD false) := by
  have hw : d.writeEn 0xD false = (({ d with scans := d.scans.filter (· ≠ 0xD) } : Core).sb (pg 0xD + 4) 0 false).timStop := by
    rw [Core.writeEn, if_neg Bool.false_ne_true]
    exact if_pos he
  rw [hw]
  exact timStopped_timStop (Core.gb_sb _ _ _ _ (by decide))

theorem timStopped_timDisable (ho : Open c 4) (hq : Quiet (Arrives c) (tim 4) (c.rd (tim 4) &&& 4)) (h1 : c.ct1 = []) (h2 : c.ct2 = [])
    (he : c.en 0xD = true) : TimStopped (c.hostPut (tim 4) (c.rd (tim 4) &&& 4)) := by
  obtain ⟨hv0, hv1⟩ := timOff_bits (w := c.rd (tim 4))
  have he' : (Stored (Arrives c) (tim 4) (c.rd (tim 4) &&& 4) 4).en 0xD = true := (en_storedTim (d := Arrives c) h1 h2).trans he
  rw [hostPut_timCtrl ho hq hv1 (by rw [hv0])]
  exact timStopped_writeEn he'

end TimPage

/-- Settles O46: the loop by its runs, the hold-off by `shown_holdoffEnd`, TIM_CMD by what its write finds, TIM by what EN written does. -/
theorem theLoopLocksAndSelects : Obligations.TheLoopLocksAndSelects := by
  unfold Obligations.TheLoopLocksAndSelects
  intro c
  have hlock (s) : exec .loopLock s = s.on (·.loopLock) := rfl
  have hloss (s) : exec .loopLockLoss s = s.on (·.loopLoss) := rfl
  have hhold (s) : exec .refHoldoffEnd s = s.on (·.holdoffEnd) := rfl
  have hwtr (n : Fin 8) (s) : exec (.refWtrEnd n) s = s.on (·.siWtrEnd n.val) := rfl
  have hon (s) : exec .timEnable s = s.on fun c => (c.hostPut (tim 4) ((c.rd (tim 4) &&& 4) ||| 1)).scanEnd 0xD := rfl
  have hoff (s) : exec .timDisable s = s.on fun c => c.hostPut (tim 4) (c.rd (tim 4) &&& 4) := rfl
  refine ⟨fun h hr => goes_of_on hlock (loopLock_of_due h hr), fun hr => goes_of_on hlock (loopLock_of_early hr),
    fun h hr => goes_of_on hloss (loopLoss_of_due h hr), fun hr => goes_of_on hloss (loopLoss_of_early hr),
    fun h hr hn hc => reaches_of_on hhold (shown_holdoffEnd h hr hn hc), fun h => goes_of_on hhold (holdoffEnd_of_notBridge h),
    fun n h => goes_of_on (hwtr n) (siWtrEnd_of_zero h), fun n h => goes_of_on (hwtr n) (siWtrEnd_of_notZero h),
    fun n set left ho i hi => ?_, fun ho hq hp h1 h2 he => reaches_of_on hon ?_, fun ho hq h1 h2 he => reaches_of_on hoff ?_⟩
  · simp only [List.mem_cons, List.not_mem_nil, or_false] at hi
    rcases hi with rfl | rfl | rfl | rfl
    · exact answers_timCmd (k := 1) (n := n.val) (set := false) (fun _ => rfl) (by simp only [Bool.false_eq_true, if_false]; omega) ho
    · exact answers_timCmd (k := 2) (n := n.val) (set := false) (fun _ => rfl) (by simp only [Bool.false_eq_true, if_false]; omega) ho
    · exact answers_timCmd (k := 3) (n := n.val) (set := set) (fun _ => rfl) (by simp only; omega) ho
    · exact answers_timCmd (k := 0) (n := 0) (set := false) (fun _ => rfl) rfl ho
  · obtain ⟨⟨hen, h6, hf, hs, hl, hn⟩, hlink⟩ := shown_timEnable ho hq hp h1 h2 he
    exact ⟨hen, h6, hf, hs, hl, hn, hlink⟩
  · exact timStopped_timDisable ho hq h1 h2 he

/-! ## What each operation of a Gauge changes -/

section GaugeRules

variable {c d : Core} {g i j k a o : Nat} {v on : Bool} {m : Word} {f : Gauge → Gauge}

theorem gauge_updGauge : (c.updGauge g f).gauge j = if j = g then f (c.gauge g) else c.gauge j := Core.gauge_setGauge _ _ _ _

theorem gauge_congr (h : c.timS = d.timS) : c.gauge j = d.gauge j := by rw [Core.gauge, h, Core.gauge]

/-- The registers of one Gauge lie apart, and apart from its page's other ones (Table 10-12). -/
theorem gaR_ne {p : Nat} (h : o ≠ p) : gaR g o ≠ gaR g p := by simp only [gaR]; omega
theorem gaR_ne_ga {p : Nat} (ho : o < 0x40) (hp : p < 0xB00) : gaR g o ≠ ga i p := by simp only [gaR, ga]; omega

theorem rd_gaEv (h : a ≠ gaR g 0x28) (hp : a ≠ ga (g / 12) 0x400) : (c.gaEv g m).rd a = c.rd a := (rd_ev_ne _ hp).trans (rd_ev_ne _ h)

/-- A Gauge's own registers but GA_EV keep their values over its events. -/
theorem rd_gaEv_own (ho : o < 0x40) (h : o ≠ 0x28) : (c.gaEv g m).rd (gaR g o) = c.rd (gaR g o) :=
  rd_gaEv (gaR_ne h) (gaR_ne_ga ho (by decide))

theorem rd_cn_own (ho : o < 0x40) (hk : k < 0xB00) : (c.cn (ga i k) 1).rd (gaR g o) = c.rd (gaR g o) := rd_cn_ne _ (gaR_ne_ga ho hk)

/-! ### VALID and SETTLING -/

/-- VALID as GA_STAT and GA_VALID show it, with GA_OUT (R323). -/
def validShown (c : Core) (g : Nat) (v : Bool) : Core :=
  let d := (c.sb (gaR g 0x18) 0 v).sb (ga (g / 12) 0x200) (g % 12) v
  if v then d else d.wr (gaR g 0x20) 0

theorem setValid_eq : c.setValid g v =
    if c.gb (gaR g 0x18) 0 = v then validShown c g v else (validShown c g v).gaEv g (bit (if v then 0 else 1)) := rfl

theorem rd_setValid (h : a ∉ [gaR g 0x18, gaR g 0x20, gaR g 0x28, ga (g / 12) 0x200, ga (g / 12) 0x400]) :
    (c.setValid g v).rd a = c.rd a := by
  simp only [List.mem_cons, List.not_mem_nil, or_false, not_or] at h
  obtain ⟨h18, h20, h28, hv, hev⟩ := h
  have hs : (validShown c g v).rd a = c.rd a := by
    have hd : ((c.sb (gaR g 0x18) 0 v).sb (ga (g / 12) 0x200) (g % 12) v).rd a = c.rd a := (rd_sb_ne _ _ hv).trans (rd_sb_ne _ _ h18)
    unfold validShown
    split
    · exact hd
    · exact (rd_wr_ne _ h20).trans hd
  rw [setValid_eq]
  split
  · exact hs
  · exact (rd_gaEv h28 hev).trans hs

/-- Of a Gauge's own registers a change of VALID writes GA_STAT, GA_OUT and GA_EV. -/
theorem rd_setValid_own (ho : o < 0x40) (h : o ∉ [0x18, 0x20, 0x28]) : (c.setValid g v).rd (gaR g o) = c.rd (gaR g o) := by
  refine rd_setValid ?_
  simp only [List.mem_cons, List.not_mem_nil, or_false, not_or] at h ⊢
  obtain ⟨h18, h20, h28⟩ := h
  exact ⟨gaR_ne h18, gaR_ne h20, gaR_ne h28, gaR_ne_ga ho (by decide), gaR_ne_ga ho (by decide)⟩

theorem gb_setValid : (c.setValid g v).gb (gaR g 0x18) k = if k = 0 then v else c.gb (gaR g 0x18) k := by
  have hs : (validShown c g v).rd (gaR g 0x18) = (c.sb (gaR g 0x18) 0 v).rd (gaR g 0x18) := by
    have hd : ((c.sb (gaR g 0x18) 0 v).sb (ga (g / 12) 0x200) (g % 12) v).rd (gaR g 0x18) = (c.sb (gaR g 0x18) 0 v).rd (gaR g 0x18) :=
      rd_sb_ne _ _ (gaR_ne_ga (by decide) (by decide))
    unfold validShown
    split
    · exact hd
    · exact (rd_wr_ne _ (gaR_ne (by decide))).trans hd
  have h : (c.setValid g v).rd (gaR g 0x18) = (c.sb (gaR g 0x18) 0 v).rd (gaR g 0x18) := by
    rw [setValid_eq]
    split
    · exact hs
    · exact (rd_gaEv_own (by decide) (by decide)).trans hs
  rw [gb_congr h, gb_sb (by decide)]

theorem timS_setValid : (c.setValid g v).timS = c.timS := by
  rw [setValid_eq]
  cases v
  · split <;> rfl
  · split <;> rfl

theorem rd_showSettle (h : a ≠ gaR g 0x18) : (c.showSettle g on).rd a = c.rd a := (rd_sf_ne _ _ _ h).trans (rd_sb_ne _ _ h)

/-- SETTLING and SETTLE_LEFT are bits 6 to 14 of GA_STAT. -/
theorem gb_showSettle (hk : k < 6) : (c.showSettle g on).gb (gaR g 0x18) k = c.gb (gaR g 0x18) k := by
  unfold Core.showSettle
  extract_lets left
  have h : ((c.sb (gaR g 0x18) 6 (decide (0 < left))).sf (gaR g 0x18) 7 8 left).gb (gaR g 0x18) k =
      (c.sb (gaR g 0x18) 6 (decide (0 < left))).gb (gaR g 0x18) k := by
    rw [Core.gb, Core.rd_sf, if_pos rfl, bitOf_eq, setFld_other _ _ _ _ _ (.inl (by omega)), Core.gb, bitOf_eq]
  rw [h, gb_sb (by decide), if_neg (by omega)]

theorem timS_showSettle : (c.showSettle g on).timS = c.timS := rfl

end GaugeRules

/-! ## Input events (R316, R317) -/

section InputEvents

variable {c : Core} {g ph a : Nat} {q v : Int}

/-- What comes off the arrival of an event: of a timing marker its fixed latency and TIM_MATE_DLY (R316). -/
def inputLate (c : Core) (g : Nat) : Nat := if c.gf (gaR g 4) 0 8 = 100 then 63701 + c.gf (tim 0x4C) 0 24 else 0

/-- A timing marker of the partner noted (Table 10-1). -/
def markNoted (c : Core) (g : Nat) : Core := if c.gf (gaR g 4) 0 8 = 100 then { c with timS := { c.timS with mark := true } } else c

theorem rd_markNoted : (markNoted c g).rd a = c.rd a := by
  unfold markNoted
  split <;> rfl

theorem d06_markNoted : (markNoted c g).d06 = c.d06 := by
  unfold markNoted
  split <;> rfl

theorem gaugeOn_markNoted : (markNoted c g).gaugeOn g = c.gaugeOn g := by
  rw [Core.gaugeOn, Core.en, gb_congr rd_markNoted, gb_congr rd_markNoted, d06_markNoted, Core.gaugeOn, Core.en]

/-- The unwrapped phase that is nearest to the one before (R317). -/
def nearest (p q : Int) : Int := if 2 * ((p - q) % frameQ) ≤ frameQ then q + (p - q) % frameQ else q + (p - q) % frameQ - frameQ

theorem nearest_eq {p : Int} (h : (v - p) % frameQ = 0) (hu : 2 * (v - q) ≤ frameQ) (hl : -frameQ < 2 * (v - q)) :
    nearest (p % frameQ) q = v := by
  unfold nearest
  simp only [frameQ] at h hu hl ⊢
  split <;> omega

/-- What a running Gauge that is not to be reset makes of an event. -/
theorem gaugeInput_of_running (hon : c.gaugeOn g = true) (hr : (c.gauge g).reset = false) (hp : c.gb (gaR g 0x18) 5 = true) :
    c.gaugeInput g ph =
      (let p : Int := ((ph : Int) - inputLate c g) % frameQ
       match (c.gauge g).ph with
       | none => (markNoted c g).setGauge g { c.gauge g with ph := some p }
       | some q =>
         if nearest p q < 2 ^ 39 ∧ -(2 ^ 39) < nearest p q then (markNoted c g).setGauge g { c.gauge g with ph := some (nearest p q) }
         else ((markNoted c g).gaEv g (bit 7)).gaugeReset g) := by
  have hlate : (if c.gf (gaR g 4) 0 8 = 100 then markerLatency + (markNoted c g).gf (tim 0x4C) 0 24 else 0) = inputLate c g := by
    rw [gf_congr rd_markNoted]; rfl
  have hrun : (!(markNoted c g).gaugeOn g || (c.gauge g).reset || !(markNoted c g).gb (gaR g 0x18) 5) = false := by
    rw [gaugeOn_markNoted, gb_congr rd_markNoted, hon, hr, hp]; rfl
  rw [← hlate]
  exact if_neg (ne_true_of_eq_false hrun)

theorem gaugeInput_of_first (hon : c.gaugeOn g = true) (hr : (c.gauge g).reset = false) (hp : c.gb (gaR g 0x18) 5 = true)
    (hph : (c.gauge g).ph = none) :
    c.gaugeInput g ph = (markNoted c g).setGauge g { c.gauge g with ph := some (((ph : Int) - inputLate c g) % frameQ) } := by
  rw [gaugeInput_of_running hon hr hp, hph]

theorem gaugeInput_of_later (hon : c.gaugeOn g = true) (hr : (c.gauge g).reset = false) (hp : c.gb (gaR g 0x18) 5 = true)
    (hph : (c.gauge g).ph = some q) (hm : (v - ((ph : Int) - inputLate c g)) % frameQ = 0) (hu : 2 * (v - q) ≤ frameQ)
    (hl : -frameQ < 2 * (v - q)) (h39 : v < 2 ^ 39) (hn39 : -(2 ^ 39) < v) :
    c.gaugeInput g ph = (markNoted c g).setGauge g { c.gauge g with ph := some v } := by
  rw [gaugeInput_of_running hon hr hp, hph]
  simp only [nearest_eq hm hu hl]
  exact if_pos ⟨h39, hn39⟩

end InputEvents

/-! ## Output samples (R318, R323) -/

section Outputs

variable {c : Core} {g a k o : Nat} {m : List Host.Cell}

/-- GA_SEQ of the sample due. -/
def outSeq (c : Core) (g : Nat) : Nat := (c.rd (gaR g 0x1C)).toNat + 1

/-- The sample due, and whether it saturated. -/
def outValue (c : Core) (g : Nat) : Int × Bool :=
  stageOut 32 (c.gf (gaR g 0xC) 15 5)
    (dot ((List.range (c.gaT g)).map fun k => (c.coefAt g (c.gb (gaR g 0x18) 1) k).toInt) (c.gauge g).fir)

/-- Whether the sample due is valid (R323). -/
def outOk (c : Core) (g : Nat) : Bool := c.gb (gaR g 0x18) 0 || decide (c.gaT g + 14 ≤ outSeq c g)

/-- The sample due taken and numbered, with its saturation. -/
def outTaken (c : Core) (g : Nat) : Core :=
  let d := (c.updGauge g fun x => { x with due := false, sat := false }).wr (gaR g 0x1C) (BitVec.ofNat 32 (outSeq c g))
  if (c.gauge g).sat || (outValue c g).2 then (d.cn (ga (g / 12) (0x530 + 4 * (g % 12))) 1).gaEv g (bit 2) else d

/-- The sample shown with VALID, or counted as invalid. -/
def outShown (c : Core) (g : Nat) : Core :=
  (if outOk c g then ((outTaken c g).setValid g true).wr (gaR g 0x20) (BitVec.ofInt 32 (outValue c g).1)
    else (outTaken c g).cn (ga (g / 12) (0x500 + 4 * (g % 12))) 1).showSettle g true

/-- A valid sample is the Gauge's last one. -/
def outDone (c : Core) (g : Nat) : Core :=
  if outOk c g then (outShown c g).updGauge g fun x => { x with last := (outValue c g).1 } else outShown c g

/-- The registers that a sample may write: its Gauge's own, with VALID, the page's event and the two counters (Table 10-12). -/
def outRegs (g : Nat) : List Nat :=
  [gaR g 0x18, gaR g 0x1C, gaR g 0x20, gaR g 0x28, ga (g / 12) 0x200, ga (g / 12) 0x400, ga (g / 12) (0x500 + 4 * (g % 12)),
    ga (g / 12) (0x530 + 4 * (g % 12))]

theorem tim_notMem_outRegs (hg : g < 24) : tim o ∉ outRegs g := by
  simp only [outRegs, List.mem_cons, List.not_mem_nil, or_false, gaR, ga, tim]
  omega

theorem wander_notMem_outRegs : ga (g / 12) 0x40 ∉ outRegs g := by
  simp only [outRegs, List.mem_cons, List.not_mem_nil, or_false, gaR, ga]
  omega

theorem timS_cn : (c.cn a k).timS = c.timS := by
  unfold Core.cn
  split <;> rfl

theorem timS_outTaken : (outTaken c g).timS = (c.updGauge g fun x => { x with due := false, sat := false }).timS := by
  unfold outTaken
  split
  · exact timS_cn
  · rfl

theorem rd_outTaken (h : a ∉ [gaR g 0x1C, gaR g 0x28, ga (g / 12) 0x400, ga (g / 12) (0x530 + 4 * (g % 12))]) :
    (outTaken c g).rd a = c.rd a := by
  simp only [List.mem_cons, List.not_mem_nil, or_false, not_or] at h
  obtain ⟨hseq, h28, hev, hcn⟩ := h
  unfold outTaken
  extract_lets d
  have hd : d.rd a = c.rd a := rd_wr_ne _ hseq
  split
  · exact (rd_gaEv h28 hev).trans ((rd_cn_ne _ hcn).trans hd)
  · exact hd

/-- Of a Gauge's own registers the sample's number and its saturation write GA_SEQ and GA_EV. -/
theorem rd_outTaken_own (ho : o < 0x40) (h1 : o ≠ 0x1C) (h2 : o ≠ 0x28) : (outTaken c g).rd (gaR g o) = c.rd (gaR g o) := by
  refine rd_outTaken ?_
  simp only [List.mem_cons, List.not_mem_nil, or_false, not_or]
  exact ⟨gaR_ne h1, gaR_ne h2, gaR_ne_ga ho (by decide), gaR_ne_ga ho (by omega)⟩

theorem seq_outTaken : (outTaken c g).rd (gaR g 0x1C) = BitVec.ofNat 32 (outSeq c g) := by
  unfold outTaken
  extract_lets d
  have hd : d.rd (gaR g 0x1C) = BitVec.ofNat 32 (outSeq c g) := (Core.rd_wr _ _ _ _).trans (if_pos rfl)
  split
  · exact (rd_gaEv_own (by decide) (by decide)).trans ((rd_cn_own (by decide) (by omega)).trans hd)
  · exact hd

theorem rd_outShown (h : a ∉ outRegs g) : (outShown c g).rd a = c.rd a := by
  simp only [outRegs, List.mem_cons, List.not_mem_nil, or_false, not_or] at h
  obtain ⟨h18, h1c, h20, h28, hv, hev, hbad, hsat⟩ := h
  have ht : (outTaken c g).rd a = c.rd a := rd_outTaken (by simp [h1c, h28, hev, hsat])
  refine (rd_showSettle h18).trans ?_
  split
  · exact (rd_wr_ne _ h20).trans ((rd_setValid (by simp [h18, h20, h28, hv, hev])).trans ht)
  · exact (rd_cn_ne _ hbad).trans ht

theorem timS_outShown : (outShown c g).timS = (outTaken c g).timS := by
  refine timS_showSettle.trans ?_
  split
  · exact timS_setValid
  · exact timS_cn

theorem regs_outDone : (outDone c g).regs = (outShown c g).regs := by
  unfold outDone
  split <;> rfl

theorem rd_outDone (h : a ∉ outRegs g) : (outDone c g).rd a = c.rd a := (rd_congr regs_outDone a).trans (rd_outShown h)

/-- GA_SEQ rises by one. -/
theorem seq_outDone : (outDone c g).rd (gaR g 0x1C) = BitVec.ofNat 32 (outSeq c g) := by
  refine (rd_congr regs_outDone _).trans ((rd_showSettle (gaR_ne (by decide))).trans ?_)
  split
  · exact (rd_wr_ne _ (gaR_ne (by decide))).trans ((rd_setValid_own (by decide) (by decide)).trans seq_outTaken)
  · exact (rd_cn_own (by decide) (by omega)).trans seq_outTaken

theorem valid_outTaken : (outTaken c g).gb (gaR g 0x18) 0 = c.gb (gaR g 0x18) 0 :=
  gb_congr (rd_outTaken_own (by decide) (by decide) (by decide)) 0

/-- VALID shows whether the sample is valid (R323). -/
theorem valid_outDone : (outDone c g).gb (gaR g 0x18) 0 = outOk c g := by
  refine (gb_congr (rd_congr regs_outDone _) 0).trans ((gb_showSettle (by decide)).trans ?_)
  split
  next h => exact (gb_congr (rd_wr_ne _ (gaR_ne (by decide))) 0).trans (gb_setValid.trans h.symm)
  next h =>
    have hv : c.gb (gaR g 0x18) 0 = false := by
      rw [outOk, Bool.or_eq_true, not_or] at h
      exact Bool.eq_false_iff.mpr h.1
    rw [gb_congr (rd_cn_own (by decide) (by omega)), valid_outTaken, hv, Bool.eq_false_iff.mpr h]

theorem value_outDone (h : outOk c g = true) : (outDone c g).rd (gaR g 0x20) = BitVec.ofInt 32 (outValue c g).1 := by
  refine (rd_congr regs_outDone _).trans ((rd_showSettle (gaR_ne (by decide))).trans ?_)
  rw [if_pos h]
  exact (Core.rd_wr _ _ _ _).trans (if_pos rfl)

theorem gauge_outShown : (outShown c g).gauge g = { c.gauge g with due := false, sat := false } :=
  (gauge_congr (timS_outShown.trans timS_outTaken)).trans (gauge_updGauge.trans (if_pos rfl))

/-- Of the Gauge's record the sample leaves the last valid output, if it is one. -/
theorem gauge_outDone : (outDone c g).gauge g =
    { c.gauge g with due := false, sat := false, last := if outOk c g then (outValue c g).1 else (c.gauge g).last } := by
  unfold outDone
  split
  · rw [gauge_updGauge, if_pos rfl, gauge_outShown]
  · exact gauge_outShown

/-- With nothing selected no sample steers (R325). -/
theorem steerSample_of_unselected {b0 b : Int} (hf : c.timS.fade = none) (hs : c.selNow = none) : c.steerSample g b0 b = c := by
  simp only [Core.steerSample, hf, hs]

/-- A sample due with no swap, nothing selected and no wander record to write. -/
theorem gaugeOutput_eq (hg : g < 24) (hd : (c.gauge g).due = true) (hon : c.gaugeOn g = true) (hs : (c.gauge g).swap = none)
    (hsel : c.selNow = none) (hf : c.timS.fade = none) (hw : c.gb (ga (g / 12) 0x40) 0 = false) :
    c.gaugeOutput g m = (outDone c g, []) := by
  unfold Core.gaugeOutput
  extract_lets x c0 t bank cs y sat seq c1 c2 c3 was ok c4 c5 b0 c6 div
  have h0 : c0 = c := by
    have hx : x.swap = none := hs
    unfold c0
    rw [hx]
  clear_value c0
  subst h0
  rw [if_neg (by simp [x, hd, hon])]
  have hok : ok = outOk c0 g := by
    have hwas : was = c0.gb (gaR g 0x18) 0 := valid_outTaken
    unfold ok
    rw [hwas]
    rfl
  have h5 : c5 = outShown c0 g := by
    unfold c5 c4
    rw [hok]
    rfl
  have h6 : c6 = outDone c0 g := by
    have hfade : (c5.updGauge g fun x => { x with last := y.1 }).timS.fade = none := by
      rw [h5]
      exact (congrArg TimSt.fade (timS_outShown.trans timS_outTaken)).trans hf
    have hsel' : (c5.updGauge g fun x => { x with last := y.1 }).selNow = none := by
      rw [h5]
      exact (selNow_congr (rd_outShown (tim_notMem_outRegs hg))).trans hsel
    unfold c6 outDone
    rw [steerSample_of_unselected hfade hsel', hok, h5]
    rfl
  have hw6 : c6.gb (ga (g / 12) 0x40) 0 = false := by
    rw [h6]
    exact (gb_congr (rd_outDone wander_notMem_outRegs) 0).trans hw
  rw [if_neg (by simp [hw6]), h6]

end Outputs

/-! ## The sources of Gauges (R322, Table 10-1) -/

section Presence

variable {c d : Core} {g j k s a : Nat} {ages : List Nat} {on : Bool}

theorem srcUp_port (h : s < 96) : c.srcUp s ages = (decide (5 ≤ c.pst s) && !c.portSf s) := if_pos h

theorem srcUp_pin (h : 96 ≤ s) (hs : s < 100) : c.srcUp s ages = c.trefUp (s - 96) ages :=
  (if_neg (Nat.not_lt.mpr h)).trans (if_pos hs)

theorem srcUp_mate : c.srcUp 100 ages = true ↔ c.mateOn = true ∧ 3 ≤ c.timS.marks := by simp [Core.srcUp]

/-- A pin of 8 kHz: in use, with an edge in each of its last 4 periods of a frame (Table 10-1). -/
theorem trefUp_frame (h : c.gf (tim 0x48) (4 * k) 2 = 0) : c.trefUp k ages = true ↔ c.gb (tim 0x48) (4 * k + 2) = true ∧
    ∀ j, j < 4 → ∃ a ∈ ages, j * 4976640 ≤ a ∧ a < (j + 1) * 4976640 := by
  simp only [Core.trefUp, h, trefPeriod, Bool.and_eq_true, List.all_eq_true, List.any_eq_true, List.mem_range, decide_eq_true_eq]

theorem rd_showTref (h : a ≠ tim 0x234) (hev : a ≠ tim 0x400) : (c.showTref k on).rd a = c.rd a := by
  unfold Core.showTref
  split
  · rfl
  · exact (rd_ev_ne _ hev).trans (rd_sb_ne _ _ h)

theorem timS_showTref : (c.showTref k on).timS = c.timS := by
  unfold Core.showTref
  split <;> rfl

/-- The presence of a pin shown, where the source is one. -/
def pinShown (c : Core) (s : Nat) (on : Bool) : Core := if 96 ≤ s ∧ s < 100 then c.showTref (s - 96) on else c

theorem rd_pinShown (h : a < 0xD000) : (pinShown c s on).rd a = c.rd a := by
  unfold pinShown
  split
  · exact rd_showTref (by simp only [tim]; omega) (by simp only [tim]; omega)
  · rfl

theorem timS_pinShown : (pinShown c s on).timS = c.timS := by
  unfold pinShown
  split
  · exact timS_showTref
  · rfl

/-- No Gauge is changed by the presence of a pin. -/
theorem gauge_pinShown : (pinShown c s on).gauge j = c.gauge j := gauge_congr timS_pinShown

theorem stat_pinShown (g : GaugeNo) : (pinShown c s on).gb (gaR g.val 0x18) k = c.gb (gaR g.val 0x18) k :=
  gb_congr (rd_pinShown (by simp only [gaR]; omega)) k

theorem inputFound_of_found (he : c.en (0xA + g / 12) = true) (hs : c.srcUp (c.gf (gaR g 4) 0 8) ages = on) :
    c.inputFound g ages on = (pinShown c (c.gf (gaR g 4) 0 8) on).gaugePresent g on :=
  if_neg (by simp [he, hs])

theorem inputFound_of_notFound (hs : c.srcUp (c.gf (gaR g 4) 0 8) ages = !on) : c.inputFound g ages on = c :=
  if_pos (by rw [hs]; cases on <;> simp)

/-- PRESENT in GA_STAT and GA_PRES. -/
def presentShown (c : Core) (g : Nat) (on : Bool) : Core := (c.sb (gaR g 0x18) 5 on).sb (ga (g / 12) 0x200) (16 + g % 12) on

theorem present_presentShown : (presentShown c g on).gb (gaR g 0x18) 5 = on :=
  (gb_congr (rd_sb_ne _ _ (gaR_ne_ga (by decide) (by decide))) 5).trans ((gb_sb (by decide)).trans (if_pos rfl))

theorem gaugePresent_back (h : c.gb (gaR g 0x18) 5 = false) :
    c.gaugePresent g true = ((presentShown c g true).gaEv g (bit 6)).gaugeReset g := if_neg (by simp [h])

theorem gaugePresent_lost (h : c.gb (gaR g 0x18) 5 = true) :
    c.gaugePresent g false = (((presentShown c g false).gaEv g (bit 5)).gaugeClear g).showSettle g false := if_neg (by simp [h])

/-- A source found again shows PRESENT and asks for a reset. -/
theorem shown_gaugeBack (h : c.gb (gaR g 0x18) 5 = false) :
    (c.gaugePresent g true).gb (gaR g 0x18) 5 = true ∧ (c.gaugePresent g true).gauge g = { c.gauge g with reset := true } ∧
      ∀ j, j ≠ g → (c.gaugePresent g true).gauge j = c.gauge j := by
  rw [gaugePresent_back h]
  refine ⟨?_, gauge_updGauge.trans (if_pos rfl), fun j hj => gauge_updGauge.trans (if_neg hj)⟩
  exact (gb_congr (rd_gaEv_own (by decide) (by decide)) 5).trans present_presentShown

/-- A Gauge's filter as a cleared one holds it (R321). -/
def filterCleared (x : Gauge) : Gauge := { swap := x.swap, latch := x.latch, recs := x.recs, start := x.start, last := x.last }

theorem gaugeClear_eq : c.gaugeClear g = (((c.updGauge g filterCleared).setValid g false).wr (gaR g 0x1C) 0).sb (gaR g 0) 8 false := rfl

theorem gauge_gaugeClear : (c.gaugeClear g).gauge j = if j = g then filterCleared (c.gauge g) else c.gauge j := by
  rw [gaugeClear_eq]
  exact (gauge_congr timS_setValid).trans gauge_updGauge

theorem seq_gaugeClear : (c.gaugeClear g).rd (gaR g 0x1C) = 0 :=
  (rd_sb_ne _ _ (gaR_ne (by decide))).trans ((Core.rd_wr _ _ _ _).trans (if_pos rfl))

theorem gb_gaugeClear : (c.gaugeClear g).gb (gaR g 0x18) k = if k = 0 then false else c.gb (gaR g 0x18) k :=
  (gb_congr ((rd_sb_ne _ _ (gaR_ne (by decide))).trans (rd_wr_ne _ (gaR_ne (by decide)))) k).trans gb_setValid

/-- A source found absent: PRESENT, VALID, GA_SEQ and the filter are cleared, and no other Gauge's. -/
theorem shown_gaugeLost (h : c.gb (gaR g 0x18) 5 = true) :
    (c.gaugePresent g false).gb (gaR g 0x18) 5 = false ∧ (c.gaugePresent g false).gb (gaR g 0x18) 0 = false ∧
      (c.gaugePresent g false).rd (gaR g 0x1C) = 0 ∧ (c.gaugePresent g false).gauge g = filterCleared (c.gauge g) ∧
      ∀ j, j ≠ g → (c.gaugePresent g false).gauge j = c.gauge j := by
  rw [gaugePresent_lost h]
  refine ⟨?_, ?_, (rd_showSettle (gaR_ne (by decide))).trans seq_gaugeClear, gauge_gaugeClear.trans (if_pos rfl),
    fun j hj => gauge_gaugeClear.trans (if_neg hj)⟩
  · rw [gb_showSettle (by decide), gb_gaugeClear, if_neg (by decide), gb_congr (rd_gaEv_own (by decide) (by decide)), present_presentShown]
  · rw [gb_showSettle (by decide), gb_gaugeClear, if_pos rfl]

/-! ### TIM_GA_SYNC (R321) -/

/-- What TIM_GA_SYNC asks of one Gauge. -/
def syncOne (g : Nat) (c : Core) : Core := if c.gaugeOn g then c.gaugeReset g else c

theorem gaSync_eq : c.gaSync = (forN 24 syncOne c).sb (tim 0xB38) 1 true := rfl

theorem gaugeOn_syncOne : (syncOne k c).gaugeOn g = c.gaugeOn g := by
  unfold syncOne
  split <;> rfl

theorem gauge_syncOne : (syncOne k c).gauge g = if g = k ∧ c.gaugeOn g = true then { c.gauge g with reset := true } else c.gauge g := by
  unfold syncOne
  cases hon : c.gaugeOn k with
  | true =>
    rw [if_pos rfl]
    refine gauge_updGauge.trans ?_
    by_cases hg : g = k
    · subst hg
      simp [hon]
    · simp [hg]
  | false =>
    by_cases hg : g = k
    · subst hg
      simp [hon]
    · simp [hg]

/-- Every running Gauge among the first `k` is to be reset. -/
theorem gauge_syncs : (forN k syncOne c).gaugeOn g = c.gaugeOn g ∧
    (forN k syncOne c).gauge g = if g < k ∧ c.gaugeOn g = true then { c.gauge g with reset := true } else c.gauge g := by
  induction k with
  | zero => exact ⟨rfl, (if_neg (by omega)).symm⟩
  | succ k ih =>
    obtain ⟨hon, hx⟩ := ih
    rw [forN_succ, gaugeOn_syncOne, gauge_syncOne, hon, hx]
    refine ⟨rfl, ?_⟩
    by_cases hg : g = k
    · subst hg
      simp
    · have hlt : g < k + 1 ↔ g < k := by omega
      simp [hg, hlt]

theorem gauge_gaSync (g : GaugeNo) :
    c.gaSync.gauge g.val = if c.gaugeOn g.val then { c.gauge g.val with reset := true } else c.gauge g.val := by
  have hlt : g.val < 24 := g.isLt
  rw [gaSync_eq, gauge_congr (Core.sb_timS _ _ _ _), gauge_syncs.2]
  simp [hlt]

end Presence

/-! ## GA_CTL (R319, R321, R339) -/

section GaugeControl

variable {c d : Core} {a left : Nat} {old v w k m : Word} {r : Row} {g : GaugeNo}

/-- A quiet write of a register of a GA page other than GA_COEF_DATA. -/
theorem regWrite_of_gaugeSoft (hr : regRow (a / 0x1000) (a % 0x1000) = some r) (hp : Permitted r m)
    (hl : Unlocked d r (a / 0x1000) (a % 0x1000) m) (hgd : r.gd = 0) (hcn : r.cn = 0) (ho : a % 0x1000 ≠ 0xE04)
    (hg : isGrd (a / 0x1000) (a % 0x1000) = false) (hq : (v ^^^ d.view a) &&& r.rv &&& m = 0) :
    d.regWrite a v m left =
      (let k := storedBits d r (a % 0x1000) m
       (if k = 0 then d else d.stow a v k).writeEffect (a / 0x1000) (a % 0x1000) (d.rd a) (v &&& m) m left) := by
  obtain ⟨hcfg, hcu, hfix⟩ := hl
  simp only [Core.regWrite, hr]
  rw [if_neg (not_or.mpr ⟨hp, by simp [hfix]⟩), if_neg hcfg, if_neg (by simp [hcu])]
  simp [hgd, hcn, hg, ho, hq, storedBits]

/-- Such a write in full stores the software bits of its row. -/
theorem regWrite_of_gaugeQuiet (hr : regRow (a / 0x1000) (a % 0x1000) = some r) (hp : Permitted r all32)
    (hl : Unlocked d r (a / 0x1000) (a % 0x1000) all32) (hgd : r.gd = 0) (hcn : r.cn = 0) (ho : a % 0x1000 ≠ 0xE04)
    (hg : isGrd (a / 0x1000) (a % 0x1000) = false)
    (hk : (r.cf ||| r.ct) &&& ~~~(r.cmd ||| r.zero ||| if a % 0x1000 = 4 then 1 else 0) = k) (hq : Quiet d a v) :
    d.regWrite a v all32 left = (Stored d a v k).writeEffect (a / 0x1000) (a % 0x1000) (d.rd a) v all32 left := by
  rw [Quiet, rvOf_of_row hr] at hq
  rw [regWrite_of_gaugeSoft hr hp hl hgd hcn ho hg (by rw [hq]; exact BitVec.zero_and)]
  simp only [Stored, storedBits, and_all32, rvOf_of_row hr, hk]

/-- The row of GA_CTL (Table 10-12). -/
def gaCtlRow : Row := { off := 0xB00, cnt := 12, stride := 0x40, cf := 0xF, lv := 0x300, cmd := 0x6 }

theorem regRow_gaCtl (g : GaugeNo) : regRow (gaR g.val 0 / 0x1000) (gaR g.val 0 % 0x1000) = some gaCtlRow := by
  obtain ⟨hdiv, hmod⟩ := gauge_place g (off := 0) (by decide)
  have h : ∀ g : GaugeNo, findRow .ga (0xB00 + g.val % 12 * 0x40 + 0) = some gaCtlRow := by decide
  rw [hdiv, hmod, regRow_of_page (pageKind_gauge g) (by omega), h g]

/-- GA_CTL written: SRST is recorded while its companion shows, and the rest acts on the bits now stored. -/
theorem regWrite_gaCtl (hq : Quiet d (gaR g.val 0) v) :
    d.regWrite (gaR g.val 0) v all32 left =
      (let f := Stored d (gaR g.val 0) v 9
       if bitOf v 1 && f.gb (gaR g.val 0) 8 then
         (f.ign (gaR g.val 0) 8).gaCtlWrite g.val (d.rd (gaR g.val 0)) (((f.ign (gaR g.val 0) 8).rd (gaR g.val 0) &&& 9) ||| (v &&& 4))
       else f.gaCtlWrite g.val (d.rd (gaR g.val 0)) ((f.rd (gaR g.val 0) &&& 9) ||| (v &&& 6))) := by
  obtain ⟨hdiv, hmod⟩ := gauge_place g (off := 0) (by decide)
  have hlt : g.val < 24 := g.isLt
  have hlock : Unlocked d gaCtlRow (gaR g.val 0 / 0x1000) (gaR g.val 0 % 0x1000) all32 := by
    rw [hdiv, hmod]
    refine ⟨fun h => absurd h.2.1 (by omega), ?_, ?_⟩
    · have h9 : 0xA + g.val / 12 ≠ 9 := by omega
      simp [Core.cuHolds, h9]
    · have h8 : 0xA + g.val / 12 ≠ 8 := by omega
      simp [h8]
  have hne : gaR g.val 0 % 0x1000 ≠ 4 := by omega
  rw [regWrite_of_gaugeQuiet (k := 9) (regRow_gaCtl g) (permitted_of_soft (by decide)) hlock rfl rfl (by omega)
    (isGrd_of_high (by omega)) (by rw [if_neg hne]; rfl) hq]
  have hpage : pageKind (gaR g.val 0 / 0x1000) = some .ga := by rw [hdiv]; exact pageKind_gauge g
  have hi : gaR g.val 0 / 0x1000 - 0xA = g.val / 12 := by omega
  have h40 : gaR g.val 0 % 0x1000 ≠ 0x40 := by omega
  have hcoef : gaR g.val 0 % 0x1000 ≠ 0xE04 := by omega
  have hin : ¬(gaR g.val 0 % 0x1000 < 0xB00 ∨ 0xE00 ≤ gaR g.val 0 % 0x1000) := by omega
  have hoff : gaR g.val 0 % 0x1000 % 0x40 = 0 := by omega
  have hno : 12 * (g.val / 12) + (gaR g.val 0 % 0x1000 - 0xB00) / 0x40 = g.val := by omega
  simp only [Core.writeEffect, if_neg hne, hpage, Core.gaEffect, hi, if_neg h40, if_neg hcoef, if_neg hin, hoff, hno]
  split
  · rfl
  · rfl

/-- A write of GA_CTL that leaves GEN as it is. -/
theorem gaCtlWrite_of_sameGen {g : Nat} (h : bitOf old 0 = bitOf w 0) :
    c.gaCtlWrite g old w =
      (let e := if bitOf w 1 then (c.gaugeReset g).sb (gaR g 0) 8 true else c
       if bitOf w 2 then e.swapReq g (bitOf w 3) else e) := by
  simp only [Core.gaCtlWrite, h]
  cases bitOf w 0 <;> rfl

/-- GEN, SRST, SWAP and SWAP_TO as GA_CTL takes them: the bits stored with the commands written. -/
theorem ctlWord_bits : bitOf ((w &&& 9) ||| (v &&& 6)) 0 = bitOf w 0 ∧ bitOf ((w &&& 9) ||| (v &&& 6)) 1 = bitOf v 1 ∧
    bitOf ((w &&& 9) ||| (v &&& 6)) 2 = bitOf v 2 ∧ bitOf ((w &&& 9) ||| (v &&& 6)) 3 = bitOf w 3 := by
  simp [bitOf]

theorem ctlWord_bits_refused : bitOf ((w &&& 9) ||| (v &&& 4)) 0 = bitOf w 0 ∧ bitOf ((w &&& 9) ||| (v &&& 4)) 1 = false ∧
    bitOf ((w &&& 9) ||| (v &&& 4)) 2 = bitOf v 2 := by
  simp [bitOf]

/-- SRST as the command writes it: GEN and SWAP_TO as they were. -/
theorem srstWord_bits : bitOf ((w &&& 9) ||| 2) 0 = bitOf w 0 ∧ bitOf ((w &&& 9) ||| 2) 1 = true ∧ bitOf ((w &&& 9) ||| 2) 2 = false := by
  simp [bitOf]

/-- SWAP as the command writes it: GEN as it was. -/
theorem swapWord_bits {dst : Bool} : bitOf ((w &&& 1) ||| 4 ||| if dst then 8 else 0) 0 = bitOf w 0 ∧
    bitOf ((w &&& 1) ||| 4 ||| if dst then 8 else 0) 1 = false ∧ bitOf ((w &&& 1) ||| 4 ||| if dst then 8 else 0) 2 = true ∧
    bitOf ((w &&& 1) ||| 4 ||| if dst then 8 else 0) 3 = dst := by
  cases dst <;> simp [bitOf]

theorem rd_gaCtl_ign : (c.ign (gaR g.val 0) 8).rd (gaR g.val 0) = c.rd (gaR g.val 0) :=
  rd_ign (by simp only [gaR, pg]; omega) (by simp only [gaR, pg]; omega)

/-- SRST alone, GEN as it was. -/
theorem regWrite_srst (hq : Quiet d (gaR g.val 0) v) (h0 : bitOf v 0 = d.gb (gaR g.val 0) 0) (h1 : bitOf v 1 = true) (h2 : bitOf v 2 = false) :
    d.regWrite (gaR g.val 0) v all32 left =
      (let f := Stored d (gaR g.val 0) v 9
       if f.gb (gaR g.val 0) 8 then f.ign (gaR g.val 0) 8 else (f.gaugeReset g.val).sb (gaR g.val 0) 8 true) := by
  have hgen : bitOf ((Stored d (gaR g.val 0) v 9).rd (gaR g.val 0)) 0 = bitOf v 0 := gb_stored_of_mask (by decide)
  rw [regWrite_gaCtl hq]
  cases hb : (Stored d (gaR g.val 0) v 9).gb (gaR g.val 0) 8 with
  | true =>
    obtain ⟨w0, w1, w2⟩ := ctlWord_bits_refused (w := (Stored d (gaR g.val 0) v 9).rd (gaR g.val 0)) (v := v)
    simp only [h1, hb, Bool.and_self, if_true, rd_gaCtl_ign]
    rw [gaCtlWrite_of_sameGen (by rw [w0, hgen, h0]; rfl), w1, w2, h2]
    rfl
  | false =>
    obtain ⟨w0, w1, w2, -⟩ := ctlWord_bits (w := (Stored d (gaR g.val 0) v 9).rd (gaR g.val 0)) (v := v)
    simp only [hb, Bool.and_false, Bool.false_eq_true, if_false]
    rw [gaCtlWrite_of_sameGen (by rw [w0, hgen, h0]; rfl), w1, w2, h1, h2]
    rfl

/-- SWAP alone, GEN as it was: the swap is asked for. -/
theorem regWrite_swap (hq : Quiet d (gaR g.val 0) v) (h0 : bitOf v 0 = d.gb (gaR g.val 0) 0) (h1 : bitOf v 1 = false) (h2 : bitOf v 2 = true) :
    d.regWrite (gaR g.val 0) v all32 left = (Stored d (gaR g.val 0) v 9).swapReq g.val (bitOf v 3) := by
  have hgen : bitOf ((Stored d (gaR g.val 0) v 9).rd (gaR g.val 0)) 0 = bitOf v 0 := gb_stored_of_mask (by decide)
  have hdst : bitOf ((Stored d (gaR g.val 0) v 9).rd (gaR g.val 0)) 3 = bitOf v 3 := gb_stored_of_mask (by decide)
  obtain ⟨w0, w1, w2, w3⟩ := ctlWord_bits (w := (Stored d (gaR g.val 0) v 9).rd (gaR g.val 0)) (v := v)
  rw [regWrite_gaCtl hq]
  simp only [h1, Bool.false_and, Bool.false_eq_true, if_false]
  rw [gaCtlWrite_of_sameGen (by rw [w0, hgen, h0]; rfl), w1, w2, w3, h1, h2, hdst]
  rfl

/-- A swap of a running Gauge in no cross-fade waits for its next output (R339). -/
theorem swapReq_of_running {g : Nat} {dst : Bool} (hf : c.gb (gaR g 0x18) 2 = false) (hon : c.gb (gaR g 0) 0 = true)
    (hb : c.gb (gaR g 0x18) 1 ≠ dst) : c.swapReq g dst = c.setGauge g { c.gauge g with swap := some dst } := by
  have hf' : c.inFade g = false := hf
  rw [Core.swapReq, if_neg (ne_true_of_eq_false hf'), 
    if_neg (not_or.mpr ⟨hb, by rw [hon]; decide⟩)]
  rfl

/-- A write of GA_CTL made of what it holds. -/
theorem answers_gaCtl {i : Instr} {f : Core → Word} (hi : ∀ s, exec i s = s.on fun c => c.hostPut (gaR g.val 0) (f c)) (ho : Open c 4)
    (hd : (Arrives c).regWrite (gaR g.val 0) (f c) all32 8 = d) : Answers i c d .done := by
  obtain ⟨hdiv, -⟩ := gauge_place g (off := 0) (by decide)
  have hpage : ∀ g : GaugeNo, islandOf (0xA + g.val / 12) = 4 ∧ privileged (0xA + g.val / 12) = false := by decide
  obtain ⟨hi4, hpriv⟩ := hpage g
  exact answers_hostPut hi (by simp only [gaR]; omega) (by simp only [gaR]; omega) (by rw [hdiv, hi4]; exact ho)
    (by rw [hdiv, pageKind_gauge g]; rfl) (by rw [hdiv]; exact hpriv) hd

end GaugeControl

/-! ## TIM_GA_SYNC written (R321) -/

section Sync

variable {c d : Core} {left : Nat}

/-- The row of TIM_GA_SYNC (Table 10-11). -/
def gaSyncRow : Row := { off := 0xB38, cf := 0x1, lv := 0x2, cmd := 0x1 }

theorem regWrite_gaSync (hq : Quiet d (tim 0xB38) 1) (hb : (Stored d (tim 0xB38) 1 0).gb (tim 0xB38) 1 = false) :
    d.regWrite (tim 0xB38) 1 all32 left = (Stored d (tim 0xB38) 1 0).gaSync := by
  have hr : regRow (tim 0xB38 / 0x1000) (tim 0xB38 % 0x1000) = some gaSyncRow := rfl
  have hlock : Unlocked d gaSyncRow (tim 0xB38 / 0x1000) (tim 0xB38 % 0x1000) all32 := ⟨fun h => absurd h.2.1 (by decide), rfl, rfl⟩
  rw [regWrite_of_quiet (k := 0) hr (permitted_of_soft (by decide)) hlock rfl rfl (by decide) rfl rfl hq]
  exact if_neg (ne_true_of_eq_false hb)

end Sync

/-! ## GA_COEF_DATA (R319) -/

section Coefficients

variable {i : Instr} {c d : Core} {j left : Nat} {v m : Word}

theorem coef_place : ga j 0xE04 / 0x1000 = 0xA + j ∧ ga j 0xE04 % 0x1000 = 0xE04 := by simp only [ga]; omega

theorem pageKind_ga (hj : j < 2) : pageKind (0xA + j) = some .ga := (by decide : ∀ j < 2, pageKind (0xA + j) = some .ga) j hj

/-- The row of GA_COEF_DATA (Table 10-12). -/
def coefRow : Row := { off := 0xE04, cf := 0xFFFFF, ro := 0xFFF00000 }

theorem findRow_coef : findRow .ga 0xE04 = some coefRow := rfl

theorem view_coef (hj : j < 2) : d.view (ga j 0xE04) = d.coefRead j := by
  obtain ⟨hdiv, hmod⟩ := coef_place (j := j)
  have hi : 0xA + j - 0xA = j := by omega
  simp only [Core.view, hdiv, hmod, pageKind_ga hj, Option.bind_some, findRow_coef, Core.pageView, hi]
  exact and_all32 _

theorem readEffect_coef (hj : j < 2) : d.readEffect (ga j 0xE04) = d.coefStep j := by
  obtain ⟨hdiv, hmod⟩ := coef_place (j := j)
  have hi : 0xA + j - 0xA = j := by omega
  simp only [Core.readEffect, hdiv, hmod, pageKind_ga hj, Option.bind_some, findRow_coef, hi]
  rfl

/-- A write of GA_COEF_DATA is the coefficient's: no bit of the register is stored. -/
theorem regWrite_coefBits (hj : j < 2) (hp : Permitted coefRow m) : d.regWrite (ga j 0xE04) v m left =
    d.gaEffect j 0xE04 (d.rd (ga j 0xE04)) ((d.view (ga j 0xE04) &&& ~~~m) ||| (v &&& m)) (m = all32) := by
  obtain ⟨hdiv, hmod⟩ := coef_place (j := j)
  have hpage := pageKind_ga hj
  have hr : regRow (0xA + j) 0xE04 = some coefRow := (regRow_of_page hpage rfl).trans findRow_coef
  have h8 : 0xA + j ≠ 8 := by omega
  have h9 : 0xA + j ≠ 9 := by omega
  have hcu : d.cuHolds (0xA + j) 0xE04 = false := by simp [Core.cuHolds, h9]
  have hrv : coefRow.rv = 0 := by decide
  have hg : isGrd (0xA + j) 0xE04 = false := isGrd_of_high (by decide)
  have hi : 0xA + j - 0xA = j := by omega
  simp only [Core.regWrite, hdiv, hmod, hr]
  rw [if_neg (not_or.mpr ⟨hp, by simp [h8]⟩), if_neg (fun h => absurd h.2.1 (by decide)), if_neg (by simp [hcu])]
  have hgd : coefRow.gd = 0 := rfl
  have hcn : coefRow.cn = 0 := rfl
  simp [hpage, hg, hrv, hgd, hcn, Core.writeEffect, hi]

/-- A full write of it, and the address steps on. -/
theorem regWrite_coef (hj : j < 2) : d.regWrite (ga j 0xE04) v all32 left = (d.coefWrite j v).coefStep j := by
  have hv : (d.view (ga j 0xE04) &&& ~~~all32) ||| (v &&& all32) = v := by
    have h0 : ~~~all32 = 0 := by decide
    rw [h0, and_all32]
    simp
  rw [regWrite_coefBits hj (permitted_of_soft (by decide)), hv]
  simp [Core.gaEffect]

/-- A coefficient at a lane past 11 is refused (R319). -/
theorem coefWrite_of_noGauge (h : 12 ≤ d.gf (ga j 0xE00) 0 4) : d.coefWrite j v = d.ign (ga j 0xE04) 5 := if_pos h

/-- A coefficient of a Gauge with GEN = 0 is stored (R319). -/
theorem coefWrite_of_stopped (h : d.gf (ga j 0xE00) 0 4 < 12) (hg : d.gb (gaR (12 * j + d.gf (ga j 0xE00) 0 4) 0) 0 = false) :
    d.coefWrite j v =
      (let e := d.sb (ga j 0xE08) 0 false
       let k := (12 * j + d.gf (ga j 0xE00) 0 4) * 128 + (if d.gb (ga j 0xE00) 4 then 64 else 0) + d.gf (ga j 0xE00) 5 6
       { e with timS := { e.timS with coef := Sparse.put (fun _ => 0) e.timS.coef k (v.extractLsb' 0 20) } }) := by
  have hn : ¬12 ≤ fld (d.rd (ga j 0xE00)) 0 4 := Nat.not_le.mpr h
  have hg' : d.gb (gaR (12 * j + fld (d.rd (ga j 0xE00)) 0 4) 0) 0 = false := hg
  simp only [Core.coefWrite, if_neg hn, hg', Bool.false_and, Bool.false_eq_true, if_false]
  rfl

/-- The page of GA_COEF_DATA is the host's, on the island of TIM. -/
theorem coef_reached (hj : j < 2) : islandOf (0xA + j) = 4 ∧ privileged (0xA + j) = false :=
  (by decide : ∀ j < 2, islandOf (0xA + j) = 4 ∧ privileged (0xA + j) = false) j hj

theorem answers_coefWrite (hi : ∀ s, exec i s = s.on (·.hostPut (ga j 0xE04) v)) (hj : j < 2) (ho : Open c 4)
    (hd : ((Arrives c).coefWrite j v).coefStep j = d) : Answers i c d .done := by
  obtain ⟨hdiv, -⟩ := coef_place (j := j)
  obtain ⟨hi4, hpriv⟩ := coef_reached hj
  exact answers_hostPut (f := fun _ => v) hi (by simp only [ga]; omega) (by simp only [ga]; omega) (by rw [hdiv, hi4]; exact ho)
    (by rw [hdiv, pageKind_ga hj]; rfl) (by rw [hdiv]; exact hpriv) ((regWrite_coef hj).trans hd)

theorem answers_coefRead (hi : ∀ s, exec i s = s.on (·.access (.rd (ga j 0xE04)))) (hj : j < 2) (ho : Open c 4) :
    Answers i c (((Arrives c).coefStep j).used (ga j 0xE04)) (.data ((Arrives c).coefRead j)) := by
  obtain ⟨hdiv, -⟩ := coef_place (j := j)
  obtain ⟨hi4, hpriv⟩ := coef_reached hj
  rw [← view_coef hj]
  exact answers_read hi (by simp only [ga]; omega) (by simp only [ga]; omega) (by rw [hdiv, hi4]; exact ho)
    (by rw [hdiv, pageKind_ga hj]; rfl) (by rw [hdiv]; exact hpriv) (readEffect_coef hj)

end Coefficients

/-- Settles O45, clause by clause: events by `nearest`, outputs by `outDone`, presence by `gaugePresent`, and GA_CTL, TIM_GA_SYNC and
GA_COEF_DATA by what their writes do. -/
theorem gaugesMeasureTheirInputs : Obligations.GaugesMeasureTheirInputs := by
  unfold Obligations.GaugesMeasureTheirInputs
  intro c g
  have hlt : g.val < 24 := g.isLt
  have hin (ph s) : exec (.gaugeInputEvent g ph) s = s.on (·.gaugeInput g.val ph) := rfl
  have hout (s) : exec (.gaugeOutputSample g) s = s.onMem (·.gaugeOutput g.val ·) := rfl
  have hlost (ages s) : exec (.inputLost ⟨g, ages⟩) s = s.on (·.inputFound g.val ages false) := rfl
  have hback (ages s) : exec (.inputBack ⟨g, ages⟩) s = s.on (·.inputFound g.val ages true) := rfl
  have hsrst (s) : exec (.gaugeSrst g) s = s.on fun c => c.hostPut (gaR g.val 0) ((c.rd (gaR g.val 0) &&& 9) ||| 2) := rfl
  have hsync (s) : exec .gaugeSyncAll s = s.on (·.access (.wr (tim 0xB38) 1 8)) := rfl
  have hswap (dst s) : exec (.gaugeSwap g dst) s =
      s.on fun c => c.hostPut (gaR g.val 0) ((c.rd (gaR g.val 0) &&& 1) ||| 4 ||| (if dst then 8 else 0)) := rfl
  have hread (p1 s) : exec (.gaCoefDataAccess p1 none) s = s.on (·.access (.rd (ga (if p1 then 1 else 0) 0xE04))) := rfl
  have hwrite (p1 v s) : exec (.gaCoefDataAccess p1 (some v)) s = s.on (·.hostPut (ga (if p1 then 1 else 0) 0xE04) v) := rfl
  refine ⟨fun hon hr hp => ⟨fun ph hph => ?_, fun ph q v hph hm hu hl h39 hn39 => ?_⟩, fun m hd hon hs hsel hf hw => ?_,
    fun ages he hp hs => reaches_of_on (hlost ages) ?_, fun ages he hp hs => reaches_of_on (hback ages) ?_,
    fun ages hs => goes_of_on (hlost ages) (inputFound_of_notFound hs), fun ages hs => goes_of_on (hback ages) (inputFound_of_notFound hs),
    fun s ages => ⟨srcUp_port, fun h96 h100 h0 => ?_, srcUp_mate⟩,
    fun ho => ⟨fun hq hb => ?_, fun hq hb => ?_, fun hq hb => ?_, fun dst hq hon hx hb => ?_,
      fun p1 => ⟨?_, fun v h12 => ?_, fun v h12 hg => ?_⟩⟩,
    fun d => ⟨gauge_gaSync g, Core.gb_sb _ _ _ _ (by decide)⟩⟩
  · exact goes_of_on (hin ph) (gaugeInput_of_first hon hr hp hph)
  · exact goes_of_on (hin ph) (gaugeInput_of_later hon hr hp hph hm hu hl h39 hn39)
  · refine reachesMem_of_onMem hout ?_
    rw [gaugeOutput_eq hlt hd hon hs hsel hf hw, Core.rewrote_nil]
    refine ⟨rfl, by rw [gauge_outDone], seq_outDone, fun hle => ?_, fun hgt hv => ?_⟩
    · have hok : outOk c g.val = true := by rw [outOk, outSeq, decide_eq_true hle, Bool.or_true]
      exact ⟨valid_outDone.trans hok, value_outDone hok, by rw [gauge_outDone, if_pos hok]; rfl⟩
    · have hok : outOk c g.val = false := by rw [outOk, outSeq, hv, decide_eq_false (by omega), Bool.false_or]
      exact ⟨by rw [gauge_outDone, if_neg (ne_true_of_eq_false hok)], valid_outDone.trans hok⟩
  · obtain ⟨hpres, hval, hseq, hx, hoth⟩ := shown_gaugeLost ((stat_pinShown g).trans hp)
    rw [inputFound_of_found he hs]
    exact ⟨hpres, hval, hseq, by rw [hx]; rfl, by rw [hx]; rfl, by rw [hx]; rfl, fun j hj => (hoth j hj).trans gauge_pinShown⟩
  · obtain ⟨hpres, hreset, hoth⟩ := shown_gaugeBack ((stat_pinShown g).trans hp)
    rw [inputFound_of_found he hs]
    exact ⟨hpres, hreset.trans (by rw [gauge_pinShown]), fun j hj => (hoth j hj).trans gauge_pinShown⟩
  · rw [srcUp_pin h96 h100]
    exact trefUp_frame h0
  · obtain ⟨h0, h1, h2⟩ := srstWord_bits (w := c.rd (gaR g.val 0))
    exact answers_gaCtl hsrst ho ((regWrite_srst hq h0 h1 h2).trans (if_neg (ne_true_of_eq_false hb)))
  · obtain ⟨h0, h1, h2⟩ := srstWord_bits (w := c.rd (gaR g.val 0))
    exact answers_gaCtl hsrst ho ((regWrite_srst hq h0 h1 h2).trans (if_pos hb))
  · exact answers_write hsync rfl (by decide) ho rfl rfl (regWrite_gaSync hq hb)
  · obtain ⟨h0, h1, h2, h3⟩ := swapWord_bits (w := c.rd (gaR g.val 0)) (dst := dst)
    refine answers_gaCtl (hswap dst) ho ((regWrite_swap hq h0 h1 h2).trans ?_)
    rw [h3]
    exact swapReq_of_running hx hon hb
  · exact answers_coefRead (hread p1) (by split <;> decide) ho
  · exact answers_coefWrite (hwrite p1 v) (by split <;> decide) ho (by rw [coefWrite_of_noGauge h12])
  · exact answers_coefWrite (hwrite p1 v) (by split <;> decide) ho (by rw [coefWrite_of_stopped h12 hg])

end Sys2Proof.Proofs
